-- ==== Sys2Proof/Wire.lean ====
section
/-! DEFINITION. What travels between the module and the outside, as plain data: fabric packets
(02_optical_fabric.md R29), mesh flits (03_module_fabric.md R49), replies to split-phase loads (R59), kill
units (R62), the register spaces of REGISTER_WRITE (00_scope.md R6), election claims (05_boot_trust.md R92)
and the messages of a graph send (19_graph_sync_estate_instructions.md R355). -/

namespace Sys2Proof

/-- What a packet asks of its destination. The spec gives packets a header (R29) and says what each stream
carries (R30); the body's bit layout is not given, so a body is held as its meaning. (Mark: DESIGN CHOICE, safe, log 12) -/
inductive BodyOp where
  | none | ld | st | amo | red | redf | ldv | stv | reclaim | verq | estate | sendMsg | copyChunk
  | graphOpen | graphObject | graphFinish | kill | killDone | firmware
  | cont | threadOver | preempt | claim | heartbeat | abdicate | manifest | chunk | bitmap | reply | replyFault | retry
deriving DecidableEq, Repr, Inhabited

/-- A packet body: the operation with its operands. `core` and `ctx` name the issuing core and context, `reg`
the register that awaits the reply, `sel` the sub-operation, `nb` the access width in bytes.
(Mark: DESIGN CHOICE, safe, log 12) -/
structure Body where
  op : BodyOp := .none
  va : W64 := 0
  val : W64 := 0
  cmp : W64 := 0
  nb : Nat := 0
  sel : Nat := 0
  core : Nat := 0
  ctx : Nat := 0
  reg : BitVec 5 := 0
  ctxid : W32 := 0
  pl : Nat := 0
  bytes : List Byte := []
  /-- the draws of a write through an alias window (11 R217): JOBSEED, the first counter value, LCORE -/
  seed : W64 := 0
  base : W64 := 0
  lcore : Nat := 0
deriving DecidableEq, Repr, Inhabited

/-- A fabric packet (R29): the header's fields and a body. (Mark: DESIGN CHOICE, safe, log 4; DESIGN CHOICE, safe, log 12) -/
structure Packet where
  src : BitVec 6 := 0
  dst : BitVec 6 := 0
  ten : BitVec 4 := 0
  stream : BitVec 3 := 0
  rly : Bool := false
  len : BitVec 6 := 1
  /-- bits [31:26], reserved -/
  rsv : BitVec 6 := 0
  seq : W32 := 0
  kind : Byte := 0
  /-- bits [127:72], kind-specific; bit 0 of this field is PENDING of an acknowledgement (R58) -/
  spec : BitVec 56 := 0
  body : Body := { }
deriving DecidableEq, Repr

/-- A flit of the mesh as a router sees it (R49, R51, R52): identifier, tenant, context, and its bytes; the input port that
it reaches, and the router and port whose buffer it leaves. Ports 0 to 3 lead from the neighbours, 4 from the cluster's
agents, 5 from a die bridge, 6 from the memory crossbar; port 7 is the way out, to the agent that the flit is for.
(Mark: DESIGN CHOICE, unsafe, log 129) -/
structure MeshFlit where
  id : BitVec 6
  ten : BitVec 4
  ctxid : W32
  bytes : List Byte
  port : Nat := 0
  came : Option (Nat × Nat) := none
deriving DecidableEq, Repr

/-- The reply to a split-phase load (R59): a value, or the cause of a fault. `here` asks the module to perform
the access itself, which is what a reply from inside the module does. (Mark: DESIGN CHOICE, safe, log 4) -/
inductive Reply where
  | here
  | value (v : W64)
  | cause (c : Byte)
deriving DecidableEq, Repr

/-- A launch that another module dispatched and whose MODMASK names this one (06 R101): the dispatching module, tenant,
CTXID, the record with the argument words in place and its VA, and the origin at which the agents of all named modules can
place it. (Mark: DESIGN CHOICE, unsafe, log 25) -/
structure LaunchShare where
  src : BitVec 6
  ten : BitVec 4
  ctxid : W32
  recVa : W64
  record : List Byte
  origin : BitVec 8
deriving DecidableEq, Repr

/-- The units a kill reaches (R62): the cores and router of a cluster, a Cleat, a die's send queues. -/
inductive KillUnit where
  | cluster (c : BitVec 8)
  | cleat (die : BitVec 2)
  | sendQueues (die : BitVec 2)
deriving DecidableEq, Repr

/-- Where a REGISTER_WRITE goes: BAR0 of the physical function, BAR0 or BAR2 of a virtual function (R65, R68),
or control space as service core `svc` or the monitor writes it (R80). -/
inductive RegSpace where
  | pf
  | vf0 (t : BitVec 4)
  | vf2 (t : BitVec 4)
  | control (core : Nat)
deriving DecidableEq, Repr

/-- A read of `size` bytes of a BAR by the host (04 R65 to R69, R76). -/
structure HostRead where
  space : RegSpace
  off : Nat
  size : Nat
deriving DecidableEq, Repr

/-- How a non-posted request of the host completes (04 R69). -/
inductive CompStatus where
  | successful | retry | unsupported
deriving DecidableEq, Repr

/-- The completion of a host request: its place, its status, and the bytes of a read. -/
structure Completion where
  space : RegSpace
  off : Nat
  status : CompStatus
  data : List Byte
deriving DecidableEq, Repr

/-- An error of the hardware, which the world outside the model causes (09 R189, R190, R192): the checker disagrees with the
instruction of the turn; a sum of a computation of the running MMA of a cluster comes out wrong by `delta`; bits of 8 bytes of
SRAM have flipped, two of them where `double`. -/
inductive Upset where
  | checker
  | sum (cluster : Nat) (pass elem : Nat) (delta : W64)
  | sram (key : Nat) (double : Bool)
deriving DecidableEq, Repr

/-- A claim to lead pod boot (R92): number, round, hash of the manifest, pod time; its signature and the
sender's certificate. -/
structure Claim where
  num : BitVec 6
  round : Nat
  mhash : List Byte
  time : W64
  sig : List Byte
  cert : List Byte
deriving DecidableEq, Repr

/-- Opening of a graph send (R355 step 1), as it arrives at the receiving module. -/
structure GraphOpen where
  src : BitVec 6
  ten : BitVec 4
  ctxid : W32
  desc : W64
  pl : Nat := 0
deriving DecidableEq, Repr

/-- One object of a graph send (R355 step 2): its visit index, offset in 16-byte units, word 0, its words with
strong pointers as visit index + 1, and the class of each word. An object of more than one packet (02 R29) comes in parts:
`first` is the number of a part's first word, and `rest` of its words are still to come. -/
structure GraphObject where
  src : BitVec 6
  ten : BitVec 4
  ctxid : W32
  desc : W64
  index : Nat
  offset : Nat
  word0 : W64
  words : List W64
  classes : List (BitVec 2)
  nullWeak : Bool
  pl : Nat := 0
  first : Nat := 0
  rest : Nat := 0
deriving DecidableEq, Repr

/-- End of a graph send (R355 step 3): how many objects were sent. -/
structure GraphFinish where
  src : BitVec 6
  ten : BitVec 4
  ctxid : W32
  desc : W64
  count : Nat
  pl : Nat := 0
deriving DecidableEq, Repr

end Sys2Proof
end

