-- ==== Sys2Proof/Config.lean ====
section
/-! DEFINITION. What the spec leaves to an implementation or to the part, and the free values: constants without a
body, so that no proof can see what they are. -/

namespace Sys2Proof

/-- The n-th value that the spec leaves open (log 6). (Mark: DESIGN CHOICE, safe, log 6) -/
opaque Config.freeValue : Nat → W64

/-- DINFO.STEP (04_host_interface.md R66): the silicon stepping, per part. (Mark: DESIGN CHOICE, safe, log 14) -/
opaque Config.stepping : Byte

/-- DINFO.FRAMES of a stack as HBM4E training sets it (04 R66). (Mark: DESIGN CHOICE, safe, log 13) -/
opaque Config.trainedFrames : Nat → Nat

/-- The hardware check value of a fault-queue token (07 R146), from its SEQ and tenant. (Mark: DESIGN CHOICE, safe, log 14) -/
opaque Config.tokenCheck : W32 → Nat → Nat

/-- The vendor key hash fused at manufacture (05 R88). (Mark: DESIGN CHOICE, safe, log 14) -/
opaque Config.vendorKeyHash : List Byte
/-- The four operator key hashes fused at deployment (05 R88). (Mark: DESIGN CHOICE, safe, log 14) -/
opaque Config.operatorKeyHashes : List (List Byte)
/-- The signature of the module identity key over a message (05 R85 QUOTE, R92). (Mark: DESIGN CHOICE, safe, log 14) -/
opaque Config.identitySign : List Byte → List Byte
/-- The identity certificate of this module, which the vendor key signs (05). (Mark: DESIGN CHOICE, safe, log 14) -/
opaque Config.identityCert : List Byte
/-- The modulus that a certificate carries, when the vendor key's signature on it verifies: the spec gives a
certificate no layout. (Mark: DESIGN CHOICE, safe, log 14) -/
opaque Config.certModulus : List Byte → Option Nat
/-- The bytes of a claim that its signature covers: the spec gives a claim no layout. (Mark: DESIGN CHOICE, safe, log 14) -/
opaque Config.claimBytes : Nat → Nat → List Byte → Nat → List Byte

/-- The monitor's table pool as the boot ROM sets it up (07 R139, 05 R85): frames of the firmware region.
(Mark: DESIGN CHOICE, safe, log 13) -/
opaque Config.tablePool : List Nat
/-- Root frame of the firmware table as boot builds it (07 R139). (Mark: DESIGN CHOICE, safe, log 13) -/
opaque Config.firmwareRoot : Nat
/-- First frame of the resident supervisor handler's segment (09 R185). (Mark: DESIGN CHOICE, safe, log 13) -/
opaque Config.handlerFrame : Nat
/-- LEN and MEAS of that segment. (Mark: DESIGN CHOICE, safe, log 13) -/
opaque Config.handlerLen : Nat
/-- MEAS of that segment. (Mark: DESIGN CHOICE, safe, log 13) -/
opaque Config.handlerMeas : List Byte
/-- The containers in the boot flash as a boot finds them (05 R90): 0 the monitor's, 1 the service cores' firmware; none
where the flash cannot be read. (Mark: DESIGN CHOICE, safe, log 13) -/
opaque Config.flash : Nat → Nat → Option (List Byte)
/-- The PLLs lock at a cold boot (01 R19). (Mark: DESIGN CHOICE, safe, log 13) -/
opaque Config.pllLocks : Nat → Bool
/-- A stack trains at a cold boot (01 R19, 04 R66). (Mark: DESIGN CHOICE, safe, log 13) -/
opaque Config.stackTrains : Nat → Nat → Bool
/-- The optics lock at a cold boot (01 R19). (Mark: DESIGN CHOICE, safe, log 13) -/
opaque Config.opticsLock : Nat → Bool
/-- What boot leaves in memory beside the segments that it loads (05 R90): the firmware table.
(Mark: DESIGN CHOICE, safe, log 13) -/
opaque Config.bootImage : List (Nat × Byte)
/-- Switch port to which the module is cabled (02 R38). (Mark: DESIGN CHOICE, safe, log 13) -/
opaque Config.port : BitVec 6
/-- Where the firmware of service core s, and the monitor (16), begin to execute (05 R90). (Mark: DESIGN CHOICE, safe, log 13) -/
opaque Config.firmwareEntry : Nat → W64

/-- The channel of a stack that holds an address (04 R83, MCK 0x08): the spec gives channels no addresses.
(Mark: DESIGN CHOICE, unsafe, log 126) -/
opaque Config.hbmChannel : Nat → Byte

/-- The 128 payload bytes of the control flit that opens a payload window: when it leaves, when the peer's last one arrived
(02 R23), and the running total of returned units (R33): the spec gives control flits no layout.
(Mark: DESIGN CHOICE, safe, log 12) -/
opaque Config.controlPayload : Nat → Option Nat → W32 → List Byte
/-- When a timing flit left, and when its sender received the last one of ours, in 2^-16 ns (02 R23).
(Mark: DESIGN CHOICE, safe, log 12) -/
opaque Config.timingStamps : List Byte → Option (Nat × Option Nat)
/-- The running total that a control flit carries (02 R33). (Mark: DESIGN CHOICE, safe, log 12) -/
opaque Config.allowanceReturn : List Byte → Option W32
/-- How far the servo moves the counter, in 2^-16 ns, on an offset that an exchange shows (02 R23, 01 R11).
(Mark: DESIGN CHOICE, safe, log 118) -/
opaque Config.servoStep : Int → Int
/-- The round trip of a spar in loopback, in clk, as measured at a time (02 R25). (Mark: DESIGN CHOICE, safe, log 118) -/
opaque Config.roundTrip : Nat → Nat → Nat
/-- The delay of a spar as its timing exchanges track its drift: the old delay, and the path delay that the exchange shows,
in 2^-16 ns (02 R25). (Mark: DESIGN CHOICE, safe, log 118) -/
opaque Config.driftedDelay : Nat → Int → Nat
/-- The bytes of a packet's body: the spec gives bodies no layout (02 R29). (Mark: DESIGN CHOICE, safe, log 12) -/
opaque Config.bodyBytes : Body → List Byte
/-- The body in a packet's bytes. (Mark: DESIGN CHOICE, safe, log 12) -/
opaque Config.bodyOf : List Byte → Body

end Sys2Proof
end

