-- ==== Sys2Proof/Machine/Tab.lean ====
section
/-! DEFINITION. Finite tables as plain data: a list of (key, value) pairs in rising key order, one pair a key, with
a default for the keys it does not list. Register files, cores, contexts and the other numbered parts of the state
are such tables. -/

namespace Sys2Proof.Machine

/-- A table: pairs in strictly rising key order. -/
abbrev Tab (α : Type) := List (Nat × α)

/-- The value at a key, or the default. -/
def Tab.get {α : Type} (t : Tab α) (d : α) (k : Nat) : α :=
  match t with
  | [] => d
  | (j, v) :: r => if k = j then v else Tab.get r d k

/-- The value at a key, if the table lists it. -/
def Tab.find {α : Type} (t : Tab α) (k : Nat) : Option α :=
  match t with
  | [] => none
  | (j, v) :: r => if k = j then some v else Tab.find r k

/-- Set the value at a key, keeping the key order. -/
def Tab.set {α : Type} (t : Tab α) (k : Nat) (v : α) : Tab α :=
  match t with
  | [] => [(k, v)]
  | (j, u) :: r =>
    if k < j then (k, v) :: (j, u) :: r
    else if k = j then (k, v) :: r
    else (j, u) :: Tab.set r k v

/-- Remove a key. -/
def Tab.drop {α : Type} (t : Tab α) (k : Nat) : Tab α :=
  match t with
  | [] => []
  | (j, u) :: r => if k = j then r else (j, u) :: Tab.drop r k

/-- Apply a function to every listed value. -/
def Tab.mapV {α β : Type} (t : Tab α) (f : Nat → α → β) : Tab β :=
  match t with
  | [] => []
  | (j, u) :: r => (j, f j u) :: Tab.mapV r f

/-- The keys are strictly rising and above `lo`. -/
def Tab.sortedAbove {α : Type} (lo : Nat) (t : Tab α) : Bool :=
  match t with
  | [] => true
  | (j, _) :: r => decide (lo ≤ j) && Tab.sortedAbove (j + 1) r

/-- `n` consecutive numbers from `a`. -/
def upTo (a n : Nat) : List Nat :=
  match n with
  | 0 => []
  | m + 1 => a :: upTo (a + 1) m

/-- The element at a position, or a default. -/
def nth {α : Type} (l : List α) (d : α) (i : Nat) : α :=
  match l, i with
  | [], _ => d
  | x :: _, 0 => x
  | _ :: r, j + 1 => nth r d j

/-- Replace the element at a position. -/
def setNth {α : Type} (l : List α) (i : Nat) (v : α) : List α :=
  match l, i with
  | [], _ => []
  | _ :: r, 0 => v :: r
  | x :: r, j + 1 => x :: setNth r j v

/-- Remove the element at a position. -/
def dropNth {α : Type} (l : List α) (i : Nat) : List α :=
  match l, i with
  | [], _ => []
  | _ :: r, 0 => r
  | x :: r, j + 1 => x :: dropNth r j

/-- The first element that satisfies a test, with its position. -/
def findAt {α : Type} (p : α → Bool) (l : List α) (i : Nat := 0) : Option (Nat × α) :=
  match l with
  | [] => none
  | x :: r => if p x then some (i, x) else findAt p r (i + 1)

/-- Little-endian bytes of a number (00_scope.md R3): `n` bytes, the least significant first. -/
def leBytes (n v : Nat) : List Byte :=
  match n with
  | 0 => []
  | m + 1 => BitVec.ofNat 8 v :: leBytes m (v / 256)

/-- The number that little-endian bytes hold. -/
def ofLeBytes (l : List Byte) : Nat :=
  match l with
  | [] => 0
  | b :: r => b.toNat + 256 * ofLeBytes r

/-- `n` bytes of a list from position `i`, missing ones read 0. -/
def sliceBytes (l : List Byte) (i n : Nat) : List Byte :=
  (upTo i n).map (nth l 0)

/-- The little-endian number in `n` bytes at position `i` of a record. -/
def recNat (l : List Byte) (i n : Nat) : Nat := ofLeBytes ((l.drop i).take n)

/-- Bits [lo+n-1 : lo] of a word, as a number. -/
def bitsAt {w : Nat} (v : BitVec w) (lo n : Nat) : Nat := v.toNat / 2 ^ lo % 2 ^ n

/-- Put the low `n` bits of `x` into bits [lo+n-1 : lo] of a word. -/
def putBits {w : Nat} (v : BitVec w) (lo n x : Nat) : BitVec w :=
  BitVec.ofNat w (v.toNat - bitsAt v lo n * 2 ^ lo + (x % 2 ^ n) * 2 ^ lo)

/-- Bit `i` of a word. -/
def bitOn {w : Nat} (v : BitVec w) (i : Nat) : Bool := v.getLsbD i

/-- 1 for true, 0 for false. -/
def b2n (b : Bool) : Nat := if b then 1 else 0

end Sys2Proof.Machine
end

