-- ==== Sys2Proof/Machine/Crypto.lean ====
section
/-! DEFINITION. The cryptographic functions that the spec names by their standards: SHA-256 (05 R87, R89), RSASSA-PSS
with MGF1 and SHA-256 under RSA-3072 (05 R88), and CRC-32C (02 R21; 17). Keys are constants without a body. -/

namespace Sys2Proof

namespace Machine

/-! ## SHA-256 -/

/-- The round constants. -/
def shaK : List W32 :=
  [0x428A2F98, 0x71374491, 0xB5C0FBCF, 0xE9B5DBA5, 0x3956C25B, 0x59F111F1, 0x923F82A4, 0xAB1C5ED5]
   ++ [0xD807AA98, 0x12835B01, 0x243185BE, 0x550C7DC3, 0x72BE5D74, 0x80DEB1FE, 0x9BDC06A7, 0xC19BF174]
   ++ [0xE49B69C1, 0xEFBE4786, 0x0FC19DC6, 0x240CA1CC, 0x2DE92C6F, 0x4A7484AA, 0x5CB0A9DC, 0x76F988DA]
   ++ [0x983E5152, 0xA831C66D, 0xB00327C8, 0xBF597FC7, 0xC6E00BF3, 0xD5A79147, 0x06CA6351, 0x14292967]
   ++ [0x27B70A85, 0x2E1B2138, 0x4D2C6DFC, 0x53380D13, 0x650A7354, 0x766A0ABB, 0x81C2C92E, 0x92722C85]
   ++ [0xA2BFE8A1, 0xA81A664B, 0xC24B8B70, 0xC76C51A3, 0xD192E819, 0xD6990624, 0xF40E3585, 0x106AA070]
   ++ [0x19A4C116, 0x1E376C08, 0x2748774C, 0x34B0BCB5, 0x391C0CB3, 0x4ED8AA4A, 0x5B9CCA4F, 0x682E6FF3]
   ++ [0x748F82EE, 0x78A5636F, 0x84C87814, 0x8CC70208, 0x90BEFFFA, 0xA4506CEB, 0xBEF9A3F7, 0xC67178F2]

/-- The initial hash value. -/
def shaInit : List W32 :=
  [0x6A09E667, 0xBB67AE85, 0x3C6EF372, 0xA54FF53A, 0x510E527F, 0x9B05688C, 0x1F83D9AB, 0x5BE0CD19]

/-- Rotate right. -/
def rotr (x : W32) (n : Nat) : W32 := x >>> n ||| x <<< (32 - n)

/-- Big-endian bytes of a word. -/
def be4 (w : W32) : List Byte := (leBytes 4 w.toNat).reverse
/-- A word from four big-endian bytes. -/
def ofBe4 (l : List Byte) : W32 := BitVec.ofNat 32 (ofLeBytes l.reverse)

/-- The message schedule, kept newest first: `n` more words. -/
def shaExtend (w : List W32) (n : Nat) : List W32 :=
  match n with
  | 0 => w
  | k + 1 =>
    let a := nth w 0 14
    let b := nth w 0 1
    let s0 := rotr a 7 ^^^ rotr a 18 ^^^ a >>> 3
    let s1 := rotr b 17 ^^^ rotr b 19 ^^^ b >>> 10
    shaExtend ((nth w 0 15 + s0 + nth w 0 6 + s1) :: w) k

/-- One round on the eight working words. -/
def shaRound (h : List W32) (kw : W32 × W32) : List W32 :=
  match h with
  | [a, b, c, d, e, f, g, i] =>
    let t1 := i + (rotr e 6 ^^^ rotr e 11 ^^^ rotr e 25) + ((e &&& f) ^^^ (~~~e &&& g)) + kw.1 + kw.2
    let t2 := (rotr a 2 ^^^ rotr a 13 ^^^ rotr a 22) + ((a &&& b) ^^^ (a &&& c) ^^^ (b &&& c))
    [t1 + t2, a, b, c, d + t1, e, f, g]
  | l => l

/-- Compress one block of 64 bytes. -/
def shaBlock (h : List W32) (block : List Byte) : List W32 :=
  let w0 := (upTo 0 16).map (fun i => ofBe4 (sliceBytes block (4 * i) 4))
  let w := (shaExtend w0.reverse 48).reverse
  let r := (shaK.zip w).foldl shaRound h
  (h.zip r).map (fun p => p.1 + p.2)

/-- Compress `n` blocks. -/
def shaBlocks (h : List W32) (l : List Byte) (n : Nat) : List W32 :=
  match n with
  | 0 => h
  | k + 1 => shaBlocks (shaBlock h (l.take 64)) (l.drop 64) k

/-- The padded message. -/
def shaPad (l : List Byte) : List Byte :=
  l ++ [0x80] ++ List.replicate ((119 - l.length % 64) % 64) 0 ++ (leBytes 8 (8 * l.length)).reverse

/-- SHA-256 of a byte string. -/
def sha256 (l : List Byte) : List Byte :=
  let p := shaPad l
  (shaBlocks shaInit p (p.length / 64)).flatMap be4

/-! ## RSASSA-PSS -/

/-- A number from a big-endian octet string. -/
def ofBe (l : List Byte) : Nat := ofLeBytes l.reverse
/-- `n` big-endian octets of a number. -/
def toBe (n v : Nat) : List Byte := (leBytes n v).reverse

/-- x to the power 2^n modulo m, by n squarings. -/
def sqN (m x n : Nat) : Nat :=
  match n with
  | 0 => x
  | k + 1 => sqN m (x * x % m) k

/-- The public operation with exponent 65,537. -/
def rsaPublic (m x : Nat) : Nat := sqN m (x % m) 16 * (x % m) % m

/-- MGF1 with SHA-256: `n` blocks of mask from counter `i`. -/
def mgf1 (seed : List Byte) (i n : Nat) : List Byte :=
  match n with
  | 0 => []
  | k + 1 => sha256 (seed ++ toBe 4 i) ++ mgf1 seed (i + 1) k

/-- EMSA-PSS verification of an encoded message of 384 octets for a 3,072-bit modulus: emBits is 3,071. -/
def pssVerify (msg em : List Byte) : Bool :=
  let masked := em.take 351
  let h := sliceBytes em 351 32
  let mask := (mgf1 h 0 11).take 351
  let db := (masked.zip mask).map (fun p => p.1 ^^^ p.2)
  let db0 := match db with
    | [] => []
    | b :: r => (b &&& 0x7F) :: r
  let salt := db0.drop 319
  decide (em.length = 384) && nth em 0 383 == 0xBC && nth em 0 0 &&& 0x80 == 0
    && (db0.take 318).all (fun b => b == 0) && nth db0 0 318 == 1
    && sha256 (List.replicate 8 0 ++ sha256 msg ++ salt) == h

/-- A signature of 384 octets verifies under a modulus of 384 octets. -/
def rsaVerify (modulus msg sig : List Byte) : Bool :=
  let m := ofBe modulus
  decide (2 ^ 3071 ≤ m) && decide (ofBe sig < m) && pssVerify msg (toBe 384 (rsaPublic m (ofBe sig)))

/-! ## CRC-32C -/

/-- Eight shifts of the reflected polynomial 0x82F63B78. -/
def crcBits (c : W32) (n : Nat) : W32 :=
  match n with
  | 0 => c
  | k + 1 => crcBits (if c.getLsbD 0 then c >>> 1 ^^^ 0x82F63B78 else c >>> 1) k

/-- The running CRC over bytes. -/
def crcRun (c : W32) (l : List Byte) : W32 :=
  match l with
  | [] => c
  | b :: r => crcRun (crcBits (c ^^^ b.setWidth 32) 8) r

/-- CRC-32C of a byte string. -/
def crc32c (l : List Byte) : W32 := ~~~(crcRun 0xFFFFFFFF l)

end Machine

end Sys2Proof
end

