-- ==== Sys2Proof/Syntax.lean ====
section
/-! DEFINITION. The instructions and events of the module: one constructor for every row of
spec/opcode_table.json. The first 189 are the encoded instruction forms (12_formats_assembly.md R234,
13_opcode_map.md R252); a register field is a `BitVec 5`, every other field has the width the format gives it.
The rest are the rows without an encoding, ILLEGAL_INSN_WORD first: steps of the hardware and of the outside world; each carries the
data that reaches the module from outside. -/

namespace Sys2Proof

inductive Instr where
  /-- ADD (R257): x[d] := x[a] + x[b]. -/
  | add (d : BitVec 5) (a : BitVec 5) (b : BitVec 5)
  /-- SUB (R257): x[d] := x[a] - x[b]. -/
  | sub (d : BitVec 5) (a : BitVec 5) (b : BitVec 5)
  /-- MUL (R257): x[d] := low 64 bits of the product. -/
  | mul (d : BitVec 5) (a : BitVec 5) (b : BitVec 5)
  /-- MULH (R257): x[d] := high 64 bits of the signed product. -/
  | mulh (d : BitVec 5) (a : BitVec 5) (b : BitVec 5)
  /-- MULHN (R257): x[d] := high 64 bits of the natural product. -/
  | mulhn (d : BitVec 5) (a : BitVec 5) (b : BitVec 5)
  /-- DIV (R257): Signed division truncated toward zero, defined for a zero divisor and for overflow. -/
  | div (d : BitVec 5) (a : BitVec 5) (b : BitVec 5)
  /-- DIVN (R257): Natural division, all ones for a zero divisor. -/
  | divn (d : BitVec 5) (a : BitVec 5) (b : BitVec 5)
  /-- REM (R257): Signed remainder with the sign of x[a]. -/
  | rem (d : BitVec 5) (a : BitVec 5) (b : BitVec 5)
  /-- REMN (R257): Natural remainder. -/
  | remn (d : BitVec 5) (a : BitVec 5) (b : BitVec 5)
  /-- AND (R257): Bitwise AND. -/
  | and (d : BitVec 5) (a : BitVec 5) (b : BitVec 5)
  /-- OR (R257): Bitwise OR. -/
  | or (d : BitVec 5) (a : BitVec 5) (b : BitVec 5)
  /-- XOR (R257): Bitwise XOR. -/
  | xor (d : BitVec 5) (a : BitVec 5) (b : BitVec 5)
  /-- ANDN (R257): x[a] AND NOT x[b]. -/
  | andn (d : BitVec 5) (a : BitVec 5) (b : BitVec 5)
  /-- SHL (R257): Shift left by x[b][5:0]. -/
  | shl (d : BitVec 5) (a : BitVec 5) (b : BitVec 5)
  /-- SHR (R257): Logical shift right. -/
  | shr (d : BitVec 5) (a : BitVec 5) (b : BitVec 5)
  /-- SHRA (R257): Arithmetic shift right. -/
  | shra (d : BitVec 5) (a : BitVec 5) (b : BitVec 5)
  /-- ROTL (R257): Rotate left. -/
  | rotl (d : BitVec 5) (a : BitVec 5) (b : BitVec 5)
  /-- MIN (R257): Signed minimum. -/
  | min (d : BitVec 5) (a : BitVec 5) (b : BitVec 5)
  /-- MAX (R257): Signed maximum. -/
  | max (d : BitVec 5) (a : BitVec 5) (b : BitVec 5)
  /-- MINN (R257): Natural minimum. -/
  | minn (d : BitVec 5) (a : BitVec 5) (b : BitVec 5)
  /-- MAXN (R257): Natural maximum. -/
  | maxn (d : BitVec 5) (a : BitVec 5) (b : BitVec 5)
  /-- SLT (R257): Signed set-less-than. -/
  | slt (d : BitVec 5) (a : BitVec 5) (b : BitVec 5)
  /-- SLTN (R257): Natural set-less-than. -/
  | sltn (d : BitVec 5) (a : BitVec 5) (b : BitVec 5)
  /-- SEL (R257): x[d] := x[c] ≠ 0 ? x[a] : x[b]. -/
  | sel (d : BitVec 5) (a : BitVec 5) (b : BitVec 5) (c : BitVec 5)
  /-- CLZ (R257): Count leading zeros. -/
  | clz (d : BitVec 5) (a : BitVec 5)
  /-- CTZ (R257): Count trailing zeros. -/
  | ctz (d : BitVec 5) (a : BitVec 5)
  /-- POPC (R257): Count one bits. -/
  | popc (d : BitVec 5) (a : BitVec 5)
  /-- EXT (R257): Extract a bit field of length len at position x[b][5:0]. -/
  | ext (d : BitVec 5) (a : BitVec 5) (b : BitVec 5) (l : BitVec 6)
  /-- INS (R257): Insert the low bits of x[a] into x[d] at position x[b][5:0]. -/
  | ins (d : BitVec 5) (a : BitVec 5) (b : BitVec 5) (l : BitVec 6)
  /-- ADDS (R257): Saturating signed add. -/
  | adds (d : BitVec 5) (a : BitVec 5) (b : BitVec 5)
  /-- ADDI (R258): Add a sign-extended immediate. -/
  | addi (d : BitVec 5) (a : BitVec 5) (i : BitVec 16)
  /-- ANDI (R258): AND with a zero-extended immediate. -/
  | andi (d : BitVec 5) (a : BitVec 5) (i : BitVec 16)
  /-- ORI (R258): OR with a zero-extended immediate. -/
  | ori (d : BitVec 5) (a : BitVec 5) (i : BitVec 16)
  /-- XORI (R258): XOR with a zero-extended immediate. -/
  | xori (d : BitVec 5) (a : BitVec 5) (i : BitVec 16)
  /-- SHI (R258): Shift or rotate by an immediate count, of the kind selected by imm16[7:6]. -/
  | shi (d : BitVec 5) (a : BitVec 5) (k : BitVec 2) (s : BitVec 6)
  /-- SLTI (R258): Signed compare with an immediate. -/
  | slti (d : BitVec 5) (a : BitVec 5) (i : BitVec 16)
  /-- SLTNI (R258): Natural compare with a sign-extended immediate. -/
  | sltni (d : BitVec 5) (a : BitVec 5) (i : BitVec 16)
  /-- LIT (R237): MOVW with keep = 0: place imm16 in a lane and clear the other lanes. -/
  | lit (d : BitVec 5) (l : BitVec 2) (i : BitVec 16)
  /-- LITK (R237): MOVW with keep = 1: replace one 16-bit lane and keep the others. -/
  | litk (d : BitVec 5) (l : BitVec 2) (i : BitVec 16)
  /-- FADD (R259): Floating-point add, FP32 or FP64. -/
  | fadd (d : BitVec 5) (a : BitVec 5) (b : BitVec 5) (r : BitVec 3) (p : BitVec 1)
  /-- FSUB (R259): Floating-point subtract. -/
  | fsub (d : BitVec 5) (a : BitVec 5) (b : BitVec 5) (r : BitVec 3) (p : BitVec 1)
  /-- FMUL (R259): Floating-point multiply. -/
  | fmul (d : BitVec 5) (a : BitVec 5) (b : BitVec 5) (r : BitVec 3) (p : BitVec 1)
  /-- FDIV (R259): Floating-point divide. -/
  | fdiv (d : BitVec 5) (a : BitVec 5) (b : BitVec 5) (r : BitVec 3) (p : BitVec 1)
  /-- FSQRT (R259): Floating-point square root. -/
  | fsqrt (d : BitVec 5) (a : BitVec 5) (r : BitVec 3) (p : BitVec 1)
  /-- FFMA (R259): Fused multiply-add with x[d] as the addend. -/
  | ffma (d : BitVec 5) (a : BitVec 5) (b : BitVec 5) (r : BitVec 3) (p : BitVec 1)
  /-- FMIN (R259): Floating-point minimum. -/
  | fmin (d : BitVec 5) (a : BitVec 5) (b : BitVec 5) (p : BitVec 1)
  /-- FMAX (R259): Floating-point maximum. -/
  | fmax (d : BitVec 5) (a : BitVec 5) (b : BitVec 5) (p : BitVec 1)
  /-- FCMP (R259): Floating-point compare writing 1 or 0. -/
  | fcmp (d : BitVec 5) (a : BitVec 5) (b : BitVec 5) (c : BitVec 2) (p : BitVec 1)
  /-- FCVT (R261): Convert between f32, f64, i64 and n64. -/
  | fcvt (d : BitVec 5) (a : BitVec 5) (t : BitVec 2) (s : BitVec 2) (r : BitVec 3)
  /-- LD (R262): Load 1-8 bytes, zero- or sign-extended. -/
  | ld (d : BitVec 5) (b : BitVec 5) (z : BitVec 3) (s : BitVec 1) (o : BitVec 12)
  /-- ST (R262): Store 1-8 bytes through the store queue. -/
  | st (d : BitVec 5) (b : BitVec 5) (z : BitVec 3) (o : BitVec 12)
  /-- LDV (R264): Read a named version of a versioned word, waiting while it lies ahead. -/
  | ldv (d : BitVec 5) (a : BitVec 5) (b : BitVec 5)
  /-- STV (R264): Create the next version of a versioned word. -/
  | stv (d : BitVec 5) (a : BitVec 5) (b : BitVec 5)
  /-- RECLAIM (R264): Raise the FLOOR of a versioned word. -/
  | reclaim (a : BitVec 5) (b : BitVec 5)
  /-- VERQ (R264): Read FLOOR and CUR of a versioned word. -/
  | verq (d : BitVec 5) (a : BitVec 5)
  /-- BEQ (R265): Branch if equal. -/
  | beq (a : BitVec 5) (b : BitVec 5) (o : BitVec 16)
  /-- BNE (R265): Branch if not equal. -/
  | bne (a : BitVec 5) (b : BitVec 5) (o : BitVec 16)
  /-- BLT (R265): Branch if signed less than. -/
  | blt (a : BitVec 5) (b : BitVec 5) (o : BitVec 16)
  /-- BGE (R265): Branch if signed greater or equal. -/
  | bge (a : BitVec 5) (b : BitVec 5) (o : BitVec 16)
  /-- BLTN (R265): Branch if natural less than. -/
  | bltn (a : BitVec 5) (b : BitVec 5) (o : BitVec 16)
  /-- BGEN (R265): Branch if natural greater or equal. -/
  | bgen (a : BitVec 5) (b : BitVec 5) (o : BitVec 16)
  /-- JAL (R266): Jump and link, PC-relative. -/
  | jal (d : BitVec 5) (o : BitVec 21)
  /-- JALR (R266): Jump to x[a] + imm and link. -/
  | jalr (d : BitVec 5) (a : BitVec 5) (i : BitVec 16)
  /-- TRAP (R267): Raise TRAP_INSN with the immediate in TVAL. -/
  | trap (i : BitVec 15)
  /-- TRET (R175): Return from a trap handler, checking TSTATUS. -/
  | tret
  /-- UIRET (R182): Pop the user-interrupt entry and return to UIADDR. -/
  | uiret
  /-- MFS (R268): Read a system register. -/
  | mfs (d : BitVec 5) (n : BitVec 10)
  /-- MTS (R268): Write a system register under its field and privilege rules. -/
  | mts (s : BitVec 5) (n : BitVec 10)
  /-- WFI (R272): Suspend the context until a wake condition holds. -/
  | wfi
  /-- HALT (R273): End the context after its outstanding requests are answered. -/
  | halt
  /-- YIELD (R274): Pass the next issue turn to another live context. -/
  | yield
  /-- RDCTR (R275): Read a virtual counter. -/
  | rdctr (d : BitVec 5) (c : BitVec 3)
  /-- START (R276): Start a helper context. -/
  | start (d : BitVec 5) (a : BitVec 5) (b : BitVec 5)
  /-- JOINH (R277): Wait for a helper to halt. -/
  | joinh (d : BitVec 5) (a : BitVec 5)
  /-- CONT (R278): Post a continuation record to its home cluster. -/
  | cont (a : BitVec 5)
  /-- LAUNCH (R279): Submit a launch record from device code. -/
  | launch (d : BitVec 5) (a : BitVec 5)
  /-- AMO (R364): Atomic read-modify-write (swap, add, logic, min/max, cas, fadd) returning the old value. -/
  | amo (d : BitVec 5) (a : BitVec 5) (b : BitVec 5) (w : BitVec 1) (o : BitVec 4)
  /-- AMO_LOCK (R373): Acquire a Cleat lock, waiting behind other holders. -/
  | amoLock (d : BitVec 5) (a : BitVec 5) (b : BitVec 5)
  /-- AMO_UNLOCK (R373): Release a Cleat lock held by the holder group. -/
  | amoUnlock (d : BitVec 5) (a : BitVec 5) (b : BitVec 5)
  /-- AMO_TRYLOCK (R373): Acquire a Cleat lock without waiting. -/
  | amoTrylock (d : BitVec 5) (a : BitVec 5) (b : BitVec 5)
  /-- AMOD (R365): Atomic whose old value is stored at the reply address x[d]. -/
  | amod (d : BitVec 5) (a : BitVec 5) (b : BitVec 5) (w : BitVec 1) (o : BitVec 4)
  /-- RED (R366): Posted atomic reduction with no result. -/
  | red (a : BitVec 5) (b : BitVec 5) (w : BitVec 1) (o : BitVec 4)
  /-- REDF (R367): Contribute to a deterministic reduction cell and receive its result. -/
  | redf (d : BitVec 5) (a : BitVec 5) (b : BitVec 5) (t : BitVec 2) (o : BitVec 2)
  /-- ARRIVE (R368): Arrive at barrier tree t. -/
  | arrive (t : BitVec 4)
  /-- WAITB (R368): Wait for barrier tree t's phase to complete. -/
  | waitb (t : BitVec 4)
  /-- BMASK (R368): Set the core's barrier membership mask. -/
  | bmask (a : BitVec 5)
  /-- FENCEL (R161): Light half of the asymmetric fence pair. -/
  | fencel
  /-- FENCEH (R161): Heavy half of the asymmetric fence pair, serialising the scope's cores. -/
  | fenceh (s : BitVec 3)
  /-- FENCE (R160): Perform earlier operations at the named scope before any later one begins. -/
  | fence (s : BitVec 3)
  /-- ECADD (R370): Add to an event counter. -/
  | ecadd (d : BitVec 5) (a : BitVec 5) (b : BitVec 5)
  /-- ECWAIT (R370): Wait until an event counter reaches a threshold. -/
  | ecwait (d : BitVec 5) (a : BitVec 5) (b : BitVec 5)
  /-- ECTRIG (R370): Arm an event-counter trigger. -/
  | ectrig (d : BitVec 5) (a : BitVec 5) (b : BitVec 5)
  /-- HOLD (R374): Hold an object root, naming an heir. -/
  | hold (d : BitVec 5) (a : BitVec 5) (b : BitVec 5)
  /-- RELQ (R375): Give up a holding. -/
  | relq (d : BitVec 5) (a : BitVec 5) (k : BitVec 2)
  /-- HEIR (R375): Rename the heir of a holding. -/
  | heir (d : BitVec 5) (a : BitVec 5) (b : BitVec 5) (k : BitVec 2)
  /-- PROMISE (R374): Promise the next version of a versioned word. -/
  | promise (d : BitVec 5) (a : BitVec 5) (b : BitVec 5)
  /-- ESTQ (R376): Read an estate entry. -/
  | estq (d : BitVec 5) (a : BitVec 5) (b : BitVec 5) (k : BitVec 2)
  /-- ESTQ_POP (R376): Pop the holder group's oldest arrival. -/
  | estqPop (d : BitVec 5) (b : BitVec 5)
  /-- ESTQ_WAIT (R376): Wait for an arrival, then pop it. -/
  | estqWait (d : BitVec 5) (b : BitVec 5)
  /-- ORPHCL (R377): Free an orphaned lock. -/
  | orphcl (d : BitVec 5) (a : BitVec 5)
  /-- SEND (R280): Copy the build area into the injection queue toward a destination core. -/
  | send (d : BitVec 5) (a : BitVec 5)
  /-- RECV (R281): Describe, wait for or pop the head received message. -/
  | recv (d : BitVec 5) (p : BitVec 1) (w : BitVec 1)
  /-- QSTAT (R282): Read MQSTAT. -/
  | qstat (d : BitVec 5)
  /-- GCOPY (R354): Copy an object graph into an arena. -/
  | gcopy (d : BitVec 5) (a : BitVec 5) (b : BitVec 5) (v : BitVec 1)
  /-- GSEND (R355): Send an object graph to an arena on another module. -/
  | gsend (d : BitVec 5) (a : BitVec 5) (b : BitVec 5) (v : BitVec 1)
  /-- GCMP (R356): Compare two object graphs in lockstep. -/
  | gcmp (d : BitVec 5) (a : BitVec 5) (b : BitVec 5) (v : BitVec 1)
  /-- GHASH (R357): SHA-256 of a graph's canonical serialisation. -/
  | ghash (d : BitVec 5) (a : BitVec 5) (b : BitVec 5) (v : BitVec 1)
  /-- GFREE (R358): Free an object graph onto the arena's free chains. -/
  | gfree (d : BitVec 5) (a : BitVec 5) (b : BitVec 5)
  /-- OALLOC (R359): Allocate one object from an arena. -/
  | oalloc (d : BitVec 5) (a : BitVec 5) (b : BitVec 5)
  /-- OSTP (R360): Store an object word and increment its version atomically. -/
  | ostp (d : BitVec 5) (a : BitVec 5) (b : BitVec 5)
  /-- GSTAT (R361): Read an object's FLAGS and OVER atomically. -/
  | gstat (d : BitVec 5) (a : BitVec 5)
  /-- HDEF (R320): Define a ring handle and flip its tiles to the producer side. -/
  | hdef (h : BitVec 4) (a : BitVec 5)
  /-- HWAIT (R319): Wait until a ring holds n filled slots. -/
  | hwait (h : BitVec 4) (n : BitVec 5)
  /-- HWAIT_P (R319): Wait until a ring has n empty slots. -/
  | hwaitP (h : BitVec 4) (n : BitVec 5)
  /-- HWAIT_T (R319): Wait until n tiles are all T. -/
  | hwaitT (n : BitVec 5) (a : BitVec 5)
  /-- ADVP (R321): Producer advance: flip n slots to the consumer. -/
  | advp (h : BitVec 4) (n : BitVec 5)
  /-- ADVC (R321): Consumer advance: flip n slots back to the producer. -/
  | advc (h : BitVec 4) (n : BitVec 5)
  /-- ADVC_L (R322): Give n landing tiles back to the engine. -/
  | advcL (n : BitVec 5) (a : BitVec 5)
  /-- HSTAT (R319): Read a ring descriptor. -/
  | hstat (h : BitVec 4) (a : BitVec 5)
  /-- BCOPY (R334): Bulk copy under a copy descriptor. -/
  | bcopy (d : BitVec 5) (a : BitVec 5)
  /-- BCAST (R336): Multicast a source to masked cores. -/
  | bcast (d : BitVec 5) (a : BitVec 5)
  /-- DEAL (R336): Deal source blocks across cores. -/
  | deal (d : BitVec 5) (a : BitVec 5)
  /-- CSTAT (R339): Query, wait on or abandon a copy command. -/
  | cstat (d : BitVec 5) (a : BitVec 5) (s : BitVec 3)
  /-- MMA (R327): 64x64 matrix multiply-accumulate of a ring slot and a weight slot. -/
  | mma (h : BitVec 4) (w : BitVec 4) (s : BitVec 6) (t : BitVec 3) (z : BitVec 1) (v : BitVec 1)
  /-- MCLR (R329): Clear the active accumulator bank. -/
  | mclr
  /-- MDRAIN (R331): Convert accumulator rows into landing tiles or the accumulator queue. -/
  | mdrain (a : BitVec 5) (q : BitVec 1) (t : BitVec 3) (u : BitVec 1) (r : BitVec 3)
  /-- MMAP (R329): Set the bank's row-to-core map. -/
  | mmap (a : BitVec 5)
  /-- WBLOAD (R329): Load a weight stream into a weight-buffer slot. -/
  | wbload (a : BitVec 5) (b : BitVec 5)
  /-- MSWAP (R329): Switch the launch's active accumulator bank. -/
  | mswap
  /-- MPERT (R191): Inject a perturbation into the next MMA's first computation. -/
  | mpert (a : BitVec 5) (b : BitVec 5)
  /-- MCHK (R190): Set the MMA check interval and reset the MMA count. -/
  | mchk (a : BitVec 5)
  /-- MSTAT (R330): Read the engine state or a slot entry once the matrix queue is empty. -/
  | mstat (a : BitVec 5) (d : BitVec 5)
  /-- REPLAY (R284): Retranslate or fail the accesses parked on a token's page. -/
  | replay (d : BitVec 5) (a : BitVec 5) (m : BitVec 1)
  /-- TLBINV (R285): Invalidate a tenant's TLB and instruction-cache entries for a range. -/
  | tlbinv (a : BitVec 5) (b : BitVec 5)
  /-- KILL (R286): Start the kill of a tenant's CTXID. -/
  | kill (d : BitVec 5) (a : BitVec 5) (b : BitVec 5)
  /-- FQPOP (R287): Pop a fault-queue entry atomically. -/
  | fqpop (d : BitVec 5) (a : BitVec 5) (b : BitVec 5)
  /-- MONCALL (R288): Place a monitor call in ring 3 and wait for DONE. -/
  | moncall (d : BitVec 5) (a : BitVec 5)
  /-- VADD_F (R300): Vector float add. -/
  | vaddF (t : BitVec 3) (d : BitVec 5) (a : BitVec 5) (b : BitVec 5) (x : BitVec 4)
  /-- VSUB_F (R300): Vector float subtract. -/
  | vsubF (t : BitVec 3) (d : BitVec 5) (a : BitVec 5) (b : BitVec 5) (x : BitVec 4)
  /-- VMUL_F (R300): Vector float multiply. -/
  | vmulF (t : BitVec 3) (d : BitVec 5) (a : BitVec 5) (b : BitVec 5) (x : BitVec 4)
  /-- VFMA (R300): Vector fused multiply-add. -/
  | vfma (t : BitVec 3) (d : BitVec 5) (a : BitVec 5) (b : BitVec 5) (x : BitVec 4)
  /-- VMIN_F (R300): Vector float minimum. -/
  | vminF (t : BitVec 3) (d : BitVec 5) (a : BitVec 5) (b : BitVec 5) (x : BitVec 4)
  /-- VMAX_F (R300): Vector float maximum. -/
  | vmaxF (t : BitVec 3) (d : BitVec 5) (a : BitVec 5) (b : BitVec 5) (x : BitVec 4)
  /-- VDIV (R300): Vector float divide. -/
  | vdiv (t : BitVec 3) (d : BitVec 5) (a : BitVec 5) (b : BitVec 5) (x : BitVec 4)
  /-- VSQRT (R300): Vector float square root. -/
  | vsqrt (t : BitVec 3) (d : BitVec 5) (a : BitVec 5) (x : BitVec 4)
  /-- VABS_F (R300): Vector float absolute value. -/
  | vabsF (t : BitVec 3) (d : BitVec 5) (a : BitVec 5) (x : BitVec 4)
  /-- VADD_I (R301): Vector integer add. -/
  | vaddI (t : BitVec 3) (d : BitVec 5) (a : BitVec 5) (b : BitVec 5) (x : BitVec 4)
  /-- VSUB_I (R301): Vector integer subtract. -/
  | vsubI (t : BitVec 3) (d : BitVec 5) (a : BitVec 5) (b : BitVec 5) (x : BitVec 4)
  /-- VMUL_I (R301): Vector integer multiply. -/
  | vmulI (t : BitVec 3) (d : BitVec 5) (a : BitVec 5) (b : BitVec 5) (x : BitVec 4)
  /-- VMULH (R301): Vector integer high multiply. -/
  | vmulh (t : BitVec 3) (d : BitVec 5) (a : BitVec 5) (b : BitVec 5) (x : BitVec 4)
  /-- VMIN_I (R301): Vector integer minimum. -/
  | vminI (t : BitVec 3) (d : BitVec 5) (a : BitVec 5) (b : BitVec 5) (x : BitVec 4)
  /-- VMAX_I (R301): Vector integer maximum. -/
  | vmaxI (t : BitVec 3) (d : BitVec 5) (a : BitVec 5) (b : BitVec 5) (x : BitVec 4)
  /-- VABS_I (R301): Vector integer absolute value. -/
  | vabsI (t : BitVec 3) (d : BitVec 5) (a : BitVec 5) (x : BitVec 4)
  /-- VAND (R302): Vector bitwise AND. -/
  | vand (t : BitVec 3) (d : BitVec 5) (a : BitVec 5) (b : BitVec 5) (x : BitVec 4)
  /-- VOR (R302): Vector bitwise OR. -/
  | vor (t : BitVec 3) (d : BitVec 5) (a : BitVec 5) (b : BitVec 5) (x : BitVec 4)
  /-- VXOR (R302): Vector bitwise XOR. -/
  | vxor (t : BitVec 3) (d : BitVec 5) (a : BitVec 5) (b : BitVec 5) (x : BitVec 4)
  /-- VSHL (R302): Vector shift left. -/
  | vshl (t : BitVec 3) (d : BitVec 5) (a : BitVec 5) (b : BitVec 5) (x : BitVec 4)
  /-- VSHR (R302): Vector logical shift right. -/
  | vshr (t : BitVec 3) (d : BitVec 5) (a : BitVec 5) (b : BitVec 5) (x : BitVec 4)
  /-- VSHRA (R302): Vector arithmetic shift right. -/
  | vshra (t : BitVec 3) (d : BitVec 5) (a : BitVec 5) (b : BitVec 5) (x : BitVec 4)
  /-- VCMPEQ (R303): Vector compare equal into a mask. -/
  | vcmpeq (t : BitVec 3) (c : BitVec 1) (k : BitVec 3) (a : BitVec 5) (b : BitVec 5) (x : BitVec 4)
  /-- VCMPNE (R303): Vector compare not equal into a mask. -/
  | vcmpne (t : BitVec 3) (c : BitVec 1) (k : BitVec 3) (a : BitVec 5) (b : BitVec 5) (x : BitVec 4)
  /-- VCMPLT (R303): Vector compare less than into a mask. -/
  | vcmplt (t : BitVec 3) (c : BitVec 1) (k : BitVec 3) (a : BitVec 5) (b : BitVec 5) (x : BitVec 4)
  /-- VCMPLE (R303): Vector compare less or equal into a mask. -/
  | vcmple (t : BitVec 3) (c : BitVec 1) (k : BitVec 3) (a : BitVec 5) (b : BitVec 5) (x : BitVec 4)
  /-- VSEL (R304): Vector select under a mask. -/
  | vsel (t : BitVec 3) (d : BitVec 5) (a : BitVec 5) (b : BitVec 5) (x : BitVec 4)
  /-- KAND (R304): Mask AND. -/
  | kand (d : BitVec 3) (a : BitVec 3) (b : BitVec 3) (x : BitVec 4)
  /-- KOR (R304): Mask OR. -/
  | kor (d : BitVec 3) (a : BitVec 3) (b : BitVec 3) (x : BitVec 4)
  /-- KXOR (R304): Mask XOR. -/
  | kxor (d : BitVec 3) (a : BitVec 3) (b : BitVec 3) (x : BitVec 4)
  /-- KNOT (R304): Mask NOT. -/
  | knot (d : BitVec 3) (a : BitVec 3) (x : BitVec 4)
  /-- KPOPC (R304): Count set mask bits into an x register. -/
  | kpopc (d : BitVec 5) (a : BitVec 3) (x : BitVec 4)
  /-- VLD (R305): Contiguous vector load. -/
  | vld (t : BitVec 3) (d : BitVec 5) (x : BitVec 4)
  /-- VST (R305): Contiguous vector store. -/
  | vst (t : BitVec 3) (d : BitVec 5) (x : BitVec 4)
  /-- VLDS (R305): Strided vector load. -/
  | vlds (t : BitVec 3) (d : BitVec 5) (x : BitVec 4)
  /-- VSTS (R305): Strided vector store. -/
  | vsts (t : BitVec 3) (d : BitVec 5) (x : BitVec 4)
  /-- VGATH (R305): Vector gather. -/
  | vgath (t : BitVec 3) (d : BitVec 5) (b : BitVec 5) (x : BitVec 4)
  /-- VSCAT (R305): Vector scatter. -/
  | vscat (t : BitVec 3) (d : BitVec 5) (b : BitVec 5) (x : BitVec 4)
  /-- VBCAST (R308): Broadcast a scalar into elements. -/
  | vbcast (t : BitVec 3) (d : BitVec 5) (x : BitVec 4)
  /-- VPERM (R308): Permute elements by an index vector. -/
  | vperm (t : BitVec 3) (d : BitVec 5) (a : BitVec 5) (b : BitVec 5) (x : BitVec 4)
  /-- VSLIDE (R308): Slide elements by a scalar amount. -/
  | vslide (t : BitVec 3) (d : BitVec 5) (a : BitVec 5) (x : BitVec 4)
  /-- VRED (R309): Pairwise-tree reduction into element 0. -/
  | vred (t : BitVec 3) (d : BitVec 5) (a : BitVec 5) (c : BitVec 1) (o : BitVec 2) (x : BitVec 4)
  /-- VMOVX (R310): Move one element into an x register. -/
  | vmovx (t : BitVec 3) (d : BitVec 5) (a : BitVec 5) (x : BitVec 4)
  /-- VIDX (R308): Write the element index into each element. -/
  | vidx (t : BitVec 3) (d : BitVec 5) (x : BitVec 4)
  /-- VCVT (R311): Element-wise type conversion. -/
  | vcvt (t : BitVec 3) (d : BitVec 5) (a : BitVec 5) (j : BitVec 1) (i : BitVec 1) (s : BitVec 3) (x : BitVec 4)
  /-- VQNT (R312): Quantise f32 elements into a block-scaled format. -/
  | vqnt (t : BitVec 3) (d : BitVec 5) (a : BitVec 5) (b : BitVec 5) (x : BitVec 4)
  /-- VDQNT (R313): Dequantise a block-scaled format to f32. -/
  | vdqnt (t : BitVec 3) (d : BitVec 5) (a : BitVec 5) (b : BitVec 5) (x : BitVec 4)
  /-- VSFU (R314): Special function per element. -/
  | vsfu (t : BitVec 3) (d : BitVec 5) (a : BitVec 5) (f : BitVec 4) (x : BitVec 4)
  /-- VCLAIM (R315): Request a vector lane grant. -/
  | vclaim (d : BitVec 5) (x : BitVec 4)
  /-- VFENCE (R316): Wait until every earlier vector command of the core has completed. -/
  | vfence (x : BitVec 4)
  /-- VSTAT (R315): Read the vector queue status. -/
  | vstat (d : BitVec 5) (x : BitVec 4)
  /-- VPOPQ (R317): Pop one row from the octet's accumulator queue. -/
  | vpopq (d : BitVec 5) (x : BitVec 4)
  /-- ILLEGAL_INSN_WORD (R233): A fetched word that decodes as no instruction (major 0x00, 0x28-0x3F, unassigned op, illegal type or field, non-zero reserved field) traps ILLEGAL_INSN precisely with TVAL = the word. -/
  | illegalInsnWord (w : BitVec 32)
  /-- COLD_RESET (R19): Power is applied; the PLLs lock, the boot ROM runs, HBM trains, the optics lock, pod boot proceeds, and every register takes its reset value. -/
  | coldReset
  /-- MODULE_RESET (R19): A physical-function reset acts as a cold reset without removing power, and pod time restarts from 0. -/
  | moduleReset
  /-- TENANT_RESET (R19): A function-level reset of one virtual function kills the tenant's contexts, conveys its estates and resets its registers; other tenants are unaffected. -/
  | tenantReset (t : BitVec 4)
  /-- POWER_REMOVAL (R13): Removal of power puts the module in A5 (off). -/
  | powerRemoval
  /-- CLUSTER_CLOCK_GATE (R13): After 64 clk with no live context and no engine command in flight, a cluster enters A1. -/
  | clusterClockGate (cluster : BitVec 8)
  /-- A1_EXIT (R13): A clock-gated cluster that receives work returns to A0 within 0.5 µs. -/
  | a1Exit (cluster : BitVec 8)
  /-- SLEEP_ENTRY (R16): Once every cluster has dwelt in A1 for the chosen state's exit latency with nothing pending, the module enters the deepest qualifying state of A2-A4. -/
  | sleepEntry
  /-- WAKE_EXIT_COMPLETE (R17): After a wake event, the module completes its return to A0 within the exit latency of the state it was in or entering. -/
  | wakeExitComplete
  /-- POWER_LIMITER_INTERVAL (R12): At each 10 µs control interval, the limiter inserts idle clk into matrix issue to hold power under PLIM, and sets PSTATE.LIM accordingly. -/
  | powerLimiterInterval (watts : Nat)
  /-- DLTOL_WRITE (R16): A write of the device-wide latency tolerance takes effect at the next selection, and is a wake event if it lowers E below the current state's exit latency. -/
  | dltolWrite (v : BitVec 32)
  /-- TLTOL_WRITE (R16): A write of a tenant's latency tolerance takes effect at the next selection, and is a wake event if it lowers E below the current state's exit latency. -/
  | tltolWrite (t : BitVec 4) (v : BitVec 32)
  /-- REGISTER_WRITE (R6): A write to any register without a row of its own sets its fields by their Access codes, discarding reserved bits. -/
  | registerWrite (space : RegSpace) (off : Nat) (size : Nat) (v : BitVec 64)
  /-- TACK_BOUNDARY (R26): At each 4,096 ns tack boundary, the switches reconfigure, the transmitters train, the timing flits start and waiting packets are assigned afresh. -/
  | tackBoundary
  /-- FLIT_RECEIVE (R22): A receiver checks a flit's CRC and reserved bits, then accepts the flit or discards it and every later flit and sends NAK. -/
  | flitReceive (spar : BitVec 3) (peer : BitVec 6) (flit : List (BitVec 8))
  /-- LOCK_TIMEOUT (R24): After 64 calendar cycles without a completed exchange, LOCK becomes 0. -/
  | lockTimeout
  /-- REFERENCE_PLL_LOCK_LOSS (R24): The grandmaster's clk PLL loses lock to the reference input, and the grandmaster clears LOCK. -/
  | referencePllLockLoss
  /-- GRANDMASTER_RELOCK (R24): After 16 tacks of regained PLL lock, the grandmaster sets LOCK again. -/
  | grandmasterRelock
  /-- PACKET_ASSIGN (R31): A packet at the head of the send queue is sent direct, relayed through the eligible candidate with the earliest arrival, or held for its direct tack. -/
  | packetAssign (die : BitVec 2)
  /-- RELAY_FORWARD (R31): A relay module forwards a held packet on its direct slot to the destination, and returns the allowance units once the last flit is acknowledged. -/
  | relayForward (die : BitVec 2) (idx : Nat)
  /-- PACKET_RECEIVE (R35): A destination handles an arriving packet by its sequence window: it delivers and acknowledges, treats a duplicate, resends a cached reply, or discards. -/
  | packetReceive (p : Packet)
  /-- END_TO_END_TIMER (R34): On expiry of a packet's 2C-tack timer, the sender resends the packet, assigned afresh. -/
  | endToEndTimer (idx : Nat)
  /-- BEGIN_DRAIN (R43): FCTL CMD 1 in RUN enters DRAIN: new packets wait, and a drain marker is sent on every used flow. -/
  | beginDrain
  /-- ARM (R43): FCTL CMD 2 in DRAINED, with valid FDARKT and FSWTIME, enters ARMED; otherwise it is refused and sets FSTAT.ERR. -/
  | arm
  /-- ABANDON (R43): FCTL CMD 3 in DRAIN, DRAINED or ARMED returns the module to RUN under the unchanged calendar. -/
  | abandon
  /-- GO_DARK (R43): At the boundary of tack FDARKT.TACK, an armed module darkens all transmitters for one tack while the switches are rewired. -/
  | goDark
  /-- RELOCK_START (R43): At the end of the dark tack, the optics begin to relock and calibrate every spar in loopback, with pod time in holdover. -/
  | relockStart
  /-- RELOCK_COMPLETE (R43): Relock completes and the module enters WAITSW. -/
  | relockComplete
  /-- CALENDAR_SWITCH (R43): At tack FSWTIME.TACK, FNEXT is copied into FPOD, EPOCH increments, unreachable allowances are discarded, and the module runs under the new calendar. -/
  | calendarSwitch
  /-- ROUTER_PACKET_ARRIVE (R52): A router takes an arriving flit under credit flow control, and discards it with a machine-check record if its identifier is reserved or its tenant bit is clear. -/
  | routerPacketArrive (router : BitVec 8) (flit : MeshFlit)
  /-- BUTTERFLY_COMBINE (R57): A butterfly switch combines two same-address integer add requests present in one clk into one, recording the earlier addend for an AMO. -/
  | butterflyCombine (die : BitVec 2) (i : Nat) (j : Nat)
  /-- COMBINED_REPLY (R57): A reply reaching a combining switch is split: the earlier request receives v and the later one v + a1. -/
  | combinedReply (die : BitVec 2) (idx : Nat)
  /-- SPLIT_LOAD_REPLY (R59): A split-phase load's reply writes its pending register, or raises its fault precisely at the load. -/
  | splitLoadReply (core : Nat) (ctx : Nat) (idx : Nat) (reply : Reply)
  /-- MESSAGE_DELIVER (R61): An arriving message is written to the receive queue, to the overflow area, or is refused FULL so that the sender sets REJ. -/
  | messageDeliver (core : Nat)
  /-- MESSAGE_RESEND (R61): A refused message at the head of an injection queue is resent 1 µs later. -/
  | messageResend (core : Nat)
  /-- KILL_RECEIVE (R62): On receipt of a kill, cores reset the context's threads, the Cleat takes the group's death, and routers begin discarding the context's flits. -/
  | killReceive (idx : Nat) (unit : KillUnit)
  /-- KILL_SWEEP_END (R62): At the end of its 8.192 µs sweep, each router reports on identifier 49 up the flood tree. -/
  | killSweepEnd (idx : Nat) (router : BitVec 8)
  /-- PURGE_CONFIRM (R62): When all reports are in, the origin forwards the purge confirmation to the service core's mailbox, and the CTXID becomes reusable. -/
  | purgeConfirm (idx : Nat)
  /-- SUBMISSION (R69): A 128-byte DMWr to a submission page completes Unsupported Request, Request Retry Status or Successful, and in the last case is queued. -/
  | submission (t : BitVec 4) (page : BitVec 4) (off : BitVec 12) (bytes : List (BitVec 8))
  /-- SUBMISSION_PAGE_WRITE (R69): A plain Memory Write to a submission page is discarded and sets TERR.POSTED. -/
  | submissionPageWrite (t : BitVec 4) (page : BitVec 4)
  /-- SUBMIT_LAUNCH (R71): A dispatched LAUNCH submission enters its launch into Halyard, or completes REJECTED, MALFORMED or BADINDEX. -/
  | submitLaunch (t : BitVec 4) (page : BitVec 4)
  /-- SUBMIT_ECADD (R71): A dispatched ECADD submission adds to a counter and completes. -/
  | submitEcadd (t : BitVec 4) (page : BitVec 4)
  /-- SUBMIT_ECARM (R71): A dispatched ECARM submission arms a trigger and completes. -/
  | submitEcarm (t : BitVec 4) (page : BitVec 4)
  /-- SUBMIT_NOP (R71): A dispatched NOP submission completes with no other effect. -/
  | submitNop (t : BitVec 4) (page : BitVec 4)
  /-- LAUNCH_END (R73): Once every thread has halted or been killed and every effect is performed at system scope, the launch ends. -/
  | launchEnd (t : BitVec 4) (ctxid : BitVec 32)
  /-- CQHEAD_WRITE (R72): The host consumes completion records; OUT falls, and a write that would pass TAIL is discarded and sets TERR.CFG. -/
  | cqheadWrite (t : BitVec 4) (page : BitVec 4) (v : BitVec 64)
  /-- CQCFG_WRITE (R72): A write to CQBASE or CQCFG is discarded while OUT ≠ 0 or when LOG2N is out of range, and clearing EN takes effect when OUT = 0. -/
  | cqcfgWrite (t : BitVec 4) (page : BitVec 4) (base : Bool) (v : BitVec 64)
  /-- ECINC_WRITE (R78): A host 8-byte write to ECINC adds to a counter and evaluates its triggers, gates and waits. -/
  | ecincWrite (t : BitVec 4) (j : BitVec 12) (v : BitVec 64)
  /-- VF_ENABLE (R65): Enabling virtual function t makes tenant t available, and resets its attestation record and maps the resident handler. -/
  | vfEnable (t : BitVec 4)
  /-- VF_DISABLE (R65): Disabling a virtual function resets the tenant: queued submissions are discarded, counters are zeroed and triggers disarmed. -/
  | vfDisable (t : BitVec 4)
  /-- MBREG_WRITE (R81): A mailbox ring's HEAD or TAIL is written, unless the write would put HEAD past TAIL or TAIL more than 64 ahead. -/
  | mbregWrite (svc : BitVec 4) (ring : BitVec 2) (v : BitVec 64)
  /-- RELEASE (R83): Halyard ends a cluster's halt after purge confirmation and returns its cores, tiles and banks to reset. -/
  | release (svc : BitVec 4)
  /-- SUSPEND (R83): Halyard pre-empts every thread of a launch and keeps the launch out of its queue until RESUME. -/
  | suspend (svc : BitVec 4)
  /-- RESUME (R83): Halyard returns a suspended launch to its queue with its PRIO and a new wait. -/
  | resume (svc : BitVec 4)
  /-- KILLREMOTE (R83): Halyard carries the kill of a multi-module launch to the named modules on stream 5. -/
  | killremote (svc : BitVec 4)
  /-- CTRRESET (R83): A Cleat sets a counter to 0 and disarms its triggers, unless a device wait is held on it. -/
  | ctrreset (svc : BitVec 4)
  /-- FABSEND (R83): The fabric control block sends a firmware control packet on stream 5, which arrives as MCK 0x0A at the destination. -/
  | fabsend (svc : BitVec 4)
  /-- MAPPTE (R85): The monitor writes a leaf PTE after its window, reservation, measurement and attribute checks, invalidating the old leaf first. -/
  | mappte (svc : BitVec 4)
  /-- FRATTR (R85): The monitor writes a frame attribute record and clears its measured mark, unless a valid PTE maps the frame. -/
  | frattr (svc : BitVec 4)
  /-- SEGLOAD (R89): The monitor verifies a container segment, extends the tenant's measurement chain, and sets X on its CODE pages. -/
  | segload (svc : BitVec 4)
  /-- QUOTE (R85): The monitor writes a signed attestation quote over CHAIN, the nonce hash, the log count and TEN. -/
  | quote (svc : BitVec 4)
  /-- TENCFG (R85): The monitor writes TRECT, TECR, TSUBCFG, TESTR or TFWIN for a tenant, returning DENIED if the write is discarded. -/
  | tencfg (svc : BitVec 4)
  /-- TRECT_WRITE (R54): A tenant's rectangle is written unless the write overlaps, is inverted or changes bounds while enabled; clearing EN kills the tenant's contexts. -/
  | trectWrite (t : BitVec 4) (v : BitVec 64)
  /-- TECR_WRITE (R67): A tenant's counter range is written unless it overlaps, overflows or the tenant has live contexts. -/
  | tecrWrite (t : BitVec 4) (v : BitVec 64)
  /-- TSUBCFG_WRITE (R67): A tenant's submission configuration is written unless DEPTH > 256 or PAGES > 16. -/
  | tsubcfgWrite (t : BitVec 4) (v : BitVec 64)
  /-- TESTR_WRITE (R194): A tenant's estate share is written unless it overlaps, exceeds 256 units or the tenant holds entries. -/
  | testrWrite (t : BitVec 4) (v : BitVec 64)
  /-- TFWIN_WRITE (R142): A tenant's HBM window is written unless it overflows, overlaps another window or excludes a mapped frame. -/
  | tfwinWrite (t : BitVec 4) (v : BitVec 64)
  /-- CLAIM (R92): A module with the lowest number heard from within 50 ms claims leadership in round 1. -/
  | claim
  /-- CLAIM_RECEIVE (R92): A module verifies a signed claim and accepts it if its round or number ranks higher. -/
  | claimReceive (c : Claim)
  /-- MANIFEST_RECEIVE (R94): A follower verifies the manifest before it accepts any chunk. -/
  | manifestReceive (bytes : List (BitVec 8))
  /-- CHUNK_RECEIVE (R94): A follower verifies a chunk against its manifest entry, extends its attestation record and sets its bitmap bit, or discards the chunk. -/
  | chunkReceive (src : BitVec 6) (idx : Nat) (bytes : List (BitVec 8))
  /-- HEARTBEAT (R95): The leader sends a heartbeat every 5 ms. -/
  | heartbeat
  /-- LEADER_WATCHDOG (R95): A follower that hears no heartbeat for 50 ms starts a new election round. -/
  | leaderWatchdog
  /-- LAUNCH_PLACE (R101): Halyard places a waiting head at its first-fit free sub-mesh and starts its threads' control contexts;
  `far`: this module's part of a launch that another module dispatched. -/
  | launchPlace (far : Option LaunchShare)
  /-- PREEMPT_VICTIM (R104): After a head has stood at level 7 for a further AGEUS, Halyard pre-empts the chosen victim launches. -/
  | preemptVictim
  /-- PRECTL_WRITE (R184): The resident handler signals that a save or restore is done; on a save, the receive queue spills and the thread is suspended. -/
  | prectlWrite (core : Nat) (ctx : Nat) (v : BitVec 64)
  /-- THREAD_RESUME (R183): Once the thread's engine commands have completed, Halyard starts a context at PVEC to restore a suspended thread. -/
  | threadResume (core : Nat)
  /-- CONT_RECORD_ARRIVE (R108): A continuation record reaches its home cluster and is queued, or overflows to CONTOVF. -/
  | contRecordArrive (idx : Nat)
  /-- CONTINUATION_START (R108): A queued continuation record starts as a helper-class context on the home core with the fewest live contexts. -/
  | continuationStart (cluster : BitVec 8)
  /-- VECTOR_PASS_BIND (R111): The octet arbiter binds a free lane group to the next pass of a queue head by weighted deficit round robin. -/
  | vectorPassBind (octet : BitVec 9)
  /-- VECTOR_PASS_COMPLETE (R298): A pass releases its lane group, and its command completes with its last pass. -/
  | vectorPassComplete (core : Nat)
  /-- PC_SAMPLE (R114): On a sampling clk, a core writes a PC sample record to the tenant's buffer, or counts a drop. -/
  | pcSample (core : Nat)
  /-- COUNTER_ROTATE (R118): Every 64 µs, a cluster's physical counters move on to the next two cores. -/
  | counterRotate (cluster : BitVec 8)
  /-- SMPCFG_WRITE (R116): A write to SMPCFG sets the sampling period and buffer size and zeroes WCOUNT and DROPS. -/
  | smpcfgWrite (t : BitVec 4) (v : BitVec 64)
  /-- TABLE_WALK_COMPLETE (R137): A page-table walk fills the TLBs after the entry, window, absent-frame and attribute checks, or parks, or faults. -/
  | tableWalkComplete (cluster : Nat) (idx : Nat)
  /-- FAULT_ENTRY_WRITE (R147): A fault waiting in the walker with FULL = 1 writes its new entry once the fault queue has room. -/
  | faultEntryWrite (t : BitVec 4)
  /-- STORE_QUEUE_DRAIN (R150): A context's store-queue entry drains in program order when its target accepts it. -/
  | storeQueueDrain (core : Nat) (ctx : Nat)
  /-- PORT_LINE_DRAIN (R150): A port write-buffer line drains to HBM within 1 µs of its first store, or sooner on a fence. -/
  | portLineDrain (cluster : BitVec 8) (idx : Nat)
  /-- VERSION_UNIT_RETRY (R157): A version request refused by full version units is sent again 64 clk later. -/
  | versionUnitRetry (core : Nat) (ctx : Nat)
  /-- REMOTE_WAITER_RETRY (R157): A version waiter from another module, held for 2C tacks, is answered RETRY and is resent under a new sequence. -/
  | remoteWaiterRetry (idx : Nat)
  /-- HBM_UNCORRECTABLE (R192): An uncorrectable HBM4E ECC error poisons its bytes and sends a machine-check record. -/
  | hbmUncorrectable (pa : Nat)
  /-- ASYNC_CAUSE_TAKE (R173): At a boundary with IE = 1 and TR = 0, one pending asynchronous cause is taken through take_trap, in the fixed order. -/
  | asyncCauseTake (core : Nat) (ctx : Nat)
  /-- TRAP_MESSAGE_FORWARD (R177): A trap message unserved for 64 µs passes to the next hop of the chain. -/
  | trapMessageForward (core : Nat)
  /-- TRAP_MESSAGE_TAKE (R178): A core's inbox head message is taken as a CHAIN trap in a live context that reaches an eligible boundary. -/
  | trapMessageTake (core : Nat)
  /-- CHREPLY_WRITE (R178): The handler kills or restarts the origin context and pops the inbox. -/
  | chreplyWrite (core : Nat) (ctx : Nat) (v : BitVec 64)
  /-- WATCHDOG (R180): A context that holds TR = 1 for 2^20 clk raises WATCHDOG as a handler-code fault. -/
  | watchdog (core : Nat) (ctx : Nat)
  /-- USER_INTERRUPT_TAKE (R182): At an eligible boundary, a context enters its user-interrupt handler: UIADDR := pc, UI := 1, jump to UIVEC. -/
  | userInterruptTake (core : Nat) (ctx : Nat)
  /-- DEATH_EVENT (R200): A Cleat applies a group's death to its entries in one step, conveying each holding to its resolved heir or treating it as heirless. -/
  | deathEvent (die : BitVec 2)
  /-- ARRIVAL_POST (R203): Once all four Cleats have applied a death, die 0's Cleat posts one arrival per heir and estate. -/
  | arrivalPost
  /-- ESTH_WRITE (R206): A control context registers or unregisters the estate handler; writes from helpers are discarded. -/
  | esthWrite (core : Nat) (ctx : Nat) (v : BitVec 64)
  /-- MATRIX_COMMAND_TAKE (R327): The matrix engine takes the next queued command round robin among issue cores, once its waits are satisfied, evicting a bank if needed. -/
  | matrixCommandTake (cluster : BitVec 8)
  /-- MMA_A_READ_END (R327): An MMA finishes reading A at clk 12, and with adv = 1 flips the slot to T. -/
  | mmaAReadEnd (cluster : BitVec 8)
  /-- MATRIX_COMMAND_COMPLETE (R327): A matrix command completes and applies its results, flags, drains and any matrix check. -/
  | matrixCommandComplete (cluster : BitVec 8)
  /-- WBLOAD_COMPLETE (R329): The engine finishes reading a weight stream and sets the slot to STATE 2, or to STATE 3 with ENGINE_FAULT. -/
  | wbloadComplete (cluster : BitVec 8)
  /-- COPY_COMMAND_COMPLETE (R335): A copy command's writes are performed and its destination tiles flip to T, or failures are reported.
  `host` holds the bytes that the host link delivered for a source in the host window. -/
  | copyCommandComplete (core : Nat) (tag : BitVec 16) (host : List Byte)
  /-- GSEND_OPEN (R355): A receiving engine binds a free receive descriptor to the sender and grants an allocation base, or refuses. -/
  | gsendOpen (o : GraphOpen)
  /-- GSEND_OBJECT (R355): A receiving engine writes an arriving object at base + offset and records it in its forwarding table. -/
  | gsendObject (o : GraphObject)
  /-- GSEND_FINISH (R355): After the last object, the receiver rewrites strong pointers, sets ABUMP and STATE 2, and acknowledges. -/
  | gsendFinish (f : GraphFinish)
  /-- GRAPH_WALK_COMPLETE (R353): The graph engine finishes a walk: it performs the .v re-check, writes STATE 2 or 3, ABUMP and the result, and the waiting graph instruction retires. -/
  | graphWalkComplete (core : Nat) (ctx : Nat)
  /-- AMOD_REPLY_STORE (R365): When an AMOD's reply returns, the old value is stored as 8 bytes at the reply address on behalf of the issuing context, which has already retired the AMOD. -/
  | amodReplyStore (core : Nat) (ctx : Nat)
  /-- PREVEC_WRITE (R185): A service core writes PREVEC; the monitor then maps the resident supervisor handler at the new VA in every tenant and extends each attestation record, and pre-emption becomes possible or impossible. -/
  | prevecWrite (v : BitVec 64)
  /-- MSIX_VECTOR_UNMASK (R68): A host write that clears an MSI-X vector's mask sends the message whose pending bit is set and clears that bit. -/
  | msixVectorUnmask (t : BitVec 4) (vec : BitVec 5)
deriving DecidableEq, Repr

end Sys2Proof
end

