-- ==== Sys2Proof/WellFormed.lean ====
section
/-! DEFINITION. When an instruction is well formed: the type codes and field values that the formats and the
instructions declare illegal (12_formats_assembly.md R233 steps 4 and 5, R234; 13_opcode_map.md R254, R255; the
limits of each instruction). A row without an encoding has no field the formats restrict. -/

namespace Sys2Proof

/-- Step 4 of R233: the element type code is one the instruction accepts (R254). -/
def Instr.typeOk : Instr → Bool
  | .mma _ _ _ t _ _ => decide (1 ≤ t.toNat ∧ t.toNat ≤ 6)
  | .vaddF t _ _ _ _ => decide (t.toNat ≤ 2)
  | .vsubF t _ _ _ _ => decide (t.toNat ≤ 2)
  | .vmulF t _ _ _ _ => decide (t.toNat ≤ 2)
  | .vfma t _ _ _ _ => decide (t.toNat ≤ 2)
  | .vminF t _ _ _ _ => decide (t.toNat ≤ 2)
  | .vmaxF t _ _ _ _ => decide (t.toNat ≤ 2)
  | .vdiv t _ _ _ _ => decide (t.toNat ≤ 2)
  | .vsqrt t _ _ _ => decide (t.toNat ≤ 2)
  | .vabsF t _ _ _ => decide (t.toNat ≤ 2)
  | .vaddI t _ _ _ _ => decide (t.toNat ≤ 5)
  | .vsubI t _ _ _ _ => decide (t.toNat ≤ 5)
  | .vmulI t _ _ _ _ => decide (t.toNat ≤ 5)
  | .vmulh t _ _ _ _ => decide (t.toNat ≤ 5)
  | .vminI t _ _ _ _ => decide (t.toNat ≤ 5)
  | .vmaxI t _ _ _ _ => decide (t.toNat ≤ 5)
  | .vabsI t _ _ _ => decide (t.toNat ≤ 2)
  | .vand t _ _ _ _ => decide (t.toNat ≤ 2)
  | .vor t _ _ _ _ => decide (t.toNat ≤ 2)
  | .vxor t _ _ _ _ => decide (t.toNat ≤ 2)
  | .vshl t _ _ _ _ => decide (t.toNat ≤ 2)
  | .vshr t _ _ _ _ => decide (t.toNat ≤ 2)
  | .vshra t _ _ _ _ => decide (t.toNat ≤ 2)
  | .vcmpeq t c _ _ _ _ => decide (t.toNat ≤ 5 ∧ (c = 0 → t.toNat ≤ 2))
  | .vcmpne t c _ _ _ _ => decide (t.toNat ≤ 5 ∧ (c = 0 → t.toNat ≤ 2))
  | .vcmplt t c _ _ _ _ => decide (t.toNat ≤ 5 ∧ (c = 0 → t.toNat ≤ 2))
  | .vcmple t c _ _ _ _ => decide (t.toNat ≤ 5 ∧ (c = 0 → t.toNat ≤ 2))
  | .vsel t _ _ _ _ => decide (t.toNat ≤ 2)
  | .vld t _ _ => decide (t.toNat ≤ 2)
  | .vst t _ _ => decide (t.toNat ≤ 2)
  | .vlds t _ _ => decide (t.toNat ≤ 2)
  | .vsts t _ _ => decide (t.toNat ≤ 2)
  | .vgath t _ _ _ => decide (t.toNat ≤ 2)
  | .vscat t _ _ _ => decide (t.toNat ≤ 2)
  | .vbcast t _ _ => decide (t.toNat ≤ 2)
  | .vperm t _ _ _ _ => decide (t.toNat ≤ 2)
  | .vslide t _ _ _ => decide (t.toNat ≤ 2)
  | .vred t _ _ c _ _ => decide (t.toNat ≤ 5 ∧ (c = 0 → t.toNat ≤ 2))
  | .vmovx t _ _ _ => decide (t.toNat ≤ 5)
  | .vidx t _ _ => decide (t.toNat ≤ 5)
  | .vcvt t _ _ _ _ _ _ => decide (t.toNat ≤ 5)
  | .vqnt t _ _ _ _ => decide (3 ≤ t.toNat ∧ t.toNat ≤ 6)
  | .vdqnt t _ _ _ _ => decide (3 ≤ t.toNat ∧ t.toNat ≤ 6)
  | .vsfu t _ _ _ _ => decide (t.toNat ≤ 2)
  | _ => true

/-- Step 5 of R233: no field holds a value that its format or its instruction declares illegal. -/
def Instr.fieldsOk : Instr → Bool
  | .fadd _ _ _ r _ => decide (r.toNat ≠ 7)
  | .fsub _ _ _ r _ => decide (r.toNat ≠ 7)
  | .fmul _ _ _ r _ => decide (r.toNat ≠ 7)
  | .fdiv _ _ _ r _ => decide (r.toNat ≠ 7)
  | .fsqrt _ _ r _ => decide (r.toNat ≠ 7)
  | .ffma _ _ _ r _ => decide (r.toNat ≠ 7)
  | .fcvt _ _ t s r => decide (r.toNat ≠ 7) && decide (t ≠ s) && decide (¬ (2 ≤ t.toNat ∧ 2 ≤ s.toNat))
  | .ld _ _ z s _ => decide (z.toNat ≤ 3) && decide (¬ (s = 1 ∧ z.toNat = 3))
  | .st _ _ z _ => decide (z.toNat ≤ 3)
  | .amo _ _ _ _ o => decide (o.toNat ≤ 10)
  | .amod _ _ _ _ o => decide (o.toNat ≤ 10)
  | .red _ _ _ o => decide (1 ≤ o.toNat ∧ o.toNat ≤ 10 ∧ o.toNat ≠ 9)
  | .redf _ _ _ _ o => decide (o.toNat ≠ 3)
  | .fenceh s => decide (s.toNat ≤ 4)
  | .fence s => decide (s.toNat ≤ 4)
  | .relq _ _ k => decide (k.toNat ≠ 0)
  | .heir _ _ _ k => decide (k.toNat ≠ 0)
  | .estq _ _ _ k => decide (k.toNat ≠ 0)
  | .recv _ p w => decide (¬ (p = 1 ∧ w = 1))
  | .hwaitT n _ => decide (n.toNat ≠ 0)
  | .advp _ n => decide (n.toNat ≠ 0)
  | .advc _ n => decide (n.toNat ≠ 0)
  | .advcL n _ => decide (n.toNat ≠ 0)
  | .cstat _ _ s => decide (s.toNat ≤ 5)
  | .mdrain _ q t u r => decide (t.toNat ≤ 2 ∨ t.toNat = 7) && decide (r.toNat ≠ 7) && decide (q = 1 → t.toNat = 0 ∧ u = 0)
  | .mmap a => decide (a.toNat % 4 = 0)
  | .vcvt _ _ _ j i s _ => decide (s.toNat ≤ 5) && decide (¬ (i = 1 ∧ j = 1))
  | .vsfu _ _ _ f _ => decide (f.toNat ≤ 8)
  | _ => true

/-- A row of the opcode table that has an encoding (the rest are steps of the hardware and of its outside). -/
def Instr.encoded : Instr → Bool
  | .coldReset => false
  | .moduleReset => false
  | .tenantReset .. => false
  | .powerRemoval => false
  | .clusterClockGate .. => false
  | .a1Exit .. => false
  | .sleepEntry => false
  | .wakeExitComplete => false
  | .powerLimiterInterval .. => false
  | .dltolWrite .. => false
  | .tltolWrite .. => false
  | .registerWrite .. => false
  | .tackBoundary => false
  | .flitReceive .. => false
  | .lockTimeout => false
  | .referencePllLockLoss => false
  | .grandmasterRelock => false
  | .packetAssign .. => false
  | .relayForward .. => false
  | .packetReceive .. => false
  | .endToEndTimer .. => false
  | .beginDrain => false
  | .arm => false
  | .abandon => false
  | .goDark => false
  | .relockStart => false
  | .relockComplete => false
  | .calendarSwitch => false
  | .routerPacketArrive .. => false
  | .butterflyCombine .. => false
  | .combinedReply .. => false
  | .splitLoadReply .. => false
  | .messageDeliver .. => false
  | .messageResend .. => false
  | .killReceive .. => false
  | .killSweepEnd .. => false
  | .purgeConfirm .. => false
  | .submission .. => false
  | .submissionPageWrite .. => false
  | .submitLaunch .. => false
  | .submitEcadd .. => false
  | .submitEcarm .. => false
  | .submitNop .. => false
  | .launchEnd .. => false
  | .cqheadWrite .. => false
  | .cqcfgWrite .. => false
  | .ecincWrite .. => false
  | .vfEnable .. => false
  | .vfDisable .. => false
  | .mbregWrite .. => false
  | .release .. => false
  | .suspend .. => false
  | .resume .. => false
  | .killremote .. => false
  | .ctrreset .. => false
  | .fabsend .. => false
  | .mappte .. => false
  | .frattr .. => false
  | .segload .. => false
  | .quote .. => false
  | .tencfg .. => false
  | .trectWrite .. => false
  | .tecrWrite .. => false
  | .tsubcfgWrite .. => false
  | .testrWrite .. => false
  | .tfwinWrite .. => false
  | .claim => false
  | .claimReceive .. => false
  | .manifestReceive .. => false
  | .chunkReceive .. => false
  | .heartbeat => false
  | .leaderWatchdog => false
  | .launchPlace .. => false
  | .preemptVictim => false
  | .prectlWrite .. => false
  | .threadResume .. => false
  | .contRecordArrive .. => false
  | .continuationStart .. => false
  | .vectorPassBind .. => false
  | .vectorPassComplete .. => false
  | .pcSample .. => false
  | .counterRotate .. => false
  | .smpcfgWrite .. => false
  | .tableWalkComplete .. => false
  | .faultEntryWrite .. => false
  | .storeQueueDrain .. => false
  | .portLineDrain .. => false
  | .versionUnitRetry .. => false
  | .remoteWaiterRetry .. => false
  | .hbmUncorrectable .. => false
  | .asyncCauseTake .. => false
  | .trapMessageForward .. => false
  | .trapMessageTake .. => false
  | .chreplyWrite .. => false
  | .watchdog .. => false
  | .userInterruptTake .. => false
  | .deathEvent .. => false
  | .arrivalPost => false
  | .esthWrite .. => false
  | .matrixCommandTake .. => false
  | .mmaAReadEnd .. => false
  | .matrixCommandComplete .. => false
  | .wbloadComplete .. => false
  | .copyCommandComplete .. => false
  | .gsendOpen .. => false
  | .gsendObject .. => false
  | .gsendFinish .. => false
  | .illegalInsnWord .. => false
  | .graphWalkComplete .. => false
  | .amodReplyStore .. => false
  | .prevecWrite .. => false
  | .msixVectorUnmask .. => false
  | _ => true

/-- An instruction that a word can hold: encoded, its type code accepted and its fields legal. -/
def Instr.wf (i : Instr) : Bool := i.encoded && i.typeOk && i.fieldsOk

end Sys2Proof
end

