-- ==== Sys2Proof/Decode.lean ====
section
/-! DEFINITION. The decoder and the encoder: instruction words of 32 bits, little-endian (12_formats_assembly.md
R232), the formats of R234, the majors and op values of 13_opcode_map.md R251 and R252. Decoding is total; a word
that is no instruction is rejected by the name of the step of R233 that fails it. -/

namespace Sys2Proof

/-- Why a word is no instruction (R233): the steps in their order. -/
inductive DecodeError where
  /-- step 1: major 0x00 -/
  | majorZero
  /-- step 2: majors 0x28 to 0x3F -/
  | majorReserved
  /-- step 3: an op value the opcode map does not assign -/
  | opUnassigned
  /-- step 4: a type code the major does not accept -/
  | typeIllegal
  /-- step 5: an illegal field value -/
  | fieldIllegal
  /-- step 6: a non-zero reserved field -/
  | reservedNonzero
  /-- fewer than four bytes -/
  | shortInput
deriving DecidableEq, Repr

/-- Bits [lo+n-1 : lo] of a word, where `sh` is 2^lo. -/
def fld (n w sh : Nat) : BitVec n := BitVec.ofNat n (w / sh)

/-- Major 0x01: the rows of R252 in it. -/
def decodeMajor01 (w : Nat) : Option Instr :=
  if w % 2048 = 0 then some (.add (fld 5 w 2097152) (fld 5 w 65536) (fld 5 w 2048)) else
  if w % 2048 = 64 then some (.sub (fld 5 w 2097152) (fld 5 w 65536) (fld 5 w 2048)) else
  if w % 2048 = 128 then some (.mul (fld 5 w 2097152) (fld 5 w 65536) (fld 5 w 2048)) else
  if w % 2048 = 192 then some (.mulh (fld 5 w 2097152) (fld 5 w 65536) (fld 5 w 2048)) else
  if w % 2048 = 256 then some (.mulhn (fld 5 w 2097152) (fld 5 w 65536) (fld 5 w 2048)) else
  if w % 2048 = 320 then some (.div (fld 5 w 2097152) (fld 5 w 65536) (fld 5 w 2048)) else
  if w % 2048 = 384 then some (.divn (fld 5 w 2097152) (fld 5 w 65536) (fld 5 w 2048)) else
  if w % 2048 = 448 then some (.rem (fld 5 w 2097152) (fld 5 w 65536) (fld 5 w 2048)) else
  if w % 2048 = 512 then some (.remn (fld 5 w 2097152) (fld 5 w 65536) (fld 5 w 2048)) else
  if w % 2048 = 576 then some (.and (fld 5 w 2097152) (fld 5 w 65536) (fld 5 w 2048)) else
  if w % 2048 = 640 then some (.or (fld 5 w 2097152) (fld 5 w 65536) (fld 5 w 2048)) else
  if w % 2048 = 704 then some (.xor (fld 5 w 2097152) (fld 5 w 65536) (fld 5 w 2048)) else
  if w % 2048 = 768 then some (.andn (fld 5 w 2097152) (fld 5 w 65536) (fld 5 w 2048)) else
  if w % 2048 = 832 then some (.shl (fld 5 w 2097152) (fld 5 w 65536) (fld 5 w 2048)) else
  if w % 2048 = 896 then some (.shr (fld 5 w 2097152) (fld 5 w 65536) (fld 5 w 2048)) else
  if w % 2048 = 960 then some (.shra (fld 5 w 2097152) (fld 5 w 65536) (fld 5 w 2048)) else
  if w % 2048 = 1024 then some (.rotl (fld 5 w 2097152) (fld 5 w 65536) (fld 5 w 2048)) else
  if w % 2048 = 1088 then some (.min (fld 5 w 2097152) (fld 5 w 65536) (fld 5 w 2048)) else
  if w % 2048 = 1152 then some (.max (fld 5 w 2097152) (fld 5 w 65536) (fld 5 w 2048)) else
  if w % 2048 = 1216 then some (.minn (fld 5 w 2097152) (fld 5 w 65536) (fld 5 w 2048)) else
  if w % 2048 = 1280 then some (.maxn (fld 5 w 2097152) (fld 5 w 65536) (fld 5 w 2048)) else
  if w % 2048 = 1344 then some (.slt (fld 5 w 2097152) (fld 5 w 65536) (fld 5 w 2048)) else
  if w % 2048 = 1408 then some (.sltn (fld 5 w 2097152) (fld 5 w 65536) (fld 5 w 2048)) else
  if w / 32 % 64 = 46 then some (.sel (fld 5 w 2097152) (fld 5 w 65536) (fld 5 w 2048) (fld 5 w 1)) else
  if w % 65536 = 1536 then some (.clz (fld 5 w 2097152) (fld 5 w 65536)) else
  if w % 65536 = 1600 then some (.ctz (fld 5 w 2097152) (fld 5 w 65536)) else
  if w % 65536 = 1664 then some (.popc (fld 5 w 2097152) (fld 5 w 65536)) else
  if w / 64 % 32 = 27 then some (.ext (fld 5 w 2097152) (fld 5 w 65536) (fld 5 w 2048) (fld 6 w 1)) else
  if w / 64 % 32 = 28 then some (.ins (fld 5 w 2097152) (fld 5 w 65536) (fld 5 w 2048) (fld 6 w 1)) else
  if w % 2048 = 1856 then some (.adds (fld 5 w 2097152) (fld 5 w 65536) (fld 5 w 2048)) else
  none

/-- Major 0x02: the rows of R252 in it. -/
def decodeMajor02 (w : Nat) : Option Instr :=
  some (.addi (fld 5 w 2097152) (fld 5 w 65536) (fld 16 w 1))

/-- Major 0x03: the rows of R252 in it. -/
def decodeMajor03 (w : Nat) : Option Instr :=
  some (.andi (fld 5 w 2097152) (fld 5 w 65536) (fld 16 w 1))

/-- Major 0x04: the rows of R252 in it. -/
def decodeMajor04 (w : Nat) : Option Instr :=
  some (.ori (fld 5 w 2097152) (fld 5 w 65536) (fld 16 w 1))

/-- Major 0x05: the rows of R252 in it. -/
def decodeMajor05 (w : Nat) : Option Instr :=
  some (.xori (fld 5 w 2097152) (fld 5 w 65536) (fld 16 w 1))

/-- Major 0x06: the rows of R252 in it. -/
def decodeMajor06 (w : Nat) : Option Instr :=
  if w / 256 % 256 = 0 then some (.shi (fld 5 w 2097152) (fld 5 w 65536) (fld 2 w 64) (fld 6 w 1)) else
  none

/-- Major 0x07: the rows of R252 in it. -/
def decodeMajor07 (w : Nat) : Option Instr :=
  some (.slti (fld 5 w 2097152) (fld 5 w 65536) (fld 16 w 1))

/-- Major 0x08: the rows of R252 in it. -/
def decodeMajor08 (w : Nat) : Option Instr :=
  some (.sltni (fld 5 w 2097152) (fld 5 w 65536) (fld 16 w 1))

/-- Major 0x09: the rows of R252 in it. -/
def decodeMajor09 (w : Nat) : Option Instr :=
  if w / 65536 % 8 = 0 then some (.lit (fld 5 w 2097152) (fld 2 w 524288) (fld 16 w 1)) else
  if w / 65536 % 8 = 4 then some (.litk (fld 5 w 2097152) (fld 2 w 524288) (fld 16 w 1)) else
  none

/-- Major 0x0A: the rows of R252 in it. -/
def decodeMajor0A (w : Nat) : Option Instr :=
  if w / 16 % 128 = 0 then some (.fadd (fld 5 w 2097152) (fld 5 w 65536) (fld 5 w 2048) (fld 3 w 2) (fld 1 w 1)) else
  if w / 16 % 128 = 4 then some (.fsub (fld 5 w 2097152) (fld 5 w 65536) (fld 5 w 2048) (fld 3 w 2) (fld 1 w 1)) else
  if w / 16 % 128 = 8 then some (.fmul (fld 5 w 2097152) (fld 5 w 65536) (fld 5 w 2048) (fld 3 w 2) (fld 1 w 1)) else
  if w / 16 % 128 = 12 then some (.fdiv (fld 5 w 2097152) (fld 5 w 65536) (fld 5 w 2048) (fld 3 w 2) (fld 1 w 1)) else
  if w / 16 % 4096 = 16 then some (.fsqrt (fld 5 w 2097152) (fld 5 w 65536) (fld 3 w 2) (fld 1 w 1)) else
  if w / 16 % 128 = 20 then some (.ffma (fld 5 w 2097152) (fld 5 w 65536) (fld 5 w 2048) (fld 3 w 2) (fld 1 w 1)) else
  if w / 2 % 1024 = 192 then some (.fmin (fld 5 w 2097152) (fld 5 w 65536) (fld 5 w 2048) (fld 1 w 1)) else
  if w / 2 % 1024 = 224 then some (.fmax (fld 5 w 2097152) (fld 5 w 65536) (fld 5 w 2048) (fld 1 w 1)) else
  if w / 2 % 8 = 0 ∧ w / 64 % 32 = 8 then some (.fcmp (fld 5 w 2097152) (fld 5 w 65536) (fld 5 w 2048) (fld 2 w 16) (fld 1 w 1)) else
  if w % 2 = 0 ∧ w / 16 % 128 = 36 ∧ w / 32768 % 2 = 0 then some (.fcvt (fld 5 w 2097152) (fld 5 w 65536) (fld 2 w 8192) (fld 2 w 2048) (fld 3 w 2)) else
  none

/-- Major 0x0B: the rows of R252 in it. -/
def decodeMajor0B (w : Nat) : Option Instr :=
  some (.ld (fld 5 w 2097152) (fld 5 w 65536) (fld 3 w 8192) (fld 1 w 4096) (fld 12 w 1))

/-- Major 0x0C: the rows of R252 in it. -/
def decodeMajor0C (w : Nat) : Option Instr :=
  if w / 4096 % 2 = 0 then some (.st (fld 5 w 2097152) (fld 5 w 65536) (fld 3 w 8192) (fld 12 w 1)) else
  none

/-- Major 0x0D: the rows of R252 in it. -/
def decodeMajor0D (w : Nat) : Option Instr :=
  if w % 2048 = 0 then some (.ldv (fld 5 w 2097152) (fld 5 w 65536) (fld 5 w 2048)) else
  if w % 2048 = 64 then some (.stv (fld 5 w 2097152) (fld 5 w 65536) (fld 5 w 2048)) else
  if w % 2048 = 128 ∧ w / 2097152 % 32 = 0 then some (.reclaim (fld 5 w 65536) (fld 5 w 2048)) else
  if w % 65536 = 192 then some (.verq (fld 5 w 2097152) (fld 5 w 65536)) else
  none

/-- Major 0x0E: the rows of R252 in it. -/
def decodeMajor0E (w : Nat) : Option Instr :=
  some (.beq (fld 5 w 2097152) (fld 5 w 65536) (fld 16 w 1))

/-- Major 0x0F: the rows of R252 in it. -/
def decodeMajor0F (w : Nat) : Option Instr :=
  some (.bne (fld 5 w 2097152) (fld 5 w 65536) (fld 16 w 1))

/-- Major 0x10: the rows of R252 in it. -/
def decodeMajor10 (w : Nat) : Option Instr :=
  some (.blt (fld 5 w 2097152) (fld 5 w 65536) (fld 16 w 1))

/-- Major 0x11: the rows of R252 in it. -/
def decodeMajor11 (w : Nat) : Option Instr :=
  some (.bge (fld 5 w 2097152) (fld 5 w 65536) (fld 16 w 1))

/-- Major 0x12: the rows of R252 in it. -/
def decodeMajor12 (w : Nat) : Option Instr :=
  some (.bltn (fld 5 w 2097152) (fld 5 w 65536) (fld 16 w 1))

/-- Major 0x13: the rows of R252 in it. -/
def decodeMajor13 (w : Nat) : Option Instr :=
  some (.bgen (fld 5 w 2097152) (fld 5 w 65536) (fld 16 w 1))

/-- Major 0x14: the rows of R252 in it. -/
def decodeMajor14 (w : Nat) : Option Instr :=
  some (.jal (fld 5 w 2097152) (fld 21 w 1))

/-- Major 0x15: the rows of R252 in it. -/
def decodeMajor15 (w : Nat) : Option Instr :=
  some (.jalr (fld 5 w 2097152) (fld 5 w 65536) (fld 16 w 1))

/-- Major 0x16: the rows of R252 in it. -/
def decodeMajor16 (w : Nat) : Option Instr :=
  if w % 2048 = 0 then some (.trap (fld 15 w 2048)) else
  if w % 67108864 = 64 then some .tret else
  if w % 67108864 = 128 then some .uiret else
  if w % 2048 = 192 then some (.mfs (fld 5 w 2097152) (fld 10 w 2048)) else
  if w % 2048 = 256 then some (.mts (fld 5 w 2097152) (fld 10 w 2048)) else
  if w % 67108864 = 320 then some .wfi else
  if w % 67108864 = 384 then some .halt else
  if w % 67108864 = 448 then some .yield else
  if w / 8 % 262144 = 64 then some (.rdctr (fld 5 w 2097152) (fld 3 w 1)) else
  none

/-- Major 0x17: the rows of R252 in it. -/
def decodeMajor17 (w : Nat) : Option Instr :=
  if w % 2048 = 0 then some (.start (fld 5 w 2097152) (fld 5 w 65536) (fld 5 w 2048)) else
  if w % 65536 = 64 then some (.joinh (fld 5 w 2097152) (fld 5 w 65536)) else
  if w % 65536 = 128 ∧ w / 2097152 % 32 = 0 then some (.cont (fld 5 w 65536)) else
  if w % 65536 = 192 then some (.launch (fld 5 w 2097152) (fld 5 w 65536)) else
  none

/-- Major 0x18: the rows of R252 in it. -/
def decodeMajor18 (w : Nat) : Option Instr :=
  if w % 67108864 = 448 then some .fencel else
  if w / 8 % 8388608 = 64 then some (.fenceh (fld 3 w 1)) else
  if w / 8 % 8388608 = 72 then some (.fence (fld 3 w 1)) else
  if w / 16 % 4194304 = 16 then some (.arrive (fld 4 w 1)) else
  if w / 16 % 4194304 = 20 then some (.waitb (fld 4 w 1)) else
  if w % 65536 = 384 ∧ w / 2097152 % 32 = 0 then some (.bmask (fld 5 w 65536)) else
  if w % 2048 = 11 then some (.amoLock (fld 5 w 2097152) (fld 5 w 65536) (fld 5 w 2048)) else
  if w % 2048 = 12 then some (.amoUnlock (fld 5 w 2097152) (fld 5 w 65536) (fld 5 w 2048)) else
  if w % 2048 = 13 then some (.amoTrylock (fld 5 w 2097152) (fld 5 w 65536) (fld 5 w 2048)) else
  if w / 32 % 64 = 4 ∧ w / 2097152 % 32 = 0 then some (.red (fld 5 w 65536) (fld 5 w 2048) (fld 1 w 16) (fld 4 w 1)) else
  if w % 2048 = 640 then some (.ecadd (fld 5 w 2097152) (fld 5 w 65536) (fld 5 w 2048)) else
  if w % 2048 = 704 then some (.ecwait (fld 5 w 2097152) (fld 5 w 65536) (fld 5 w 2048)) else
  if w % 2048 = 768 then some (.ectrig (fld 5 w 2097152) (fld 5 w 65536) (fld 5 w 2048)) else
  if w / 16 % 128 = 12 then some (.redf (fld 5 w 2097152) (fld 5 w 65536) (fld 5 w 2048) (fld 2 w 4) (fld 2 w 1)) else
  if w / 32 % 64 = 0 then some (.amo (fld 5 w 2097152) (fld 5 w 65536) (fld 5 w 2048) (fld 1 w 16) (fld 4 w 1)) else
  if w / 32 % 64 = 2 then some (.amod (fld 5 w 2097152) (fld 5 w 65536) (fld 5 w 2048) (fld 1 w 16) (fld 4 w 1)) else
  none

/-- Major 0x19: the rows of R252 in it. -/
def decodeMajor19 (w : Nat) : Option Instr :=
  if w % 2048 = 0 then some (.hold (fld 5 w 2097152) (fld 5 w 65536) (fld 5 w 2048)) else
  if w / 4 % 16384 = 16 then some (.relq (fld 5 w 2097152) (fld 5 w 65536) (fld 2 w 1)) else
  if w / 4 % 512 = 32 then some (.heir (fld 5 w 2097152) (fld 5 w 65536) (fld 5 w 2048) (fld 2 w 1)) else
  if w % 2048 = 192 then some (.promise (fld 5 w 2097152) (fld 5 w 65536) (fld 5 w 2048)) else
  if w % 8 = 0 ∧ w / 32 % 64 = 8 then some (.estq (fld 5 w 2097152) (fld 5 w 65536) (fld 5 w 2048) (fld 2 w 8)) else
  if w % 2048 = 257 ∧ w / 65536 % 32 = 0 then some (.estqPop (fld 5 w 2097152) (fld 5 w 2048)) else
  if w % 2048 = 258 ∧ w / 65536 % 32 = 0 then some (.estqWait (fld 5 w 2097152) (fld 5 w 2048)) else
  if w % 65536 = 320 then some (.orphcl (fld 5 w 2097152) (fld 5 w 65536)) else
  none

/-- Major 0x1A: the rows of R252 in it. -/
def decodeMajor1A (w : Nat) : Option Instr :=
  if w % 65536 = 0 then some (.send (fld 5 w 2097152) (fld 5 w 65536)) else
  if w / 4 % 524288 = 16 then some (.recv (fld 5 w 2097152) (fld 1 w 2) (fld 1 w 1)) else
  if w % 2097152 = 128 then some (.qstat (fld 5 w 2097152)) else
  none

/-- Major 0x1B: the rows of R252 in it. -/
def decodeMajor1B (w : Nat) : Option Instr :=
  if w / 2 % 1024 = 0 then some (.gcopy (fld 5 w 2097152) (fld 5 w 65536) (fld 5 w 2048) (fld 1 w 1)) else
  if w / 2 % 1024 = 32 then some (.gsend (fld 5 w 2097152) (fld 5 w 65536) (fld 5 w 2048) (fld 1 w 1)) else
  if w / 2 % 1024 = 64 then some (.gcmp (fld 5 w 2097152) (fld 5 w 65536) (fld 5 w 2048) (fld 1 w 1)) else
  if w / 2 % 1024 = 96 then some (.ghash (fld 5 w 2097152) (fld 5 w 65536) (fld 5 w 2048) (fld 1 w 1)) else
  if w % 2048 = 256 then some (.gfree (fld 5 w 2097152) (fld 5 w 65536) (fld 5 w 2048)) else
  if w % 2048 = 320 then some (.oalloc (fld 5 w 2097152) (fld 5 w 65536) (fld 5 w 2048)) else
  if w % 2048 = 384 then some (.ostp (fld 5 w 2097152) (fld 5 w 65536) (fld 5 w 2048)) else
  if w % 65536 = 448 then some (.gstat (fld 5 w 2097152) (fld 5 w 65536)) else
  none

/-- Major 0x1C: the rows of R252 in it. -/
def decodeMajor1C (w : Nat) : Option Instr :=
  if w % 4096 = 0 ∧ w / 131072 % 32 = 0 then some (.hdef (fld 4 w 4194304) (fld 5 w 4096)) else
  if w % 131072 = 64 then some (.hwait (fld 4 w 4194304) (fld 5 w 131072)) else
  if w % 131072 = 65 then some (.hwaitP (fld 4 w 4194304) (fld 5 w 131072)) else
  if w % 4096 = 66 ∧ w / 4194304 % 16 = 0 then some (.hwaitT (fld 5 w 131072) (fld 5 w 4096)) else
  if w % 131072 = 128 then some (.advp (fld 4 w 4194304) (fld 5 w 131072)) else
  if w % 131072 = 192 then some (.advc (fld 4 w 4194304) (fld 5 w 131072)) else
  if w % 4096 = 193 ∧ w / 4194304 % 16 = 0 then some (.advcL (fld 5 w 131072) (fld 5 w 4096)) else
  if w % 4096 = 256 ∧ w / 131072 % 32 = 0 then some (.hstat (fld 4 w 4194304) (fld 5 w 4096)) else
  none

/-- Major 0x1D: the rows of R252 in it. -/
def decodeMajor1D (w : Nat) : Option Instr :=
  if w % 65536 = 0 then some (.bcopy (fld 5 w 2097152) (fld 5 w 65536)) else
  if w % 65536 = 64 then some (.bcast (fld 5 w 2097152) (fld 5 w 65536)) else
  if w % 65536 = 128 then some (.deal (fld 5 w 2097152) (fld 5 w 65536)) else
  if w / 8 % 8192 = 24 then some (.cstat (fld 5 w 2097152) (fld 5 w 65536) (fld 3 w 1)) else
  none

/-- Major 0x1E: the rows of R252 in it. -/
def decodeMajor1E (w : Nat) : Option Instr :=
  if w % 8 = 0 ∧ w / 4194304 % 16 = 0 then some (.mma (fld 4 w 262144) (fld 4 w 16384) (fld 6 w 256) (fld 3 w 32) (fld 1 w 16) (fld 1 w 8)) else
  if w % 67108864 = 4194304 then some .mclr else
  if w / 8 % 2 = 0 ∧ w / 512 % 256 = 0 ∧ w / 4194304 % 16 = 2 then some (.mdrain (fld 5 w 131072) (fld 1 w 256) (fld 3 w 32) (fld 1 w 16) (fld 3 w 1)) else
  if w % 131072 = 0 ∧ w / 4194304 % 16 = 3 then some (.mmap (fld 5 w 131072)) else
  if w % 4096 = 0 ∧ w / 4194304 % 16 = 4 then some (.wbload (fld 5 w 131072) (fld 5 w 4096)) else
  if w % 67108864 = 20971520 then some .mswap else
  if w % 4096 = 0 ∧ w / 4194304 % 16 = 6 then some (.mpert (fld 5 w 131072) (fld 5 w 4096)) else
  if w % 131072 = 0 ∧ w / 4194304 % 16 = 7 then some (.mchk (fld 5 w 131072)) else
  if w % 128 = 0 ∧ w / 4096 % 32 = 0 ∧ w / 4194304 % 16 = 8 then some (.mstat (fld 5 w 131072) (fld 5 w 128)) else
  none

/-- Major 0x1F: the rows of R252 in it. -/
def decodeMajor1F (w : Nat) : Option Instr :=
  if w / 2 % 32768 = 0 then some (.replay (fld 5 w 2097152) (fld 5 w 65536) (fld 1 w 1)) else
  if w % 2048 = 64 ∧ w / 2097152 % 32 = 0 then some (.tlbinv (fld 5 w 65536) (fld 5 w 2048)) else
  if w % 2048 = 128 then some (.kill (fld 5 w 2097152) (fld 5 w 65536) (fld 5 w 2048)) else
  if w % 2048 = 192 then some (.fqpop (fld 5 w 2097152) (fld 5 w 65536) (fld 5 w 2048)) else
  if w % 65536 = 256 then some (.moncall (fld 5 w 2097152) (fld 5 w 65536)) else
  none

/-- Major 0x20: the rows of R252 in it. -/
def decodeMajor20 (w : Nat) : Option Instr :=
  if w / 4194304 % 16 = 0 then some (.vaddF (fld 3 w 524288) (fld 5 w 16384) (fld 5 w 512) (fld 5 w 16) (fld 4 w 1)) else
  if w / 4194304 % 16 = 1 then some (.vsubF (fld 3 w 524288) (fld 5 w 16384) (fld 5 w 512) (fld 5 w 16) (fld 4 w 1)) else
  if w / 4194304 % 16 = 2 then some (.vmulF (fld 3 w 524288) (fld 5 w 16384) (fld 5 w 512) (fld 5 w 16) (fld 4 w 1)) else
  if w / 4194304 % 16 = 3 then some (.vfma (fld 3 w 524288) (fld 5 w 16384) (fld 5 w 512) (fld 5 w 16) (fld 4 w 1)) else
  if w / 4194304 % 16 = 4 then some (.vminF (fld 3 w 524288) (fld 5 w 16384) (fld 5 w 512) (fld 5 w 16) (fld 4 w 1)) else
  if w / 4194304 % 16 = 5 then some (.vmaxF (fld 3 w 524288) (fld 5 w 16384) (fld 5 w 512) (fld 5 w 16) (fld 4 w 1)) else
  if w / 4194304 % 16 = 6 then some (.vdiv (fld 3 w 524288) (fld 5 w 16384) (fld 5 w 512) (fld 5 w 16) (fld 4 w 1)) else
  if w / 16 % 32 = 0 ∧ w / 4194304 % 16 = 7 then some (.vsqrt (fld 3 w 524288) (fld 5 w 16384) (fld 5 w 512) (fld 4 w 1)) else
  if w / 16 % 32 = 0 ∧ w / 4194304 % 16 = 8 then some (.vabsF (fld 3 w 524288) (fld 5 w 16384) (fld 5 w 512) (fld 4 w 1)) else
  none

/-- Major 0x21: the rows of R252 in it. -/
def decodeMajor21 (w : Nat) : Option Instr :=
  if w / 4194304 % 16 = 0 then some (.vaddI (fld 3 w 524288) (fld 5 w 16384) (fld 5 w 512) (fld 5 w 16) (fld 4 w 1)) else
  if w / 4194304 % 16 = 1 then some (.vsubI (fld 3 w 524288) (fld 5 w 16384) (fld 5 w 512) (fld 5 w 16) (fld 4 w 1)) else
  if w / 4194304 % 16 = 2 then some (.vmulI (fld 3 w 524288) (fld 5 w 16384) (fld 5 w 512) (fld 5 w 16) (fld 4 w 1)) else
  if w / 4194304 % 16 = 3 then some (.vmulh (fld 3 w 524288) (fld 5 w 16384) (fld 5 w 512) (fld 5 w 16) (fld 4 w 1)) else
  if w / 4194304 % 16 = 4 then some (.vminI (fld 3 w 524288) (fld 5 w 16384) (fld 5 w 512) (fld 5 w 16) (fld 4 w 1)) else
  if w / 4194304 % 16 = 5 then some (.vmaxI (fld 3 w 524288) (fld 5 w 16384) (fld 5 w 512) (fld 5 w 16) (fld 4 w 1)) else
  if w / 16 % 32 = 0 ∧ w / 4194304 % 16 = 6 then some (.vabsI (fld 3 w 524288) (fld 5 w 16384) (fld 5 w 512) (fld 4 w 1)) else
  none

/-- Major 0x22: the rows of R252 in it. -/
def decodeMajor22 (w : Nat) : Option Instr :=
  if w / 4194304 % 16 = 0 then some (.vand (fld 3 w 524288) (fld 5 w 16384) (fld 5 w 512) (fld 5 w 16) (fld 4 w 1)) else
  if w / 4194304 % 16 = 1 then some (.vor (fld 3 w 524288) (fld 5 w 16384) (fld 5 w 512) (fld 5 w 16) (fld 4 w 1)) else
  if w / 4194304 % 16 = 2 then some (.vxor (fld 3 w 524288) (fld 5 w 16384) (fld 5 w 512) (fld 5 w 16) (fld 4 w 1)) else
  if w / 4194304 % 16 = 3 then some (.vshl (fld 3 w 524288) (fld 5 w 16384) (fld 5 w 512) (fld 5 w 16) (fld 4 w 1)) else
  if w / 4194304 % 16 = 4 then some (.vshr (fld 3 w 524288) (fld 5 w 16384) (fld 5 w 512) (fld 5 w 16) (fld 4 w 1)) else
  if w / 4194304 % 16 = 5 then some (.vshra (fld 3 w 524288) (fld 5 w 16384) (fld 5 w 512) (fld 5 w 16) (fld 4 w 1)) else
  none

/-- Major 0x23: the rows of R252 in it. -/
def decodeMajor23 (w : Nat) : Option Instr :=
  if w / 262144 % 2 = 0 ∧ w / 4194304 % 16 = 0 then some (.vcmpeq (fld 3 w 524288) (fld 1 w 131072) (fld 3 w 16384) (fld 5 w 512) (fld 5 w 16) (fld 4 w 1)) else
  if w / 262144 % 2 = 0 ∧ w / 4194304 % 16 = 1 then some (.vcmpne (fld 3 w 524288) (fld 1 w 131072) (fld 3 w 16384) (fld 5 w 512) (fld 5 w 16) (fld 4 w 1)) else
  if w / 262144 % 2 = 0 ∧ w / 4194304 % 16 = 2 then some (.vcmplt (fld 3 w 524288) (fld 1 w 131072) (fld 3 w 16384) (fld 5 w 512) (fld 5 w 16) (fld 4 w 1)) else
  if w / 262144 % 2 = 0 ∧ w / 4194304 % 16 = 3 then some (.vcmple (fld 3 w 524288) (fld 1 w 131072) (fld 3 w 16384) (fld 5 w 512) (fld 5 w 16) (fld 4 w 1)) else
  if w / 4194304 % 16 = 4 then some (.vsel (fld 3 w 524288) (fld 5 w 16384) (fld 5 w 512) (fld 5 w 16) (fld 4 w 1)) else
  if w / 128 % 4 = 0 ∧ w / 4096 % 4 = 0 ∧ w / 131072 % 512 = 160 then some (.kand (fld 3 w 16384) (fld 3 w 512) (fld 3 w 16) (fld 4 w 1)) else
  if w / 128 % 4 = 0 ∧ w / 4096 % 4 = 0 ∧ w / 131072 % 512 = 192 then some (.kor (fld 3 w 16384) (fld 3 w 512) (fld 3 w 16) (fld 4 w 1)) else
  if w / 128 % 4 = 0 ∧ w / 4096 % 4 = 0 ∧ w / 131072 % 512 = 224 then some (.kxor (fld 3 w 16384) (fld 3 w 512) (fld 3 w 16) (fld 4 w 1)) else
  if w / 16 % 32 = 0 ∧ w / 4096 % 4 = 0 ∧ w / 131072 % 512 = 256 then some (.knot (fld 3 w 16384) (fld 3 w 512) (fld 4 w 1)) else
  if w / 16 % 32 = 0 ∧ w / 4096 % 4 = 0 ∧ w / 524288 % 128 = 72 then some (.kpopc (fld 5 w 16384) (fld 3 w 512) (fld 4 w 1)) else
  none

/-- Major 0x24: the rows of R252 in it. -/
def decodeMajor24 (w : Nat) : Option Instr :=
  if w / 16 % 1024 = 0 ∧ w / 4194304 % 16 = 0 then some (.vld (fld 3 w 524288) (fld 5 w 16384) (fld 4 w 1)) else
  if w / 16 % 1024 = 0 ∧ w / 4194304 % 16 = 1 then some (.vst (fld 3 w 524288) (fld 5 w 16384) (fld 4 w 1)) else
  if w / 16 % 1024 = 0 ∧ w / 4194304 % 16 = 2 then some (.vlds (fld 3 w 524288) (fld 5 w 16384) (fld 4 w 1)) else
  if w / 16 % 1024 = 0 ∧ w / 4194304 % 16 = 3 then some (.vsts (fld 3 w 524288) (fld 5 w 16384) (fld 4 w 1)) else
  if w / 512 % 32 = 0 ∧ w / 4194304 % 16 = 4 then some (.vgath (fld 3 w 524288) (fld 5 w 16384) (fld 5 w 16) (fld 4 w 1)) else
  if w / 512 % 32 = 0 ∧ w / 4194304 % 16 = 5 then some (.vscat (fld 3 w 524288) (fld 5 w 16384) (fld 5 w 16) (fld 4 w 1)) else
  none

/-- Major 0x25: the rows of R252 in it. -/
def decodeMajor25 (w : Nat) : Option Instr :=
  if w / 16 % 1024 = 0 ∧ w / 4194304 % 16 = 0 then some (.vbcast (fld 3 w 524288) (fld 5 w 16384) (fld 4 w 1)) else
  if w / 4194304 % 16 = 1 then some (.vperm (fld 3 w 524288) (fld 5 w 16384) (fld 5 w 512) (fld 5 w 16) (fld 4 w 1)) else
  if w / 16 % 32 = 0 ∧ w / 4194304 % 16 = 2 then some (.vslide (fld 3 w 524288) (fld 5 w 16384) (fld 5 w 512) (fld 4 w 1)) else
  if w / 64 % 2 = 0 ∧ w / 256 % 2 = 0 ∧ w / 4194304 % 16 = 3 then some (.vred (fld 3 w 524288) (fld 5 w 16384) (fld 5 w 512) (fld 1 w 128) (fld 2 w 16) (fld 4 w 1)) else
  if w / 16 % 32 = 0 ∧ w / 4194304 % 16 = 4 then some (.vmovx (fld 3 w 524288) (fld 5 w 16384) (fld 5 w 512) (fld 4 w 1)) else
  if w / 16 % 1024 = 0 ∧ w / 4194304 % 16 = 5 then some (.vidx (fld 3 w 524288) (fld 5 w 16384) (fld 4 w 1)) else
  none

/-- Major 0x26: the rows of R252 in it. -/
def decodeMajor26 (w : Nat) : Option Instr :=
  if w / 4194304 % 16 = 0 then some (.vcvt (fld 3 w 524288) (fld 5 w 16384) (fld 5 w 512) (fld 1 w 256) (fld 1 w 128) (fld 3 w 16) (fld 4 w 1)) else
  if w / 4194304 % 16 = 1 then some (.vqnt (fld 3 w 524288) (fld 5 w 16384) (fld 5 w 512) (fld 5 w 16) (fld 4 w 1)) else
  if w / 4194304 % 16 = 2 then some (.vdqnt (fld 3 w 524288) (fld 5 w 16384) (fld 5 w 512) (fld 5 w 16) (fld 4 w 1)) else
  if w / 256 % 2 = 0 ∧ w / 4194304 % 16 = 3 then some (.vsfu (fld 3 w 524288) (fld 5 w 16384) (fld 5 w 512) (fld 4 w 16) (fld 4 w 1)) else
  none

/-- Major 0x27: the rows of R252 in it. -/
def decodeMajor27 (w : Nat) : Option Instr :=
  if w / 16 % 1024 = 0 ∧ w / 524288 % 128 = 0 then some (.vclaim (fld 5 w 16384) (fld 4 w 1)) else
  if w / 16 % 4194304 = 262144 then some (.vfence (fld 4 w 1)) else
  if w / 16 % 1024 = 0 ∧ w / 524288 % 128 = 16 then some (.vstat (fld 5 w 16384) (fld 4 w 1)) else
  if w / 16 % 1024 = 0 ∧ w / 524288 % 128 = 24 then some (.vpopq (fld 5 w 16384) (fld 4 w 1)) else
  none

/-- The instruction whose fixed bits a word has, before its type code and field values are checked. -/
def rawDecode (w : Nat) : Option Instr :=
  match w / 67108864 % 64 with
  | 1 => decodeMajor01 w
  | 2 => decodeMajor02 w
  | 3 => decodeMajor03 w
  | 4 => decodeMajor04 w
  | 5 => decodeMajor05 w
  | 6 => decodeMajor06 w
  | 7 => decodeMajor07 w
  | 8 => decodeMajor08 w
  | 9 => decodeMajor09 w
  | 10 => decodeMajor0A w
  | 11 => decodeMajor0B w
  | 12 => decodeMajor0C w
  | 13 => decodeMajor0D w
  | 14 => decodeMajor0E w
  | 15 => decodeMajor0F w
  | 16 => decodeMajor10 w
  | 17 => decodeMajor11 w
  | 18 => decodeMajor12 w
  | 19 => decodeMajor13 w
  | 20 => decodeMajor14 w
  | 21 => decodeMajor15 w
  | 22 => decodeMajor16 w
  | 23 => decodeMajor17 w
  | 24 => decodeMajor18 w
  | 25 => decodeMajor19 w
  | 26 => decodeMajor1A w
  | 27 => decodeMajor1B w
  | 28 => decodeMajor1C w
  | 29 => decodeMajor1D w
  | 30 => decodeMajor1E w
  | 31 => decodeMajor1F w
  | 32 => decodeMajor20 w
  | 33 => decodeMajor21 w
  | 34 => decodeMajor22 w
  | 35 => decodeMajor23 w
  | 36 => decodeMajor24 w
  | 37 => decodeMajor25 w
  | 38 => decodeMajor26 w
  | 39 => decodeMajor27 w
  | _ => none

/-- Step 3 of R233: the op field of the word's major holds a value that R252 assigns. Majors that hold a single
instruction have no op field. -/
def opAssigned (w : Nat) : Bool :=
  match w / 67108864 % 64 with
  | 1 => decide (w / 64 % 32 ≤ 29)
  | 10 => decide (w / 64 % 32 ≤ 9)
  | 13 => decide (w / 64 % 32 ≤ 3)
  | 22 => decide (w / 64 % 32 ≤ 8)
  | 23 => decide (w / 64 % 32 ≤ 3)
  | 24 => decide (w / 64 % 32 ≤ 12)
  | 25 => decide (w / 64 % 32 ≤ 5)
  | 26 => decide (w / 64 % 32 ≤ 2)
  | 27 => decide (w / 64 % 32 ≤ 7)
  | 28 => decide (w / 64 % 64 ≤ 4)
  | 29 => decide (w / 64 % 32 ≤ 3)
  | 30 => decide (w / 4194304 % 16 ≤ 8)
  | 31 => decide (w / 64 % 32 ≤ 4)
  | 32 => decide (w / 4194304 % 16 ≤ 8)
  | 33 => decide (w / 4194304 % 16 ≤ 6)
  | 34 => decide (w / 4194304 % 16 ≤ 5)
  | 35 => decide (w / 4194304 % 16 ≤ 9)
  | 36 => decide (w / 4194304 % 16 ≤ 5)
  | 37 => decide (w / 4194304 % 16 ≤ 5)
  | 38 => decide (w / 4194304 % 16 ≤ 3)
  | 39 => decide (w / 4194304 % 16 ≤ 3)
  | _ => true

/-- A sub-form that no instruction of the op has: a form code of major 0x1C (17 R319), a function code of ESTQ
(19 R372). It is illegal under step 5 of R233. -/
def noSuchForm (w : Nat) : Bool :=
  (decide (w / 67108864 % 64 = 28) && decide (w % 4 ≠ 0)) ||
  (decide (w / 67108864 % 64 = 25) && decide (w / 64 % 32 = 4) && decide (3 ≤ w % 8))

/-- Decoding of a word (R233): the instruction, or the first step that fails. -/
def decode (w : Nat) : Except DecodeError Instr :=
  if w / 67108864 % 64 = 0 then .error .majorZero
  else if 40 ≤ w / 67108864 % 64 then .error .majorReserved
  else match rawDecode w with
    | none =>
      if opAssigned w then
        if noSuchForm w then .error .fieldIllegal else .error .reservedNonzero
      else .error .opUnassigned
    | some i =>
      if i.typeOk then
        if i.fieldsOk then .ok i else .error .fieldIllegal
      else .error .typeIllegal

/-- Decoding of bytes: one word, little-endian (R232), and the bytes after it. -/
def decodeBytes : List Byte → Except DecodeError (Instr × List Byte)
  | b0 :: b1 :: b2 :: b3 :: rest =>
    match decode (b0.toNat + 256 * b1.toNat + 65536 * b2.toNat + 16777216 * b3.toNat) with
    | .ok i => .ok (i, rest)
    | .error e => .error e
  | _ => .error .shortInput

/-- The four bytes of a word as memory holds them, lowest address first (R3, R232). -/
def wordBytes (w : Nat) : List Byte :=
  [BitVec.ofNat 8 w, BitVec.ofNat 8 (w / 256), BitVec.ofNat 8 (w / 65536), BitVec.ofNat 8 (w / 16777216)]

/-- The instruction that the decoder reads from an instruction whose bits are `w`, numbered as
spec/opcode_table.json numbers them; every instruction is one word of 32 bits. -/
def decodeTableWord (nbits w : Nat) : Option Instr :=
  if nbits ≤ 32 then
    match decodeBytes (wordBytes (w % 2 ^ nbits)) with
    | .ok (i, _) => some i
    | .error _ => none
  else none

/-- The word of an instruction, from the formats of R234 and the op values of R252. A row without an encoding has
no word: it maps to the all-zero word, which is never an instruction (R233 step 1), and ILLEGAL_INSN_WORD to the word it carries. -/
def encode : Instr → Nat
  | .add d a b => 0x04000000 + d.toNat * 2097152 + a.toNat * 65536 + b.toNat * 2048
  | .sub d a b => 0x04000040 + d.toNat * 2097152 + a.toNat * 65536 + b.toNat * 2048
  | .mul d a b => 0x04000080 + d.toNat * 2097152 + a.toNat * 65536 + b.toNat * 2048
  | .mulh d a b => 0x040000C0 + d.toNat * 2097152 + a.toNat * 65536 + b.toNat * 2048
  | .mulhn d a b => 0x04000100 + d.toNat * 2097152 + a.toNat * 65536 + b.toNat * 2048
  | .div d a b => 0x04000140 + d.toNat * 2097152 + a.toNat * 65536 + b.toNat * 2048
  | .divn d a b => 0x04000180 + d.toNat * 2097152 + a.toNat * 65536 + b.toNat * 2048
  | .rem d a b => 0x040001C0 + d.toNat * 2097152 + a.toNat * 65536 + b.toNat * 2048
  | .remn d a b => 0x04000200 + d.toNat * 2097152 + a.toNat * 65536 + b.toNat * 2048
  | .and d a b => 0x04000240 + d.toNat * 2097152 + a.toNat * 65536 + b.toNat * 2048
  | .or d a b => 0x04000280 + d.toNat * 2097152 + a.toNat * 65536 + b.toNat * 2048
  | .xor d a b => 0x040002C0 + d.toNat * 2097152 + a.toNat * 65536 + b.toNat * 2048
  | .andn d a b => 0x04000300 + d.toNat * 2097152 + a.toNat * 65536 + b.toNat * 2048
  | .shl d a b => 0x04000340 + d.toNat * 2097152 + a.toNat * 65536 + b.toNat * 2048
  | .shr d a b => 0x04000380 + d.toNat * 2097152 + a.toNat * 65536 + b.toNat * 2048
  | .shra d a b => 0x040003C0 + d.toNat * 2097152 + a.toNat * 65536 + b.toNat * 2048
  | .rotl d a b => 0x04000400 + d.toNat * 2097152 + a.toNat * 65536 + b.toNat * 2048
  | .min d a b => 0x04000440 + d.toNat * 2097152 + a.toNat * 65536 + b.toNat * 2048
  | .max d a b => 0x04000480 + d.toNat * 2097152 + a.toNat * 65536 + b.toNat * 2048
  | .minn d a b => 0x040004C0 + d.toNat * 2097152 + a.toNat * 65536 + b.toNat * 2048
  | .maxn d a b => 0x04000500 + d.toNat * 2097152 + a.toNat * 65536 + b.toNat * 2048
  | .slt d a b => 0x04000540 + d.toNat * 2097152 + a.toNat * 65536 + b.toNat * 2048
  | .sltn d a b => 0x04000580 + d.toNat * 2097152 + a.toNat * 65536 + b.toNat * 2048
  | .sel d a b c => 0x040005C0 + d.toNat * 2097152 + a.toNat * 65536 + b.toNat * 2048 + c.toNat
  | .clz d a => 0x04000600 + d.toNat * 2097152 + a.toNat * 65536
  | .ctz d a => 0x04000640 + d.toNat * 2097152 + a.toNat * 65536
  | .popc d a => 0x04000680 + d.toNat * 2097152 + a.toNat * 65536
  | .ext d a b l => 0x040006C0 + d.toNat * 2097152 + a.toNat * 65536 + b.toNat * 2048 + l.toNat
  | .ins d a b l => 0x04000700 + d.toNat * 2097152 + a.toNat * 65536 + b.toNat * 2048 + l.toNat
  | .adds d a b => 0x04000740 + d.toNat * 2097152 + a.toNat * 65536 + b.toNat * 2048
  | .addi d a i => 0x08000000 + d.toNat * 2097152 + a.toNat * 65536 + i.toNat
  | .andi d a i => 0x0C000000 + d.toNat * 2097152 + a.toNat * 65536 + i.toNat
  | .ori d a i => 0x10000000 + d.toNat * 2097152 + a.toNat * 65536 + i.toNat
  | .xori d a i => 0x14000000 + d.toNat * 2097152 + a.toNat * 65536 + i.toNat
  | .shi d a k s => 0x18000000 + d.toNat * 2097152 + a.toNat * 65536 + k.toNat * 64 + s.toNat
  | .slti d a i => 0x1C000000 + d.toNat * 2097152 + a.toNat * 65536 + i.toNat
  | .sltni d a i => 0x20000000 + d.toNat * 2097152 + a.toNat * 65536 + i.toNat
  | .lit d l i => 0x24000000 + d.toNat * 2097152 + l.toNat * 524288 + i.toNat
  | .litk d l i => 0x24040000 + d.toNat * 2097152 + l.toNat * 524288 + i.toNat
  | .fadd d a b r p => 0x28000000 + d.toNat * 2097152 + a.toNat * 65536 + b.toNat * 2048 + r.toNat * 2 + p.toNat
  | .fsub d a b r p => 0x28000040 + d.toNat * 2097152 + a.toNat * 65536 + b.toNat * 2048 + r.toNat * 2 + p.toNat
  | .fmul d a b r p => 0x28000080 + d.toNat * 2097152 + a.toNat * 65536 + b.toNat * 2048 + r.toNat * 2 + p.toNat
  | .fdiv d a b r p => 0x280000C0 + d.toNat * 2097152 + a.toNat * 65536 + b.toNat * 2048 + r.toNat * 2 + p.toNat
  | .fsqrt d a r p => 0x28000100 + d.toNat * 2097152 + a.toNat * 65536 + r.toNat * 2 + p.toNat
  | .ffma d a b r p => 0x28000140 + d.toNat * 2097152 + a.toNat * 65536 + b.toNat * 2048 + r.toNat * 2 + p.toNat
  | .fmin d a b p => 0x28000180 + d.toNat * 2097152 + a.toNat * 65536 + b.toNat * 2048 + p.toNat
  | .fmax d a b p => 0x280001C0 + d.toNat * 2097152 + a.toNat * 65536 + b.toNat * 2048 + p.toNat
  | .fcmp d a b c p => 0x28000200 + d.toNat * 2097152 + a.toNat * 65536 + b.toNat * 2048 + c.toNat * 16 + p.toNat
  | .fcvt d a t s r => 0x28000240 + d.toNat * 2097152 + a.toNat * 65536 + t.toNat * 8192 + s.toNat * 2048 + r.toNat * 2
  | .ld d b z s o => 0x2C000000 + d.toNat * 2097152 + b.toNat * 65536 + z.toNat * 8192 + s.toNat * 4096 + o.toNat
  | .st d b z o => 0x30000000 + d.toNat * 2097152 + b.toNat * 65536 + z.toNat * 8192 + o.toNat
  | .ldv d a b => 0x34000000 + d.toNat * 2097152 + a.toNat * 65536 + b.toNat * 2048
  | .stv d a b => 0x34000040 + d.toNat * 2097152 + a.toNat * 65536 + b.toNat * 2048
  | .reclaim a b => 0x34000080 + a.toNat * 65536 + b.toNat * 2048
  | .verq d a => 0x340000C0 + d.toNat * 2097152 + a.toNat * 65536
  | .beq a b o => 0x38000000 + a.toNat * 2097152 + b.toNat * 65536 + o.toNat
  | .bne a b o => 0x3C000000 + a.toNat * 2097152 + b.toNat * 65536 + o.toNat
  | .blt a b o => 0x40000000 + a.toNat * 2097152 + b.toNat * 65536 + o.toNat
  | .bge a b o => 0x44000000 + a.toNat * 2097152 + b.toNat * 65536 + o.toNat
  | .bltn a b o => 0x48000000 + a.toNat * 2097152 + b.toNat * 65536 + o.toNat
  | .bgen a b o => 0x4C000000 + a.toNat * 2097152 + b.toNat * 65536 + o.toNat
  | .jal d o => 0x50000000 + d.toNat * 2097152 + o.toNat
  | .jalr d a i => 0x54000000 + d.toNat * 2097152 + a.toNat * 65536 + i.toNat
  | .trap i => 0x58000000 + i.toNat * 2048
  | .tret => 0x58000040
  | .uiret => 0x58000080
  | .mfs d n => 0x580000C0 + d.toNat * 2097152 + n.toNat * 2048
  | .mts s n => 0x58000100 + s.toNat * 2097152 + n.toNat * 2048
  | .wfi => 0x58000140
  | .halt => 0x58000180
  | .yield => 0x580001C0
  | .rdctr d c => 0x58000200 + d.toNat * 2097152 + c.toNat
  | .start d a b => 0x5C000000 + d.toNat * 2097152 + a.toNat * 65536 + b.toNat * 2048
  | .joinh d a => 0x5C000040 + d.toNat * 2097152 + a.toNat * 65536
  | .cont a => 0x5C000080 + a.toNat * 65536
  | .launch d a => 0x5C0000C0 + d.toNat * 2097152 + a.toNat * 65536
  | .amo d a b w o => 0x60000000 + d.toNat * 2097152 + a.toNat * 65536 + b.toNat * 2048 + w.toNat * 16 + o.toNat
  | .amoLock d a b => 0x6000000B + d.toNat * 2097152 + a.toNat * 65536 + b.toNat * 2048
  | .amoUnlock d a b => 0x6000000C + d.toNat * 2097152 + a.toNat * 65536 + b.toNat * 2048
  | .amoTrylock d a b => 0x6000000D + d.toNat * 2097152 + a.toNat * 65536 + b.toNat * 2048
  | .amod d a b w o => 0x60000040 + d.toNat * 2097152 + a.toNat * 65536 + b.toNat * 2048 + w.toNat * 16 + o.toNat
  | .red a b w o => 0x60000080 + a.toNat * 65536 + b.toNat * 2048 + w.toNat * 16 + o.toNat
  | .redf d a b t o => 0x600000C0 + d.toNat * 2097152 + a.toNat * 65536 + b.toNat * 2048 + t.toNat * 4 + o.toNat
  | .arrive t => 0x60000100 + t.toNat
  | .waitb t => 0x60000140 + t.toNat
  | .bmask a => 0x60000180 + a.toNat * 65536
  | .fencel => 0x600001C0
  | .fenceh s => 0x60000200 + s.toNat
  | .fence s => 0x60000240 + s.toNat
  | .ecadd d a b => 0x60000280 + d.toNat * 2097152 + a.toNat * 65536 + b.toNat * 2048
  | .ecwait d a b => 0x600002C0 + d.toNat * 2097152 + a.toNat * 65536 + b.toNat * 2048
  | .ectrig d a b => 0x60000300 + d.toNat * 2097152 + a.toNat * 65536 + b.toNat * 2048
  | .hold d a b => 0x64000000 + d.toNat * 2097152 + a.toNat * 65536 + b.toNat * 2048
  | .relq d a k => 0x64000040 + d.toNat * 2097152 + a.toNat * 65536 + k.toNat
  | .heir d a b k => 0x64000080 + d.toNat * 2097152 + a.toNat * 65536 + b.toNat * 2048 + k.toNat
  | .promise d a b => 0x640000C0 + d.toNat * 2097152 + a.toNat * 65536 + b.toNat * 2048
  | .estq d a b k => 0x64000100 + d.toNat * 2097152 + a.toNat * 65536 + b.toNat * 2048 + k.toNat * 8
  | .estqPop d b => 0x64000101 + d.toNat * 2097152 + b.toNat * 2048
  | .estqWait d b => 0x64000102 + d.toNat * 2097152 + b.toNat * 2048
  | .orphcl d a => 0x64000140 + d.toNat * 2097152 + a.toNat * 65536
  | .send d a => 0x68000000 + d.toNat * 2097152 + a.toNat * 65536
  | .recv d p w => 0x68000040 + d.toNat * 2097152 + p.toNat * 2 + w.toNat
  | .qstat d => 0x68000080 + d.toNat * 2097152
  | .gcopy d a b v => 0x6C000000 + d.toNat * 2097152 + a.toNat * 65536 + b.toNat * 2048 + v.toNat
  | .gsend d a b v => 0x6C000040 + d.toNat * 2097152 + a.toNat * 65536 + b.toNat * 2048 + v.toNat
  | .gcmp d a b v => 0x6C000080 + d.toNat * 2097152 + a.toNat * 65536 + b.toNat * 2048 + v.toNat
  | .ghash d a b v => 0x6C0000C0 + d.toNat * 2097152 + a.toNat * 65536 + b.toNat * 2048 + v.toNat
  | .gfree d a b => 0x6C000100 + d.toNat * 2097152 + a.toNat * 65536 + b.toNat * 2048
  | .oalloc d a b => 0x6C000140 + d.toNat * 2097152 + a.toNat * 65536 + b.toNat * 2048
  | .ostp d a b => 0x6C000180 + d.toNat * 2097152 + a.toNat * 65536 + b.toNat * 2048
  | .gstat d a => 0x6C0001C0 + d.toNat * 2097152 + a.toNat * 65536
  | .hdef h a => 0x70000000 + h.toNat * 4194304 + a.toNat * 4096
  | .hwait h n => 0x70000040 + h.toNat * 4194304 + n.toNat * 131072
  | .hwaitP h n => 0x70000041 + h.toNat * 4194304 + n.toNat * 131072
  | .hwaitT n a => 0x70000042 + n.toNat * 131072 + a.toNat * 4096
  | .advp h n => 0x70000080 + h.toNat * 4194304 + n.toNat * 131072
  | .advc h n => 0x700000C0 + h.toNat * 4194304 + n.toNat * 131072
  | .advcL n a => 0x700000C1 + n.toNat * 131072 + a.toNat * 4096
  | .hstat h a => 0x70000100 + h.toNat * 4194304 + a.toNat * 4096
  | .bcopy d a => 0x74000000 + d.toNat * 2097152 + a.toNat * 65536
  | .bcast d a => 0x74000040 + d.toNat * 2097152 + a.toNat * 65536
  | .deal d a => 0x74000080 + d.toNat * 2097152 + a.toNat * 65536
  | .cstat d a s => 0x740000C0 + d.toNat * 2097152 + a.toNat * 65536 + s.toNat
  | .mma h w s t z v => 0x78000000 + h.toNat * 262144 + w.toNat * 16384 + s.toNat * 256 + t.toNat * 32 + z.toNat * 16 + v.toNat * 8
  | .mclr => 0x78400000
  | .mdrain a q t u r => 0x78800000 + a.toNat * 131072 + q.toNat * 256 + t.toNat * 32 + u.toNat * 16 + r.toNat
  | .mmap a => 0x78C00000 + a.toNat * 131072
  | .wbload a b => 0x79000000 + a.toNat * 131072 + b.toNat * 4096
  | .mswap => 0x79400000
  | .mpert a b => 0x79800000 + a.toNat * 131072 + b.toNat * 4096
  | .mchk a => 0x79C00000 + a.toNat * 131072
  | .mstat a d => 0x7A000000 + a.toNat * 131072 + d.toNat * 128
  | .replay d a m => 0x7C000000 + d.toNat * 2097152 + a.toNat * 65536 + m.toNat
  | .tlbinv a b => 0x7C000040 + a.toNat * 65536 + b.toNat * 2048
  | .kill d a b => 0x7C000080 + d.toNat * 2097152 + a.toNat * 65536 + b.toNat * 2048
  | .fqpop d a b => 0x7C0000C0 + d.toNat * 2097152 + a.toNat * 65536 + b.toNat * 2048
  | .moncall d a => 0x7C000100 + d.toNat * 2097152 + a.toNat * 65536
  | .vaddF t d a b x => 0x80000000 + t.toNat * 524288 + d.toNat * 16384 + a.toNat * 512 + b.toNat * 16 + x.toNat
  | .vsubF t d a b x => 0x80400000 + t.toNat * 524288 + d.toNat * 16384 + a.toNat * 512 + b.toNat * 16 + x.toNat
  | .vmulF t d a b x => 0x80800000 + t.toNat * 524288 + d.toNat * 16384 + a.toNat * 512 + b.toNat * 16 + x.toNat
  | .vfma t d a b x => 0x80C00000 + t.toNat * 524288 + d.toNat * 16384 + a.toNat * 512 + b.toNat * 16 + x.toNat
  | .vminF t d a b x => 0x81000000 + t.toNat * 524288 + d.toNat * 16384 + a.toNat * 512 + b.toNat * 16 + x.toNat
  | .vmaxF t d a b x => 0x81400000 + t.toNat * 524288 + d.toNat * 16384 + a.toNat * 512 + b.toNat * 16 + x.toNat
  | .vdiv t d a b x => 0x81800000 + t.toNat * 524288 + d.toNat * 16384 + a.toNat * 512 + b.toNat * 16 + x.toNat
  | .vsqrt t d a x => 0x81C00000 + t.toNat * 524288 + d.toNat * 16384 + a.toNat * 512 + x.toNat
  | .vabsF t d a x => 0x82000000 + t.toNat * 524288 + d.toNat * 16384 + a.toNat * 512 + x.toNat
  | .vaddI t d a b x => 0x84000000 + t.toNat * 524288 + d.toNat * 16384 + a.toNat * 512 + b.toNat * 16 + x.toNat
  | .vsubI t d a b x => 0x84400000 + t.toNat * 524288 + d.toNat * 16384 + a.toNat * 512 + b.toNat * 16 + x.toNat
  | .vmulI t d a b x => 0x84800000 + t.toNat * 524288 + d.toNat * 16384 + a.toNat * 512 + b.toNat * 16 + x.toNat
  | .vmulh t d a b x => 0x84C00000 + t.toNat * 524288 + d.toNat * 16384 + a.toNat * 512 + b.toNat * 16 + x.toNat
  | .vminI t d a b x => 0x85000000 + t.toNat * 524288 + d.toNat * 16384 + a.toNat * 512 + b.toNat * 16 + x.toNat
  | .vmaxI t d a b x => 0x85400000 + t.toNat * 524288 + d.toNat * 16384 + a.toNat * 512 + b.toNat * 16 + x.toNat
  | .vabsI t d a x => 0x85800000 + t.toNat * 524288 + d.toNat * 16384 + a.toNat * 512 + x.toNat
  | .vand t d a b x => 0x88000000 + t.toNat * 524288 + d.toNat * 16384 + a.toNat * 512 + b.toNat * 16 + x.toNat
  | .vor t d a b x => 0x88400000 + t.toNat * 524288 + d.toNat * 16384 + a.toNat * 512 + b.toNat * 16 + x.toNat
  | .vxor t d a b x => 0x88800000 + t.toNat * 524288 + d.toNat * 16384 + a.toNat * 512 + b.toNat * 16 + x.toNat
  | .vshl t d a b x => 0x88C00000 + t.toNat * 524288 + d.toNat * 16384 + a.toNat * 512 + b.toNat * 16 + x.toNat
  | .vshr t d a b x => 0x89000000 + t.toNat * 524288 + d.toNat * 16384 + a.toNat * 512 + b.toNat * 16 + x.toNat
  | .vshra t d a b x => 0x89400000 + t.toNat * 524288 + d.toNat * 16384 + a.toNat * 512 + b.toNat * 16 + x.toNat
  | .vcmpeq t c k a b x => 0x8C000000 + t.toNat * 524288 + c.toNat * 131072 + k.toNat * 16384 + a.toNat * 512 + b.toNat * 16 + x.toNat
  | .vcmpne t c k a b x => 0x8C400000 + t.toNat * 524288 + c.toNat * 131072 + k.toNat * 16384 + a.toNat * 512 + b.toNat * 16 + x.toNat
  | .vcmplt t c k a b x => 0x8C800000 + t.toNat * 524288 + c.toNat * 131072 + k.toNat * 16384 + a.toNat * 512 + b.toNat * 16 + x.toNat
  | .vcmple t c k a b x => 0x8CC00000 + t.toNat * 524288 + c.toNat * 131072 + k.toNat * 16384 + a.toNat * 512 + b.toNat * 16 + x.toNat
  | .vsel t d a b x => 0x8D000000 + t.toNat * 524288 + d.toNat * 16384 + a.toNat * 512 + b.toNat * 16 + x.toNat
  | .kand d a b x => 0x8D400000 + d.toNat * 16384 + a.toNat * 512 + b.toNat * 16 + x.toNat
  | .kor d a b x => 0x8D800000 + d.toNat * 16384 + a.toNat * 512 + b.toNat * 16 + x.toNat
  | .kxor d a b x => 0x8DC00000 + d.toNat * 16384 + a.toNat * 512 + b.toNat * 16 + x.toNat
  | .knot d a x => 0x8E000000 + d.toNat * 16384 + a.toNat * 512 + x.toNat
  | .kpopc d a x => 0x8E400000 + d.toNat * 16384 + a.toNat * 512 + x.toNat
  | .vld t d x => 0x90000000 + t.toNat * 524288 + d.toNat * 16384 + x.toNat
  | .vst t d x => 0x90400000 + t.toNat * 524288 + d.toNat * 16384 + x.toNat
  | .vlds t d x => 0x90800000 + t.toNat * 524288 + d.toNat * 16384 + x.toNat
  | .vsts t d x => 0x90C00000 + t.toNat * 524288 + d.toNat * 16384 + x.toNat
  | .vgath t d b x => 0x91000000 + t.toNat * 524288 + d.toNat * 16384 + b.toNat * 16 + x.toNat
  | .vscat t d b x => 0x91400000 + t.toNat * 524288 + d.toNat * 16384 + b.toNat * 16 + x.toNat
  | .vbcast t d x => 0x94000000 + t.toNat * 524288 + d.toNat * 16384 + x.toNat
  | .vperm t d a b x => 0x94400000 + t.toNat * 524288 + d.toNat * 16384 + a.toNat * 512 + b.toNat * 16 + x.toNat
  | .vslide t d a x => 0x94800000 + t.toNat * 524288 + d.toNat * 16384 + a.toNat * 512 + x.toNat
  | .vred t d a c o x => 0x94C00000 + t.toNat * 524288 + d.toNat * 16384 + a.toNat * 512 + c.toNat * 128 + o.toNat * 16 + x.toNat
  | .vmovx t d a x => 0x95000000 + t.toNat * 524288 + d.toNat * 16384 + a.toNat * 512 + x.toNat
  | .vidx t d x => 0x95400000 + t.toNat * 524288 + d.toNat * 16384 + x.toNat
  | .vcvt t d a j i s x => 0x98000000 + t.toNat * 524288 + d.toNat * 16384 + a.toNat * 512 + j.toNat * 256 + i.toNat * 128 + s.toNat * 16 + x.toNat
  | .vqnt t d a b x => 0x98400000 + t.toNat * 524288 + d.toNat * 16384 + a.toNat * 512 + b.toNat * 16 + x.toNat
  | .vdqnt t d a b x => 0x98800000 + t.toNat * 524288 + d.toNat * 16384 + a.toNat * 512 + b.toNat * 16 + x.toNat
  | .vsfu t d a f x => 0x98C00000 + t.toNat * 524288 + d.toNat * 16384 + a.toNat * 512 + f.toNat * 16 + x.toNat
  | .vclaim d x => 0x9C000000 + d.toNat * 16384 + x.toNat
  | .vfence x => 0x9C400000 + x.toNat
  | .vstat d x => 0x9C800000 + d.toNat * 16384 + x.toNat
  | .vpopq d x => 0x9CC00000 + d.toNat * 16384 + x.toNat
  | .coldReset => 0
  | .moduleReset => 0
  | .tenantReset .. => 0
  | .powerRemoval => 0
  | .clusterClockGate .. => 0
  | .a1Exit .. => 0
  | .sleepEntry => 0
  | .wakeExitComplete => 0
  | .powerLimiterInterval .. => 0
  | .dltolWrite .. => 0
  | .tltolWrite .. => 0
  | .registerWrite .. => 0
  | .tackBoundary => 0
  | .flitReceive .. => 0
  | .lockTimeout => 0
  | .referencePllLockLoss => 0
  | .grandmasterRelock => 0
  | .packetAssign .. => 0
  | .relayForward .. => 0
  | .packetReceive .. => 0
  | .endToEndTimer .. => 0
  | .beginDrain => 0
  | .arm => 0
  | .abandon => 0
  | .goDark => 0
  | .relockStart => 0
  | .relockComplete => 0
  | .calendarSwitch => 0
  | .routerPacketArrive .. => 0
  | .butterflyCombine .. => 0
  | .combinedReply .. => 0
  | .splitLoadReply .. => 0
  | .messageDeliver .. => 0
  | .messageResend .. => 0
  | .killReceive .. => 0
  | .killSweepEnd .. => 0
  | .purgeConfirm .. => 0
  | .submission .. => 0
  | .submissionPageWrite .. => 0
  | .submitLaunch .. => 0
  | .submitEcadd .. => 0
  | .submitEcarm .. => 0
  | .submitNop .. => 0
  | .launchEnd .. => 0
  | .cqheadWrite .. => 0
  | .cqcfgWrite .. => 0
  | .ecincWrite .. => 0
  | .vfEnable .. => 0
  | .vfDisable .. => 0
  | .mbregWrite .. => 0
  | .release .. => 0
  | .suspend .. => 0
  | .resume .. => 0
  | .killremote .. => 0
  | .ctrreset .. => 0
  | .fabsend .. => 0
  | .mappte .. => 0
  | .frattr .. => 0
  | .segload .. => 0
  | .quote .. => 0
  | .tencfg .. => 0
  | .trectWrite .. => 0
  | .tecrWrite .. => 0
  | .tsubcfgWrite .. => 0
  | .testrWrite .. => 0
  | .tfwinWrite .. => 0
  | .claim => 0
  | .claimReceive .. => 0
  | .manifestReceive .. => 0
  | .chunkReceive .. => 0
  | .heartbeat => 0
  | .leaderWatchdog => 0
  | .launchPlace .. => 0
  | .preemptVictim => 0
  | .prectlWrite .. => 0
  | .threadResume .. => 0
  | .contRecordArrive .. => 0
  | .continuationStart .. => 0
  | .vectorPassBind .. => 0
  | .vectorPassComplete .. => 0
  | .pcSample .. => 0
  | .counterRotate .. => 0
  | .smpcfgWrite .. => 0
  | .tableWalkComplete .. => 0
  | .faultEntryWrite .. => 0
  | .storeQueueDrain .. => 0
  | .portLineDrain .. => 0
  | .versionUnitRetry .. => 0
  | .remoteWaiterRetry .. => 0
  | .hbmUncorrectable .. => 0
  | .asyncCauseTake .. => 0
  | .trapMessageForward .. => 0
  | .trapMessageTake .. => 0
  | .chreplyWrite .. => 0
  | .watchdog .. => 0
  | .userInterruptTake .. => 0
  | .deathEvent .. => 0
  | .arrivalPost => 0
  | .esthWrite .. => 0
  | .matrixCommandTake .. => 0
  | .mmaAReadEnd .. => 0
  | .matrixCommandComplete .. => 0
  | .wbloadComplete .. => 0
  | .copyCommandComplete .. => 0
  | .gsendOpen .. => 0
  | .gsendObject .. => 0
  | .gsendFinish .. => 0
  | .illegalInsnWord w => w.toNat
  | .graphWalkComplete .. => 0
  | .amodReplyStore .. => 0
  | .prevecWrite .. => 0
  | .msixVectorUnmask .. => 0

/-- The instruction word as a trap value (09_traps_reliability.md R172). -/
def encode64 (i : Instr) : W64 := BitVec.ofNat 64 (encode i)

end Sys2Proof
end

