-- ==== Sys2Proof/Machine/Flags.lean ====
section
/-! DEFINITION. The number formats of 11_number_formats.md: layouts, exact values, rounding with the flags it raises,
conversion, IQ4 blocks and block scales, and the special values of arithmetic. Every value is exact: a sign, a natural
number and a power of two; a result is rounded once. -/

namespace Sys2Proof.Machine

/-! ## Flags (R216), as a set of bits in the order of STATUS.FLAGS -/

/-- NX. -/
def fNX : Nat := 1
/-- UF. -/
def fUF : Nat := 2
/-- OF. -/
def fOF : Nat := 4
/-- DZ. -/
def fDZ : Nat := 8
/-- NV. -/
def fNV : Nat := 16
/-- The union of two sets of flags. -/
def fOr (a b : Nat) : Nat := Nat.lor a b

/-! ## Formats (R208) -/

/-- Which special codes a format has. -/
inductive FmtKind where
  /-- infinity and NaN at the all-ones exponent -/
  | ieee
  /-- E4M3: one NaN per sign, no infinity -/
  | e4m3
  /-- E2M1: neither -/
  | e2m1
deriving DecidableEq, Repr

/-- A floating-point format: exponent bits, fraction bits, bias. -/
structure Fmt where
  eb : Nat
  fb : Nat
  bias : Nat
  kind : FmtKind
deriving DecidableEq, Repr

/-- FP64. -/
def fp64 : Fmt := { eb := 11, fb := 52, bias := 1023, kind := .ieee }
/-- FP32. -/
def fp32 : Fmt := { eb := 8, fb := 23, bias := 127, kind := .ieee }
/-- BF16. -/
def bf16 : Fmt := { eb := 8, fb := 7, bias := 127, kind := .ieee }
/-- FP16. -/
def fp16 : Fmt := { eb := 5, fb := 10, bias := 15, kind := .ieee }
/-- E4M3. -/
def e4m3 : Fmt := { eb := 4, fb := 3, bias := 7, kind := .e4m3 }
/-- E5M2. -/
def e5m2 : Fmt := { eb := 5, fb := 2, bias := 15, kind := .ieee }
/-- E2M1. -/
def e2m1 : Fmt := { eb := 2, fb := 1, bias := 1, kind := .e2m1 }
/-- FA56. -/
def fa56 : Fmt := { eb := 11, fb := 44, bias := 1023, kind := .ieee }

/-- The format of a type code 0 to 5 or 7 (R208); code 6, IQ4, has none. -/
def fmtOf (t : Nat) : Fmt :=
  match t with
  | 0 => fp32 | 1 => bf16 | 2 => fp16 | 3 => e4m3 | 4 => e5m2 | 5 => e2m1 | _ => fa56

/-- Width of a type code in bits. -/
def fmtBits (t : Nat) : Nat :=
  match t with
  | 0 => 32 | 1 => 16 | 2 => 16 | 3 => 8 | 4 => 8 | 5 => 4 | 6 => 4 | _ => 56

/-- The sign bit's weight. -/
def Fmt.signBit (f : Fmt) : Nat := 2 ^ (f.eb + f.fb)
/-- The code of infinity, or the first code above the finite ones. -/
def Fmt.infCode (f : Fmt) : Nat := (2 ^ f.eb - 1) * 2 ^ f.fb
/-- The code of the largest finite magnitude. -/
def Fmt.maxCode (f : Fmt) : Nat :=
  match f.kind with
  | .ieee => f.infCode - 1
  | .e4m3 => 0x7E
  | .e2m1 => 7
/-- The default NaN (R226). -/
def Fmt.nanCode (f : Fmt) : Nat :=
  match f.kind with
  | .ieee => f.infCode + 2 ^ (f.fb - 1)
  | .e4m3 => 0x7F
  | .e2m1 => 7

/-! ## Exact values -/

/-- A value: NaN with its fraction field, infinity, or (−1)^sign · m · 2^e. -/
inductive Num where
  | nan (sign : Bool) (frac fb : Nat)
  | inf (sign : Bool)
  | fin (sign : Bool) (m : Nat) (e : Int)
deriving DecidableEq, Repr

/-- The value of a code (R208). -/
def Fmt.decode (f : Fmt) (c : Nat) : Num :=
  let s := decide (c / f.signBit % 2 = 1)
  let e := c / 2 ^ f.fb % 2 ^ f.eb
  let m := c % 2 ^ f.fb
  let fin : Num :=
    if e = 0 then .fin s m (1 - (f.bias : Int) - f.fb)
    else .fin s (2 ^ f.fb + m) ((e : Int) - f.bias - f.fb)
  match f.kind with
  | .ieee => if e = 2 ^ f.eb - 1 then (if m = 0 then .inf s else .nan s m f.fb) else fin
  | .e4m3 => if c % 128 = 127 then .nan s 7 3 else fin
  | .e2m1 => fin

/-- A NaN is signalling (R209): the top bit of its fraction is clear. -/
def Num.snan : Num → Bool
  | .nan _ f fb => decide (f / 2 ^ (fb - 1) % 2 = 0)
  | _ => false
/-- The value is NaN. -/
def Num.isNan : Num → Bool
  | .nan .. => true
  | _ => false
/-- The value is ±0. -/
def Num.isZero : Num → Bool
  | .fin _ 0 _ => true
  | _ => false
/-- The sign. -/
def Num.sign : Num → Bool
  | .nan s _ _ => s
  | .inf s => s
  | .fin s _ _ => s
/-- The value with another sign. -/
def Num.withSign (n : Num) (s : Bool) : Num :=
  match n with
  | .nan _ f b => .nan s f b
  | .inf _ => .inf s
  | .fin _ m e => .fin s m e
/-- Times a power of two. -/
def Num.scale (n : Num) (k : Int) : Num :=
  match n with
  | .fin s m e => .fin s m (e + k)
  | v => v

/-! ## Stochastic draws (R217) -/

/-- The draw for a counter value: SplitMix64, bits [63:32]. -/
def srDraw (jobseed lcore counter : W64) : Nat :=
  let z := jobseed ^^^ (lcore * 0x9E3779B97F4A7C15) ^^^ (counter * 0xBF58476D1CE4E5B9)
  let z := (z ^^^ (z >>> 30)) * 0xBF58476D1CE4E5B9
  let z := (z ^^^ (z >>> 27)) * 0x94D049BB133111EB
  let z := z ^^^ (z >>> 31)
  z.toNat / 2 ^ 32

/-! ## Rounding (R215, R217) -/

/-- Whether a magnitude with integer part `q` and remainder `r` of `2^k` rounds up: mode 0 to 4, or 6 with draw `d`. -/
def roundsUp (mode d : Nat) (s : Bool) (q r k : Nat) : Bool :=
  match mode with
  | 0 => decide (2 * r > 2 ^ k ∨ (2 * r = 2 ^ k ∧ q % 2 = 1))
  | 1 => false
  | 2 => decide (r ≠ 0) && ! s
  | 3 => decide (r ≠ 0) && s
  | 4 => decide (2 * r ≥ 2 ^ k ∧ r ≠ 0)
  | _ => decide (r * 2 ^ 32 / 2 ^ k + d ≥ 2 ^ 32)

/-- A finite overflow (R223): the code of the result with the flags. -/
def Fmt.overflow (f : Fmt) (mode : Nat) (sat s : Bool) : Nat × Nat :=
  let sg := if s then f.signBit else 0
  let c := match f.kind with
    | .e2m1 => 7
    | .e4m3 => if sat then 0x7E else 0x7F
    | .ieee =>
      if sat then f.maxCode
      else match mode with
        | 1 => f.maxCode
        | 2 => if s then f.maxCode else f.infCode
        | 3 => if s then f.infCode else f.maxCode
        | _ => f.infCode
  (sg + c, fOr fOF fNX)

/-- Round an exact magnitude m · 2^e to a format: the code and the flags. -/
def Fmt.roundFin (f : Fmt) (mode d : Nat) (sat s : Bool) (m : Nat) (e : Int) : Nat × Nat :=
  let sg := if s then f.signBit else 0
  if m = 0 then (sg, 0)
  else
    let emin : Int := 1 - f.bias
    let top : Int := (Nat.log2 m : Int) + e
    let q : Int := max top emin - f.fb
    let lo := if q ≤ e then m * 2 ^ (e - q).toNat else m / 2 ^ (q - e).toNat
    let r := if q ≤ e then 0 else m % 2 ^ (q - e).toNat
    let up := roundsUp mode d s lo r (q - e).toNat
    let n := if up then lo + 1 else lo
    let c := ((q + f.fb + f.bias).toNat - 1) * 2 ^ f.fb + n
    if c > f.maxCode then f.overflow mode sat s
    else (sg + c, if r = 0 then 0 else if top < emin then fOr fUF fNX else fNX)

/-- Bring a value to a format (R220 to R223): one rounding; NaN and infinity as the target has them. -/
def Fmt.encode (f : Fmt) (mode d : Nat) (sat : Bool) (v : Num) : Nat × Nat :=
  match v with
  | .fin s m e => f.roundFin mode d sat s m e
  | .inf s =>
    let sg := if s then f.signBit else 0
    match f.kind with
    | .ieee => (sg + f.infCode, 0)
    | .e4m3 => (sg + (if sat then 0x7E else 0x7F), fNV)
    | .e2m1 => (sg + 7, fNV)
  | .nan s fr fb =>
    let sg := if s then f.signBit else 0
    match f.kind with
    | .ieee =>
      let k := if fb ≤ f.fb then fr * 2 ^ (f.fb - fb) else fr / 2 ^ (fb - f.fb)
      (sg + f.infCode + (if k = 0 then 1 else k), 0)
    | .e4m3 => (sg + 0x7F, 0)
    | .e2m1 => (sg + 7, fNV)

/-- Convert a code between formats. -/
def cvtFmt (src dst : Fmt) (mode d : Nat) (sat : Bool) (c : Nat) : Nat × Nat := dst.encode mode d sat (src.decode c)

/-- Round a magnitude to an integer (spacing 1): the integer and whether it is inexact. -/
def roundMag (mode d : Nat) (s : Bool) (m : Nat) (e : Int) : Nat × Bool :=
  if 0 ≤ e then (m * 2 ^ e.toNat, false)
  else
    let k := (-e).toNat
    let lo := m / 2 ^ k
    let r := m % 2 ^ k
    (if roundsUp mode d s lo r k then lo + 1 else lo, decide (r ≠ 0))

/-- Convert a value to an integer format of `w` bits (R221 to R223): the two's-complement code and the flags. -/
def toInt (signed : Bool) (w mode d : Nat) (v : Num) : Nat × Nat :=
  let hi := if signed then 2 ^ (w - 1) - 1 else 2 ^ w - 1
  let lo := if signed then 2 ^ (w - 1) else 0
  let neg := fun (n : Nat) => (2 ^ w - n) % 2 ^ w
  match v with
  | .nan .. => (0, fNV)
  | .inf s => (if s then neg lo else hi, fNV)
  | .fin s m e =>
    let (n, x) := roundMag mode d s m e
    if ! s && decide (n > hi) then (hi, fNV)
    else if s && decide (n > lo) then (neg lo, fNV)
    else (if s then neg n else n, if ! x then 0 else if n = 0 then fOr fUF fNX else fNX)

/-- An integer code as an exact value. -/
def ofInt (signed : Bool) (w c : Nat) : Num :=
  if signed && decide (c ≥ 2 ^ (w - 1)) then .fin true (2 ^ w - c) 0 else .fin false c 0

/-! ## Arithmetic (R226), each operation rounding once -/

/-- Signed integer of a finite value at exponent `k` not above its own. -/
def atExp (s : Bool) (m : Nat) (e k : Int) : Int :=
  let v : Int := m * 2 ^ (e - k).toNat
  if s then -v else v

/-- The exact sum of two finite values; zero takes the sign of R226. -/
def addFin (down : Bool) (s1 : Bool) (m1 : Nat) (e1 : Int) (s2 : Bool) (m2 : Nat) (e2 : Int) : Num :=
  let k := min e1 e2
  let v := atExp s1 m1 e1 k + atExp s2 m2 e2 k
  if v = 0 then .fin (if m1 = 0 ∧ m2 = 0 ∧ s1 = s2 then s1 else down) 0 0
  else .fin (decide (v < 0)) v.natAbs k

/-- The result of an operation on NaN operands: NV and the default NaN for a signalling one, else the first NaN, quiet. -/
def Fmt.nanResult (f : Fmt) (ops : List Num) : Nat × Nat :=
  if ops.any Num.snan then (f.nanCode, fNV)
  else match ops.find? Num.isNan with
    | some (.nan s fr _) =>
      ((if s then f.signBit else 0) + f.infCode + (if fr / 2 ^ (f.fb - 1) % 2 = 1 then fr else fr + 2 ^ (f.fb - 1)), 0)
    | _ => (f.nanCode, 0)

/-- Sum of two values. -/
def Fmt.addNum (f : Fmt) (mode d : Nat) (a b : Num) : Nat × Nat :=
  match a, b with
  | .fin s1 m1 e1, .fin s2 m2 e2 => f.encode mode d false (addFin (decide (mode = 3)) s1 m1 e1 s2 m2 e2)
  | .inf s1, .inf s2 => if s1 = s2 then f.encode mode d false (.inf s1) else (f.nanCode, fNV)
  | .inf s1, .fin .. => f.encode mode d false (.inf s1)
  | .fin .., .inf s2 => f.encode mode d false (.inf s2)
  | _, _ => f.nanResult [a, b]

/-- FADD. -/
def Fmt.add (f : Fmt) (mode d a b : Nat) : Nat × Nat := f.addNum mode d (f.decode a) (f.decode b)

/-- The opposite of a value; a NaN keeps its sign, so that a NaN operand passes unchanged. -/
def Num.neg (v : Num) : Num :=
  match v with
  | .inf s => .inf (! s)
  | .fin s m e => .fin (! s) m e
  | n => n

/-- FSUB. -/
def Fmt.sub (f : Fmt) (mode d a b : Nat) : Nat × Nat := f.addNum mode d (f.decode a) (f.decode b).neg

/-- The exact product, none when the operation is invalid or has a NaN operand. -/
def mulNum (a b : Num) : Option Num :=
  match a, b with
  | .fin s1 m1 e1, .fin s2 m2 e2 => some (.fin (s1 != s2) (m1 * m2) (e1 + e2))
  | .inf s1, .inf s2 => some (.inf (s1 != s2))
  | .inf s1, .fin s2 m _ => if m = 0 then none else some (.inf (s1 != s2))
  | .fin s1 m _, .inf s2 => if m = 0 then none else some (.inf (s1 != s2))
  | _, _ => none

/-- FMUL. -/
def Fmt.mul (f : Fmt) (mode d a b : Nat) : Nat × Nat :=
  let x := f.decode a
  let y := f.decode b
  if x.isNan || y.isNan then f.nanResult [x, y]
  else match mulNum x y with
    | some v => f.encode mode d false v
    | none => (f.nanCode, fNV)

/-- a × b + c with a single rounding. -/
def Fmt.fma (f : Fmt) (mode d a b c : Nat) : Nat × Nat :=
  let x := f.decode a
  let y := f.decode b
  let z := f.decode c
  if x.snan || y.snan || z.snan then (f.nanCode, fNV)
  else if x.isNan || y.isNan then f.nanResult [x, y, z]
  else match mulNum x y with
    | none => (f.nanCode, fNV)
    | some p => if z.isNan then f.nanResult [z] else f.addNum mode d p z

/-- Bits of a quotient or root beyond the target's fraction: enough for the draw of R217 and a sticky bit. -/
def guardBits : Nat := 80

/-- FDIV. -/
def Fmt.div (f : Fmt) (mode d a b : Nat) : Nat × Nat :=
  let x := f.decode a
  let y := f.decode b
  match x, y with
  | .fin s1 m1 e1, .fin s2 m2 e2 =>
    if m2 = 0 then
      if m1 = 0 then (f.nanCode, fNV)
      else ((if s1 != s2 then f.signBit else 0) + f.infCode, fDZ)
    else
      let k := Nat.log2 m2 + f.fb + guardBits
      let q := m1 * 2 ^ k / m2
      let r := m1 * 2 ^ k % m2
      f.encode mode d false (.fin (s1 != s2) (2 * q + (if r = 0 then 0 else 1)) (e1 - e2 - k - 1))
  | .inf _, .inf _ => (f.nanCode, fNV)
  | .inf s1, .fin s2 _ _ => f.encode mode d false (.inf (s1 != s2))
  | .fin s1 _ _, .inf s2 => f.encode mode d false (.fin (s1 != s2) 0 0)
  | _, _ => f.nanResult [x, y]

/-- The integer square root, bit by bit from bit `n` down. -/
def isqrtBits (v : Nat) (n r : Nat) : Nat :=
  match n with
  | 0 => r
  | k + 1 => isqrtBits v k (if (r + 2 ^ k) * (r + 2 ^ k) ≤ v then r + 2 ^ k else r)

/-- The integer square root. -/
def isqrt (v : Nat) : Nat := isqrtBits v (Nat.log2 v / 2 + 1) 0

/-- FSQRT. -/
def Fmt.sqrt (f : Fmt) (mode d a : Nat) : Nat × Nat :=
  let x := f.decode a
  match x with
  | .fin s m e =>
    if m = 0 then (a, 0)
    else if s then (f.nanCode, fNV)
    else
      let k := 2 * (f.fb + guardBits) + (if e % 2 = 0 then 0 else 1)
      let v := m * 2 ^ k
      let r := isqrt v
      f.encode mode d false (.fin false (2 * r + (if r * r = v then 0 else 1)) ((e - k) / 2 - 1))
  | .inf s => if s then (f.nanCode, fNV) else (a, 0)
  | .nan .. => f.nanResult [x]

/-- Order of two values that are not NaN: less than. Zeros of either sign are equal. -/
def Num.lt (a b : Num) : Bool :=
  match a, b with
  | .fin s1 m1 e1, .fin s2 m2 e2 => decide (atExp s1 m1 e1 (min e1 e2) < atExp s2 m2 e2 (min e1 e2))
  | .inf s, .fin .. => s
  | .fin .., .inf s => ! s
  | .inf s1, .inf s2 => s1 && ! s2
  | _, _ => false
/-- Equality of two values that are not NaN. -/
def Num.eqv (a b : Num) : Bool := ! a.isNan && ! b.isNan && ! a.lt b && ! b.lt a

/-- FMIN (min = true) and FMAX (R259): −0 below +0; one NaN gives the other operand. -/
def Fmt.minMax (f : Fmt) (isMin : Bool) (a b : Nat) : Nat × Nat :=
  let x := f.decode a
  let y := f.decode b
  let fl := if x.snan || y.snan then fNV else 0
  if x.isNan && y.isNan then (f.nanCode, fl)
  else if x.isNan then (b, fl)
  else if y.isNan then (a, fl)
  else
    let less := x.lt y || (x.eqv y && x.sign && ! y.sign)
    (if less == isMin then a else b, fl)

/-- A comparison (R259): 0 EQ, 1 LT, 2 LE, 3 UN. -/
def Fmt.cmp (f : Fmt) (cond a b : Nat) : Bool × Nat :=
  let x := f.decode a
  let y := f.decode b
  let nan := x.isNan || y.isNan
  let sn := x.snan || y.snan
  match cond with
  | 0 => (x.eqv y, if sn then fNV else 0)
  | 1 => (! nan && x.lt y, if nan then fNV else 0)
  | 2 => (! nan && ! y.lt x, if nan then fNV else 0)
  | _ => (nan, if sn then fNV else 0)

/-! ## Block scales (R224, R225) and E8M0 -/

/-- An element times its scale, as FP32 with the flags of the rounding. -/
def scaleValue (v : Num) (s : Nat) : Nat × Nat :=
  if s = 0xFF then (0x7FC00000, 0) else fp32.encode 0 0 false (v.scale ((s : Int) - 127))

/-- emax of R224. -/
def emaxOf (t : Nat) : Int :=
  match t with
  | 3 => 8 | 4 => 15 | _ => 2

/-- floor(log2) of the magnitude of a finite non-zero value. -/
def Num.log2 (v : Num) : Int :=
  match v with
  | .fin _ m e => (Nat.log2 m : Int) + e
  | _ => 0

/-- The largest magnitude's floor(log2) over finite non-zero values. -/
def maxLog2 (l : List Num) : Option Int :=
  match l with
  | [] => none
  | v :: r =>
    match v with
    | .fin _ m _ => if m = 0 then maxLog2 r else
      match maxLog2 r with
      | some k => some (max k v.log2)
      | none => some v.log2
    | _ => maxLog2 r

/-- select_block_scale. -/
def selectScale (vals : List Num) (t : Nat) : Nat :=
  if vals.any Num.isNan then 0xFF
  else match maxLog2 vals with
    | none => 0x7F
    | some k => (min (max (k - emaxOf t + 127) 0) 254).toNat

/-! ## IQ4 (R212 to R214) -/

/-- The state of decode_iq4: bytes given up, the last of them, flags, values so far in reverse. -/
abbrev IqDec := List Nat × Int × Nat × List Num

/-- One element of decode_iq4. -/
def iqDecStep (bytes : List Byte) (st : IqDec) (i : Nat) : IqDec :=
  let (given, last, fl, vals) := st
  let j := i / 2
  if given.contains j then (given, last, fl, Num.fin false 0 0 :: vals)
  else
    let c := (nth bytes 0 j).toNat / (if i % 2 = 0 then 1 else 16) % 16
    if c ≠ 8 then (given, last, fl, (if c > 8 then Num.fin true (16 - c) 0 else Num.fin false c 0) :: vals)
    else
      let g := max (j : Int) last + 1
      if g > 15 then (given, last, fOr fl fNX, Num.fin false 0 0 :: vals)
      else (g.toNat :: given, g, fl, e4m3.decode (nth bytes 0 g.toNat).toNat :: vals)

/-- decode_iq4 before the scale: 32 values and the flags. -/
def iqDecode (bytes : List Byte) : List Num × Nat :=
  let (_, _, fl, vals) := (upTo 0 32).foldl (iqDecStep bytes) (([], -1, 0, []) : IqDec)
  (vals.reverse, fl)

/-- The state of encode_iq4: bytes given up, the last, flags, bytes. -/
abbrev IqEnc := List Nat × Int × Nat × List Nat

/-- Put a nibble. -/
def putNibble (bytes : List Nat) (i q : Nat) : List Nat :=
  setNth bytes (i / 2) (nth bytes 0 (i / 2) + q % 16 * (if i % 2 = 0 then 1 else 16))

/-- Flags of a value placed as the nibble integer q (R214). -/
def nibbleFlags (v : Num) (q : Nat) (inexact : Bool) : Nat :=
  if ! inexact then 0 else if q = 0 && ! v.isZero then fOr fUF fNX else fNX

/-- One element of encode_iq4: the value already divided by the scale, with its mode and draw. -/
def iqEncStep (mode : Nat) (sat : Bool) (draw : Nat → Nat) (st : IqEnc) (iv : Nat × Num) : IqEnc :=
  let (given, last, fl, bytes) := st
  let (i, v) := iv
  let j := i / 2
  if given.contains j then (given, last, if v.isZero then fl else fOr fl fNX, bytes)
  else
    let q : Option (Bool × Nat × Bool) := match v with
      | .fin s m e =>
        let (n, x) := roundMag mode (draw i) s m e
        if n ≤ 7 then some (s, n, x) else none
      | _ => none
    match q with
    | some (s, n, x) =>
      (given, last, fOr fl (nibbleFlags v n x), putNibble bytes i (if s then (16 - n) % 16 else n))
    | none =>
      let g := max (j : Int) last + 1
      if g ≤ 15 then
        let (c, f2) := e4m3.encode mode (draw i) sat v
        (g.toNat :: given, g, fOr fl f2, setNth (putNibble bytes i 8) g.toNat c)
      else match v with
        | .nan .. => (given, last, fOr fl fNV, bytes)
        | _ => (given, last, fOr fl (fOr fOF fNX), putNibble bytes i (if v.sign then 9 else 7))

/-- Pair values with their positions. -/
def indexed {α : Type} (i : Nat) (l : List α) : List (Nat × α) :=
  match l with
  | [] => []
  | v :: r => (i, v) :: indexed (i + 1) r

/-- encode_iq4: the 16 bytes and the flags. -/
def iqEncode (mode : Nat) (sat : Bool) (draw : Nat → Nat) (vals : List Num) : List Byte × Nat :=
  let (_, _, fl, bytes) := (indexed 0 vals).foldl (iqEncStep mode sat draw) (([], -1, 0, List.replicate 16 0) : IqEnc)
  (bytes.map (BitVec.ofNat 8), fl)

/-! ## Reductions (R228) -/

/-- One round of the pairwise tree: the combined list with the flags; an odd last element passes up. -/
def pairRound {α : Type} (op : α → α → α × Nat) (l : List α) : List α × Nat :=
  match l with
  | a :: b :: r =>
    let (v, f1) := op a b
    let (t, f2) := pairRound op r
    (v :: t, fOr f1 f2)
  | l => (l, 0)

/-- The pairwise tree, `n` rounds at most. -/
def pairTree {α : Type} (op : α → α → α × Nat) (n : Nat) (l : List α) (fl : Nat) : List α × Nat :=
  match n with
  | 0 => (l, fl)
  | k + 1 =>
    if l.length ≤ 1 then (l, fl)
    else
      let (r, f) := pairRound op l
      pairTree op k r (fOr fl f)

end Sys2Proof.Machine
end

