-- ==== Sys2Proof/Machine/State.lean ====
section
/-! DEFINITION. The state of one module as plain data: every piece of state that spec/ gives the machine
(INVENTORY.md lists each with its rule), the reasons a step can stop, and the state after reset. Numbered parts
(cores, contexts, tenants, clusters) are tables with a default entry, so that reset lists none of them. Registers that
software reads and writes whole are words; their fields have accessors in Machine/Ops.lean. -/

namespace Sys2Proof.Machine

/-- The reasons a step ends in a fault. -/
inductive Fault where
  /-- Raised by `step` on every turn but COLD_RESET while the module is in A5, off (01 R13): a machine without
  power takes no step. Safe: nothing is claimed of an unpowered module. -/
  | poweredOff
deriving DecidableEq, Repr

/-- The reasons a step is refused. -/
inductive Refusal where
  /-- Raised by `exec` for an instruction that has no meaning yet. Safe. -/
  | notModelled (mnemonic : String)
deriving DecidableEq, Repr

/-! ## Contexts and cores -/

/-- What a context is (06 R105, R106, R108; 04 R80; 05): the control context of a thread, a helper, a
continuation, or the context of a service core or of the monitor core. -/
inductive CtxKind where
  | control | helper | continuation | service | monitor
deriving DecidableEq, Repr

/-- Where an address leads once it is decoded and translated (03 R58, 07 R133 to R142). `mem` is a key of the
memory list; `fmt` a format window of a core's pool; `mq` window 15; `vec` marks a register that a vector command will write. -/
inductive Place where
  | mem (key : Nat)
  | sync (pa : Nat)
  | vers (frame depth off : Nat)
  | fmt (core win off : Nat)
  | mq (core off : Nat)
  | host (addr : Nat)
  | control (off : Nat)
  | remote (node : Nat)
  | vec
deriving DecidableEq, Repr

/-- A store in a context's store queue (08 R150): the memory key, the bytes, and whether it is bound for HBM (and so
for the port write buffer). (Mark: DESIGN CHOICE, safe, log 38) -/
structure StoreEnt where
  key : Nat
  bytes : List Byte
  hbm : Bool
  /-- the address stored to, and that of the instruction -/
  va : W64 := 0
  pc : W64 := 0
deriving DecidableEq, Repr

/-- A split-phase load, or another request whose register is pending (03 R59, 14 R279): its register, address,
width, extension, place, and the address of the instruction. -/
structure Pend where
  reg : BitVec 5
  va : W64
  nb : Nat
  signed : Bool
  place : Place
  pc : W64
  /-- a word of a record that the instruction at `pc` is reading: it is kept until that instruction has them all -/
  keep : Bool
  answer : Option W64
  /-- bytes of an answer that is more than a word (19 R376) -/
  got : List Byte
  /-- STATUS.UI at issue: which bank of x24 to x31 the register is in (09 R182) -/
  ui : Bool
deriving DecidableEq, Repr

/-- An asynchronous cause pending at a context (09 R172). -/
structure AsyncCause where
  cause : Byte
  val : W64
deriving DecidableEq, Repr

/-- An entry of a user-interrupt queue (09 R181). -/
structure UiEntry where
  src : BitVec 4
  tag : BitVec 48
deriving DecidableEq, Repr

/-- An access parked on a translation miss (07 R147): tenant, page number (VA[54:16]), access bits of R146, exact
VA. -/
structure Parked where
  ten : Nat
  page : Nat
  bits : Byte
  va : W64
deriving DecidableEq, Repr

/-- One context of a core (06 R105, R106; 09 R170, R171, R181; 11 R218; 14 R270). -/
structure Ctx where
  live : Bool
  kind : CtxKind
  pc : W64
  x : Tab W64
  /-- the shadow bank of x24-x31 (09 R182), keyed by register number -/
  shadow : Tab W64
  /-- k1-k7 (12 R230), keyed by number -/
  k : Tab (BitVec 256)
  status : W64
  tstatus : W64
  taddr : W64
  tcause : W64
  tval : W64
  uivec : W64
  uiaddr : W64
  uiovf : Bool
  uiq : List UiEntry
  rndctr : W64
  timef : BitVec 16
  dlev : BitVec 3
  vgrant : BitVec 9
  storeq : List StoreEnt
  pends : List Pend
  asyncs : List AsyncCause
  /-- precise traps due, oldest first, as cause, TVAL and TADDR: a failed walk (07 R137), a REPLAY that fails (07 R148), a
  faulting reply (03 R59) -/
  due : List (Byte × W64 × W64)
  parked : Option Parked
  /-- stall reason of 06 R115; 0 while issuing -/
  stall : Nat
  /-- the word of the instruction that waits: a waiting instruction is not fetched again -/
  ir : Option W32
  /-- stopped by a handler-code fault (09 R177) -/
  stopped : Bool
  /-- clk at which TR became 1 (09 R180) -/
  trSince : Nat
  /-- the context passes its next turn (14 R274) -/
  yielded : Bool
  /-- an AMOD's reply store that has not been performed: address and value (19 R365) -/
  amodReply : List (W64 × W64)
  /-- the HEIRLESS report being handled by this context (10 R207) -/
  heirless : Bool
  /-- the context was stopped while it waited in JOINH (09 R184, item 50) -/
  joining : Bool
  /-- a value an interrupted instruction has already been granted by an engine or a Cleat -/
  grant : Option W64
  /-- clk at which full version units refused a request that has not been sent again (08 R157) -/
  retryAt : Option Nat
deriving DecidableEq, Repr

/-- A ring descriptor (07 R126). -/
structure Ring where
  base : Nat
  slott : Nat
  nslot : Nat
  prod : Nat
  cons : Nat
  fill : Nat
  pside : Bool
  cside : Bool
  peer : Bool
deriving DecidableEq, Repr

/-- The holder of a pool tile (09 R186): free, the running thread, or a suspended-thread slot. -/
inductive Holder where
  | free | running | slot (n : Nat)
deriving DecidableEq, Repr

/-- A vector command in a core's queue (06 R110, 16 R299): the instruction with what it captured at issue. -/
structure VCmd where
  insn : Instr
  ctx : Nat
  v1 : W64
  v2 : W64
  grant : Nat
  rm : Nat
  base : W64
  bound : Nat
  done : Nat
  parked : Option Parked
deriving DecidableEq, Repr

/-- A matrix command (17 R327): the instruction with the register values, mode and draws captured at issue. -/
structure MCmd where
  insn : Instr
  core : Nat
  ctx : Nat
  vals : List W64
  rm : Nat
  base : W64
  seed : W64
  /-- the thread that issued it: tenant, CTXID, LCORE -/
  owner : Nat × W32 × Nat
  /-- order in which the commands of the cluster's queues were queued -/
  seq : Nat
  /-- privilege of the issuer -/
  pl : Nat
  parked : Option Parked
deriving DecidableEq, Repr

/-- A copy command (17 R334, R339): its tag, kind (0 BCOPY, 1 BCAST, 2 DEAL), descriptor, and state word. -/
structure CopyCmd where
  tag : BitVec 16
  op : Nat
  /-- the thread that issued it (tenant, CTXID, LCORE) and its context -/
  owner : Nat × W32 × Nat
  ctx : Nat
  pl : Nat
  desc : List Byte
  /-- 1 in progress, 2 done, 3 faulted or partial -/
  state : Nat
  cause : Byte
  scrc : W32
  dcrc : W32
  mask : W64
  /-- tiles left faulted by the command, as (core, tile) -/
  badTiles : List (Nat × Nat)
  parked : Option Parked
  /-- rounding mode, counter and seed for a destination window, as at issue -/
  rm : Nat
  base : W64
  seed : W64
  /-- with another module: 0 nothing sent, 1 reads asked, 2 writes sent, 3 the closing request sent -/
  phase : Nat
  /-- offsets of the requests that have no answer yet -/
  out : List Nat
  /-- bytes read from another module, by offset, each with its poison -/
  got : Tab (List (Byte × Bool))
  /-- the lowest offset not performed, with its cause -/
  bad : Option (Nat × Byte)
  /-- tiles on another module are left faulted -/
  farBad : Bool
deriving DecidableEq, Repr

/-- A message of 64 bytes with its origin (03 R60, 14 R281), and its slot in the overflow area while its bytes are there. -/
structure Msg where
  bytes : List Byte
  srcCore : Nat
  srcMod : Nat
  remote : Bool
  slot : Option Nat := none
deriving DecidableEq, Repr

/-- A message in an injection queue: its destination node and core. -/
structure OutMsg where
  node : Nat
  core : Nat
  msg : Msg
  /-- the context that sent it, and its thread: tenant, CTXID, LCORE -/
  ctx : Nat
  owner : Option (Nat × W32 × Nat)
  /-- on its way to another module -/
  sent : Bool
deriving DecidableEq, Repr

/-- A trap message of the handler chain (09 R177). `since` is when it reached its present hop. -/
structure TrapMsg where
  faddr : W64
  fval : W64
  tstatus : W64
  taddr : W64
  tval : W64
  fcause : Byte
  ocause : Byte
  hop : Nat
  len : Nat
  origin : Nat
  octx : Nat
  ten : Nat
  ctxid : W32
  time : W64
  since : Nat
  chain : W64
deriving DecidableEq, Repr

/-- A TLB entry (07 R143): one leaf with its tenant (16 stands for firmware), first VA page, level and bits. -/
structure TlbEnt where
  ten : Nat
  page : Nat
  level : Nat
  pte : W64
deriving DecidableEq, Repr

/-- A thread suspended on a core (09 R186): its identity and what the core kept for it; its partition, rings and owner
bits as they were at the save, for its engine commands that go on. -/
structure Suspended where
  ten : Nat
  ctxid : W32
  lcore : Nat
  spill : W64
  since : Nat
  partw : W64
  rings : Tab Ring
  eTiles : List Nat
  badTiles : List Nat
  awd : Tab W64
deriving DecidableEq, Repr

/-- One core (07 R119 to R127, and the per-core registers of the other files). -/
structure Core where
  ctxs : Tab Ctx
  tvec : W64
  hchain : W64
  pvec : W64
  /-- the thread the core holds: tenant, CTXID, LCORE -/
  thread : Option (Nat × W32 × Nat)
  partw : W64
  rings : Tab Ring
  /-- AWD1-AWD7 -/
  awd : Tab W64
  /-- tiles whose owner bit is E -/
  eTiles : List Nat
  /-- tiles marked faulted (17 R337) -/
  badTiles : List Nat
  /-- holder tags that are not `free` -/
  holders : Tab Holder
  /-- tiles of a resumed thread that still lie in its spill area, and the address of that area (09 R186) -/
  spilled : List Nat
  spillAt : W64
  slots : Tab Suspended
  bm : BitVec 16
  arr : BitVec 16
  vq : List VCmd
  mqueue : List MCmd
  copyTag : BitVec 16
  copies : List CopyCmd
  build : List Byte
  injq : List OutMsg
  recvq : List Msg
  rhead : Nat
  overflow : List Msg
  rej : Bool
  /-- the head of the injection queue was answered FULL at this clk and has not been sent again (03 R61) -/
  rejAt : Option Nat
  inbox : List TrapMsg
  cxctx : BitVec 4
  cxsel : BitVec 7
  cxerr : Bool
  /-- the core's thread is being saved (0) or restored (1) by the resident handler (09 R183), which runs in the
  context named beside it -/
  saving : Option (Nat × Nat)
  vcnt : Tab Nat
  tlive : Nat
  tcnt : Nat
  tlb : List TlbEnt
  /-- lines of the instruction cache (07 R120), oldest first: tenant (16 for firmware), VA div 64, the 64 bytes -/
  icache : List (Nat × Nat × List Byte)
  /-- a halted service core (09 R179) -/
  halted : Bool
  /-- the core's next turn of the interleave (06 R106) -/
  turn : Nat
deriving DecidableEq, Repr

/-! ## Clusters, octets, quadrants -/

/-- A walk of the page tables in progress for a core's access (07 R144): who waits, and for what. -/
structure WalkReq where
  core : Nat
  ctx : Nat
  ten : Nat
  va : W64
  bits : Byte
  /-- the privilege of the access, and whether it is misaligned -/
  pl : Nat := 0
  mis : Bool := false
  /-- it is an engine's, or a vector command's, which looks at the outcome itself -/
  eng : Bool := false
  /-- the walk of an engine is over -/
  finished : Bool := false
deriving DecidableEq, Repr

/-- A line of the port write buffer (08 R150): 64-byte line number, the bytes stored by offset, clk of the first store. -/
structure PortLine where
  line : Nat
  bytes : Tab Byte
  since : Nat
deriving DecidableEq, Repr

/-- A slot-table entry of the weight buffer (07 R132, 17 R325) with its scale store. -/
structure WSlot where
  line : Nat
  nline : Nat
  ceil : Nat
  type : Nat
  state : Nat
  scales : List Byte
deriving DecidableEq, Repr

/-- An accumulator bank (09 R187, 17 R327 to R331): elements that are not +0 (row-major index), FLAGS, the
row-to-core map, the holder and the save-address latch. -/
structure Bank where
  elems : Tab W64
  flags : BitVec 5
  map : Tab Nat
  holder : Option (Nat × W32)
  latch : W64
  /-- the holder is suspended since this clk -/
  shadow : Option Nat
  /-- the holder took it while it held the other one: its place in the save area is the second (17 R333) -/
  second : Bool
  /-- MMAs since the last MCHK (17 R330) -/
  count : Nat
deriving DecidableEq, Repr

/-- The matrix command the engine has taken (17 R327): for an MMA the bank, the operand A once it is read, a pending
MPERT it takes up, and the errors that befall its sums (09 R190); for a drain its rows as converted and how many have left. -/
structure MRun where
  cmd : MCmd
  bank : Nat
  opA : Option (List Byte)
  pert : Option (W64 × Nat × Nat)
  /-- computation (0 to 2), element in row-major order, and what is added to its sum -/
  errs : List (Nat × Nat × W64)
  rows : List (List W64)
  map : List Nat
  sent : Nat
deriving DecidableEq, Repr

/-- A request in the combining butterfly (03 R57): the input it came in by, the stage it enters next, and what it adds. -/
structure BfReq where
  port : Nat
  stage : Nat
  pa : Nat
  width : Nat
  add : W64
  amo : Bool
  ten : Nat
  /-- the contexts whose adds it carries: core, context, thread -/
  leaves : List (Nat × Nat × (Nat × W32 × Nat))
  /-- the wait-buffer entry that takes its reply, where it is the sum of two -/
  tag : Option Nat
deriving DecidableEq, Repr

/-- A wait-buffer entry (03 R57): its number, its switch, the earlier addend, the two requests, and the reply to their sum
once it has come back. -/
structure BfWait where
  tag : Nat
  switch : Nat
  a1 : W64
  first : BfReq
  second : BfReq
  reply : Option W64
deriving DecidableEq, Repr

/-- A continuation record that waits at its home (06 R107, R108): its 64 bytes, its launch, and its slot in the overflow
area while its bytes are there. (Mark: DESIGN CHOICE, unsafe, log 28) -/
structure ContEnt where
  bytes : List Byte
  ctxid : W32
  ten : Nat
  slot : Option Nat := none
deriving DecidableEq, Repr

/-- One cluster (07 R131, R132, R143, R144; 06 R108, R118; 09 R187). -/
structure Cluster where
  tlb : List TlbEnt
  walks : List WalkReq
  port : List PortLine
  weight : Tab Byte
  slots : Tab WSlot
  bank0 : Bank
  bank1 : Bank
  /-- active bank of the launch that holds banks: (tenant, CTXID) and bank number -/
  active : List (Nat × W32 × Nat)
  accsv : W64
  run : Option MRun
  /-- a WBLOAD the engine is reading -/
  wbload : Option MCmd
  /-- the issue core served last in the round robin -/
  served : Nat
  chkN : Nat
  /-- pending MPERT: value, column, row -/
  pert : Option (W64 × Nat × Nat)
  /-- launches whose first matrix instruction here reloads an evicted bank: tenant, CTXID, whether it is the second of
  the save area, whether it was the active one -/
  reload : List (Nat × W32 × Bool × Bool)
  contq : List ContEnt
  contovf : List ContEnt
  halted : Bool
  /-- CTXID whose kill halted the cluster -/
  haltCtx : W32
  /-- first of the two cores that hold physical counters (06 R118) -/
  rot : Nat
  rotAt : Nat
  gatedAt : Option Nat
  /-- clk at which the last context or engine command of the cluster ended -/
  busyAt : Nat
deriving DecidableEq, Repr

/-- One octet (06 R111; 16 R317): the arbiter and the accumulator queue. -/
structure Octet where
  rr : Nat
  deficit : Tab Nat
  accq : List (List W32)
  /-- VPOPQ reservations in order: core, context -/
  resv : List (Nat × Nat)
deriving DecidableEq, Repr

/-- An object as a snapshot read it (19 R351): its two header words and its words, with the layout of its type. -/
structure GObj where
  w0 : W64
  w1 : W64
  words : List W64
  nfix : Nat
  stride : Nat
  cls : Nat
deriving DecidableEq, Repr

/-- An entry of a walk's stack (19 R348): source, destination or second object, next word, words; and whether the object
has been sent (R379). -/
structure GStk where
  src : W64
  oth : W64
  next : Nat
  n : Nat
  sent : Bool
deriving DecidableEq, Repr

/-- A visited entry (19 R348), in visit order. -/
structure GVis where
  src : W64
  oth : W64
  ver : W32
deriving DecidableEq, Repr

/-- Why a walk stops short: a GRAPH_FAULT with its WHY, a precise cause, a page to park on, a walk of the
page tables to wait for, or poison. -/
inductive GErr where
  | gf (why : Nat) (va : W64)
  | trap (cause : Nat) (va : W64)
  | park (cause : Nat) (va : W64) (wr : Bool)
  | miss (va : W64) (wr : Bool)
  | poison (va : W64)
deriving DecidableEq, Repr

/-- A graph walk under way (19 R350): who waits, the walk's identity, the descriptor and record it found at its start, and
its on-chip state. -/
structure GWalk where
  core : Nat
  ctx : Nat
  reg : BitVec 5
  op : Nat
  v : Bool
  root : W64
  /-- the descriptor's bytes and key, and the runs of keys that hold the record -/
  desc : List Byte
  dkey : Nat
  rrun : List (Nat × Nat)
  base : W64
  stack : List GStk
  visited : List GVis
  /-- snapshots that the engine still holds -/
  snaps : List (W64 × GObj)
  skip : Nat
  /-- GSEND: offset of the next object, in 16-byte units -/
  off : Nat
  /-- GCMP: the difference found -/
  result : Option W64
  /-- HSTATE, and how many objects it covers -/
  hash : List Byte
  hashed : Nat
  torn : Bool
  /-- nothing is left but the completion -/
  ready : Bool
  /-- GSEND: the request that awaits its answer, 0 opening, 1 object, 2 finish -/
  waiting : Option Nat
  /-- GSEND: words of the object being sent that have gone, and whether more follow the part that awaits its answer -/
  part : Nat
  more : Bool
  err : Option GErr
deriving DecidableEq, Repr

/-- A receive descriptor bound to a sender (19 R355): sender, CTXID, descriptor VA, tenant, base, and the forwarding
table index ↦ (VA, class list). -/
structure GRecv where
  src : BitVec 6
  ten : BitVec 4
  ctxid : W32
  desc : W64
  base : W64
  fwd : Tab (W64 × List (BitVec 2))
  top : W64
deriving DecidableEq, Repr

/-! ## Tenants and the host -/

/-- A queued or dispatched submission (04 R69, R70): its 128 bytes, its SEQ. -/
structure Subm where
  bytes : List Byte
  seq : W32
deriving DecidableEq, Repr

/-- A submission page with its completion-area registers (04 R72). -/
structure Page where
  cqbase : W64
  cqcfg : W64
  cqhead : W32
  cqtail : W32
  out : Nat
  retry : Bool
  accepted : W32
  queue : List Subm
  /-- dispatched and not yet completed -/
  running : List Subm
  /-- clk since which the head has been dispatchable (06 R103); SQSTAT.GATED reads 1 while there is a head and none -/
  since : Option Nat
deriving DecidableEq, Repr

/-- An entry of an MSI-X table (04 R68). -/
structure Msix where
  addr : W64
  data : W32
  masked : Bool
  pending : Bool
deriving DecidableEq, Repr

/-- An attestation record (05 R89): CHAIN, the log, newest last. -/
structure Attest where
  chain : List Byte
  log : List (List Byte)
deriving DecidableEq, Repr

/-- A fault-queue entry, or a fault that waits to write one (07 R146, R147). -/
structure FqEnt where
  page : Nat
  va : W64
  ctxid : W32
  cause : Nat
  bits : Byte
  merge : Nat
  core : Nat
  seq : W32
deriving DecidableEq, Repr

/-- What belongs to one tenant (04 R65 to R72; 03 R54; 07 R138, R142, R145; 10 R194, R206; 12 R247; 06 R116; 14 R271). -/
structure Tenant where
  vf : Bool
  trect : W64
  /-- a TRECT value that waits for the purge of the tenant's kills (03 R54) -/
  trectNew : Option W64
  tecr : W64
  tsubcfg : W64
  testr : W64
  hwbase : W64
  hwsize : W64
  ptbase : W64
  tfwin : W64
  lmapb : W64
  esth : W64
  estl : W64
  /-- LCORE and context index registered in ESTH -/
  esthLcore : Nat
  esthCtx : Nat
  /-- a HEIRLESS report is with the handler, which has not returned from it (10 R207) -/
  reporting : Bool
  tltol : BitVec 24
  terr : BitVec 4
  pages : Tab Page
  msix : Tab Msix
  attest : Attest
  smpbase : W64
  smpcfg : W64
  hwt : W64
  wcount : Nat
  drops : Nat
  fqbase : W64
  fqcfg : W64
  fqhead : W32
  fqtail : W32
  /-- entries written and not yet popped -/
  fq : List FqEnt
  /-- faults waiting for a free entry (FULL) -/
  fqWait : List FqEnt
  /-- tokens issued: SEQ and page -/
  tokens : List (W32 × Nat)
deriving DecidableEq, Repr

/-- A trigger armed on a counter (04 R79): threshold, action, operand, arming order, and for action 3 its context. -/
structure Trigger where
  thr : W64
  action : Nat
  arg : W64
  order : Nat
  ten : Nat
  ctxid : W32
  lcore : Nat
  core : Nat
  ctx : Nat
  index : Nat
deriving DecidableEq, Repr

/-- An event counter (04 R75, R79). -/
structure Counter where
  val : W64
  trigs : List Trigger
deriving DecidableEq, Repr

/-- A mailbox ring of a service core (04 R81, R82): entries by slot, TAIL, HEAD, WAKE, entries held while full. -/
structure MbRing where
  ents : Tab (List Byte)
  tail : BitVec 16
  head : BitVec 16
  wake : Bool
  held : List (List Byte)
  /-- entries produced, modulo 2^32: the SEQ of the next entry -/
  seq : W32
  /-- ring 3: the place of each waiting entry in the order of arrival over all service cores (05 R84) -/
  stamps : List Nat
deriving DecidableEq, Repr

/-! ## Halyard -/

/-- How a launch stands. -/
inductive LaunchState where
  | queued | placed | suspended | victim
deriving DecidableEq, Repr

/-- The submission a launch came from (04 R70, R73): page, TAG, CPL, INT, SEQ. -/
structure FromSub where
  page : Nat
  tag : W64
  cpl : Bool
  int : Bool
  seq : W32
deriving DecidableEq, Repr

/-- A suspended thread (09 R183, R186): the context that ran the handler at the save, the core it left, the tiles it
holds, its mask registers by context, its spilled messages, and its barrier masks (19 R368). (Mark: DEDUCED, unsafe, log 27) -/
structure SavedThread where
  handler : Nat
  core : Nat
  tiles : List Nat
  masks : Tab (Tab (BitVec 256))
  messages : List Msg
  bm : BitVec 16
  arr : BitVec 16
  /-- contexts that a fault in handler code has stopped (09 R177) -/
  stopped : List Nat
deriving DecidableEq, Repr

/-- A launch (06 R96 to R104). -/
structure Launch where
  ten : Nat
  ctxid : W32
  record : List Byte
  recVa : W64
  prio : Nat
  sub : Option FromSub
  /-- queue the launch waits in: 0 + page for submissions, 16 + core for LAUNCH and triggers; 2^20 + module for a launch that
  another module dispatched, which waits in no queue of this one -/
  queue : Nat
  state : LaunchState
  since : Nat
  origin : Nat
  /-- clk of the last placement -/
  placedAt : Option Nat
  /-- a fatal cause: 0x1A for a kill, FCAUSE for FAULTED (04 R73) -/
  ended : Option Byte
  faulted : Bool
  /-- SUSPEND keeps the launch out of its queue (04 R83) -/
  held : Bool
  /-- the threads of this module that are suspended, by LCORE -/
  saved : Tab SavedThread
  /-- accumulator banks that have been evicted (09 R187): placement number of the cluster, whether it is the second of
  the save area, whether it was the active one -/
  evicted : List (Nat × Bool × Bool)
  /-- while it is suspended: its continuation records, each with the placement number of the cluster where it waits -/
  records : List (Nat × ContEnt)
  /-- the threads of other modules that are over, by LCORE (10 R198) -/
  finished : List Nat
deriving DecidableEq, Repr

/-- A continuation record on its way to its home cluster (06 R107): its launch, its KEY as this module sees it, the
context that posts it, and the packet of a record from another module. -/
structure ContRec where
  bytes : List Byte
  ctxid : W32
  ten : Nat
  key : W64
  home : Nat
  core : Nat
  ctx : Nat
  remote : Option Packet
deriving DecidableEq, Repr

/-- What a suspended thread's context is still to receive: an asynchronous cause, or a user interrupt.
(Mark: DEDUCED, unsafe, log 24) -/
structure Deferred where
  ten : Nat
  ctxid : W32
  lcore : Nat
  ctx : Nat
  async : Option AsyncCause
  ui : Option UiEntry
  /-- flags that a copy through a window raised -/
  flags : Nat
deriving DecidableEq, Repr

/-- A kill in progress (03 R62). -/
structure Kill where
  ten : Nat
  ctxid : W32
  since : Nat
  origin : Nat
  reached : List KillUnit
  reported : List Nat
  /-- modules still to confirm -/
  mods : List Nat
  started : List (Nat × Nat)
  /-- the module that sent the kill, where it is not this one -/
  asked : Option (BitVec 6)
deriving DecidableEq, Repr

/-! ## Estates -/

/-- An estate entry (10 R195). `state` 1 held, 2 orphaned. -/
structure Estate where
  ctxid : W32
  holder : W32
  ref : W64
  kind : Nat
  state : Nat
  bereaved : Bool
  seq : W64
  heir : W32
  heirctx : W32
  ten : Nat
  /-- memory key of the lock word, of the object's header or of the versioned word's header: the model's own -/
  home : Nat
deriving DecidableEq, Repr

/-- A death event (10 R198). -/
structure Death where
  dseq : W32
  ten : Nat
  ctxid : W32
  group : W32
  /-- dies whose Cleat has applied it -/
  applied : List Nat
  /-- what was conveyed: heir context, heir group, count -/
  got : List (W32 × W32 × Nat)
  /-- heirless entries as R384 reports them -/
  heirless : List Estate
deriving DecidableEq, Repr

/-- An arrival record (10 R203, 19 R376). -/
structure Arrival where
  dseq : W32
  dctx : W32
  dgroup : W32
  nrec : W32
  hctx : W32
  hgroup : W32
  time : W64
deriving DecidableEq, Repr

/-- What a waiting request waits for, in arrival order at its unit (08 R157, 10 R197, 19 R367, R373). -/
inductive WaitKind where
  | create | readV (v : W32) | heldBack | lock | counter (thr : W64) | reduction (rank : Nat)
deriving DecidableEq, Repr

/-- A waiter at a version unit or a Cleat: the word (memory key or VA), and the waiting context. `remote` holds the
packet of a waiter from another module and the clk it was taken in. -/
structure Waiter where
  kind : WaitKind
  key : Nat
  core : Nat
  ctx : Nat
  since : Nat
  remote : Option Packet
  bytes : List Byte
deriving DecidableEq, Repr

/-- The working state of a reduction cell at its Cleat (19 R367). -/
structure RedCell where
  key : Nat
  op : Nat
  type : Nat
  contribs : Tab W64
  /-- ranks that have contributed to a completed generation and not collected its result -/
  uncollected : Tab W64
deriving DecidableEq, Repr

/-! ## Fabric, boot, power -/

/-- Link state for a (spar, peer) pair (02 R21, R22, R23). (Mark: DEDUCED, unsafe, log 112) -/
structure Link where
  /-- the link sequence of the next packet flit -/
  lseq : BitVec 12
  /-- the last link sequence received without error -/
  aseq : BitVec 12
  /-- packet flits sent and not covered -/
  replay : List (List Byte)
  /-- a flit has failed: it and every later one is discarded until nothing is missing -/
  nak : Bool
  /-- resend everything in `replay` first -/
  resend : Bool
  /-- when the timing flits of the last payload window and of the one before left, in 2^-16 ns -/
  dep : Option Nat
  depOld : Option Nat
  /-- when the peer's last timing flit arrived -/
  arr : Option Nat
  /-- payloads of the packet whose flits are arriving -/
  part : List (List Byte)
deriving DecidableEq, Repr

/-- A packet sent and not acknowledged (02 R34). -/
structure Sent where
  pkt : Packet
  deadline : Nat
  expiries : Nat
  /-- the destination has answered PENDING: the timer is stopped (03 R58) -/
  stopped : Bool
deriving DecidableEq, Repr

/-- A packet in a send queue: whether it has a sequence, how often its timer has expired (02 R31, R34), and whether it
carries no timer (03 R58). -/
structure Queued where
  pkt : Packet
  seqd : Bool
  expiries : Nat
  quiet : Bool := false
deriving DecidableEq, Repr

/-- Receive state of a (source, flow) (02 R35): base, completed sequences above it, packets held ahead of a gap. -/
structure RxFlow where
  base : W32
  done : List W32
  held : List Packet
deriving DecidableEq, Repr

/-- The fabric control block, links, queues and relay (02). -/
structure Fabric where
  fpod : W64
  fnext : W64
  fdarkt : W64
  fswtime : W64
  lock : Bool
  rig : Nat
  err : Bool
  late : Bool
  fgrant : BitVec 20
  boot : Bool
  good : Nat
  lastExch : Nat
  pllLock : Bool
  /-- clk at which the clk PLL regained lock -/
  pllSince : Nat
  /-- measured one-way delay to the switch in clk, by spar (R25) -/
  delays : Tab Nat
  links : Tab Link
  /-- send queues by die -/
  sendq : Tab (List Queued)
  unacked : List Sent
  nextSeq : Tab W32
  usedFlows : List Nat
  rx : Tab RxFlow
  /-- reply cache: (source, flow, seq) key ↦ reply -/
  cache : List (Nat × W32 × Packet)
  /-- packets held here as relay, by die -/
  relayed : List (Nat × Packet)
  /-- allowance left at (peer, die), where units have been spent or returned; elsewhere it is `firstGrant` -/
  allow : Tab Nat
  /-- the initial grant of each peer (R33) -/
  firstGrant : Nat
  /-- last total of returns received from (peer, die) -/
  gotTotal : Tab W32
  /-- the grant to each peer in force: FGRANT as of the last tack boundary -/
  granted : Nat
  /-- units returned so far to (peer, die) -/
  retTotal : Tab W32
  /-- units of (peer, die) that are not returned, since the grant was lowered -/
  withheld : Tab Nat
  /-- forwarded packets whose last flit is not covered: link, its link sequence, (peer, die), units -/
  returns : List (Nat × BitVec 12 × Nat × Nat)
  markers : List Nat
  /-- drains begun: the number that a marker of this drain bears -/
  drains : Nat
  relockAt : Option Nat
  log : List (List Byte)
  /-- packets sent direct to each peer: which of its spars is next, where several reach it (02 R28) -/
  dealt : Tab Nat
  /-- packets delivered to the fabric by this module, each with its spar: an output -/
  sent : List (Nat × Packet)
  /-- the tack whose payload window has been opened -/
  opened : Option Nat
  /-- flits sent, each with its spar and peer: an output -/
  flits : List (Nat × Nat × List Byte)
  /-- packets for this module held in the staging SRAM of a die while it sleeps (01 R17) -/
  staged : List (Nat × Packet)
deriving DecidableEq, Repr

/-- Pod boot (05 R92 to R95). -/
structure Boot where
  boot : Nat
  fstep : Nat
  fcode : Byte
  fseg : Byte
  frames : Tab Nat
  follows : Option (Nat × Nat)
  leading : Bool
  mhash : List Byte
  /-- modules heard: number ↦ clk -/
  heard : Tab Nat
  lastBeat : Nat
  round : Nat
  manifest : List (List Byte)
  manifestMod : List Byte
  /-- the manifest's container, as it was received -/
  container : List Byte
  /-- a leader's followers: the last bitmap each has sent -/
  bits : Tab (List Byte)
  /-- followers that the leader has sent the manifest and what they lacked -/
  served : List Nat
  verified : List Nat
  /-- the last chunk sent to each module (05 R93) -/
  lastSent : Tab Nat
deriving DecidableEq, Repr

/-- Power states (01 R13 to R17). -/
structure Power where
  off : Bool
  cur : Nat
  lim : Bool
  plim : Nat
  dltol : BitVec 24
  /-- a state being entered -/
  entering : Option Nat
  /-- a wake in progress: the clk at which it must be complete -/
  waking : Option Nat
  /-- clk of the last change of the tolerances or of the state: a dwell counts from it at the earliest -/
  dwell : Nat
deriving DecidableEq, Repr

/-- One turn of the machine (log 1): the clk that pass before it, and either an event or the core and context that
issue next. (Mark: DESIGN CHOICE, safe, log 1) -/
structure Turn where
  dt : Nat := 1
  core : Nat := 0
  ctx : Nat := 0
  event : Option Instr := none
  /-- a read by the host: it takes the turn -/
  read : Option HostRead := none
  /-- an error of the hardware: in the SRAM or the matrix engine it takes the turn, at the checker it meets the turn's
  instruction -/
  upset : Option Upset := none
deriving DecidableEq, Repr

/-- The module. -/
structure State where
  /-- clk since reset -/
  now : Nat
  /-- the coming turns: who moves next, and what arrives from outside (log 1) -/
  turns : List Turn
  /-- the core and context of the turn in progress -/
  core : Nat
  ctx : Nat
  /-- how many free values have been drawn (log 6) -/
  free : Nat
  /-- every byte of memory, by key (Machine/Ops.lean), in canonical form -/
  mem : List Host.Cell
  /-- poisoned 8-byte units, by key div 8 (09 R192) -/
  poison : List Nat
  cores : Tab Core
  clusters : Tab Cluster
  octets : Tab Octet
  walks : List GWalk
  grecvs : List GRecv
  bf : Tab (List BfReq)
  bfWait : Tab (List BfWait)
  tenants : Tab Tenant
  counters : Tab Counter
  trigOrder : Nat
  mbox : Tab MbRing
  msixOut : List (Nat × Nat × W64 × W32)
  /-- completions of the host's requests, newest last: an output -/
  hostAnswers : List Completion
  /-- Uncorrectable Internal Errors reported by AER (04 R64): an output -/
  aer : Nat
  pfMsix : Tab Msix
  dieLog : List (Nat × List Byte)
  launches : List Launch
  nextCtx : W32
  ageus : BitVec 16
  lastTen : Tab Nat
  contFlight : List ContRec
  kills : List Kill
  deferred : List Deferred
  /-- flits held in the buffers of input ports: (router, port, identifier) ↦ flits, oldest first -/
  routers : Tab (List MeshFlit)
  estates : Tab (List Estate)
  /-- last acquisition per die: ns and count -/
  acq : Tab (Nat × Nat)
  dseq : W32
  deaths : List Death
  deadGroups : List (Nat × W32 × W32)
  arrivals : List (Nat × Arrival)
  reports : List (Nat × Death)
  waiters : List Waiter
  cells : List RedCell
  fabric : Fabric
  boot : Boot
  power : Power
  /-- pod time of each die: ns since the counter's start, as an offset added to now / 2 -/
  podOff : Tab W64
  podFrac : Tab (BitVec 16)
  attr : Tab W16
  pool : List Nat
  fwAttest : Attest
  fwroot : W64
  mcerr : Bool
  prevec : W64
  /-- accesses of other modules that are parked here until a REPLAY (07 R147) -/
  parkedRemote : List (Packet × Parked)
deriving DecidableEq, Repr

/-! ## Reset -/

/-- STATUS of a context that starts (06 R105): PL as given, IE 1, everything else 0. -/
def statusStart (pl : Nat) : W64 := BitVec.ofNat 64 (pl * 4 + 16)

/-- A context that is not live, every register at its reset value (09 R170, R171, R181; log 2).
(Mark: DESIGN CHOICE, unsafe, log 2) -/
def Ctx.reset : Ctx :=
  { live := false, kind := .control, pc := 0, x := [], shadow := [], k := [], status := statusStart 0,
    tstatus := 0, taddr := 0, tcause := 0, tval := 0, uivec := 0, uiaddr := 0, uiovf := false, uiq := [],
    rndctr := 0, timef := 0, dlev := 0, vgrant := 0, storeq := [], pends := [], asyncs := [], due := [],
    parked := none, stall := 0, ir := none, stopped := false, trSince := 0, yielded := false, amodReply := [],
    heirless := false, joining := false, grant := none, retryAt := none }

/-- A ring descriptor at reset (07 R126): every field 0, the handle undefined. -/
def Ring.reset : Ring :=
  { base := 0, slott := 0, nslot := 0, prod := 0, cons := 0, fill := 0, pside := false, cside := false, peer := false }

/-- A core without a thread, its registers at their reset values (07 R126, R127; 09 R171, R176; 19 R368).
(Mark: DESIGN CHOICE, unsafe, log 2) -/
def Core.reset : Core :=
  { ctxs := [], tvec := 0, hchain := 0, pvec := 0, thread := none, partw := 0, rings := [], awd := [], eTiles := [],
    badTiles := [], holders := [], spilled := [], spillAt := 0, slots := [], bm := 0, arr := 0, vq := [], mqueue := [], copyTag := 0, copies := [],
    build := [], injq := [], recvq := [], rhead := 0, overflow := [], rej := false, rejAt := none, inbox := [],
    cxctx := 0, cxsel := 0, cxerr := false, saving := none, vcnt := [], tlive := 0, tcnt := 0, tlb := [], icache := [],
    halted := false, turn := 0 }

/-- An empty slot of the weight buffer (17 R325). -/
def WSlot.reset : WSlot := { line := 0, nline := 0, ceil := 0, type := 0, state := 0, scales := [] }

/-- A free accumulator bank (09 R187): all elements +0, FLAGS 0, the default map. (Mark: DESIGN CHOICE, unsafe, log 2) -/
def Bank.reset : Bank :=
  { elems := [], flags := 0, map := [], holder := none, latch := 0, shadow := none, second := false, count := 0 }

/-- A cluster at reset. (Mark: DESIGN CHOICE, unsafe, log 2) -/
def Cluster.reset : Cluster :=
  { tlb := [], walks := [], port := [], weight := [], slots := [], bank0 := .reset, bank1 := .reset, active := [],
    accsv := 0, run := none, wbload := none, served := 0, chkN := 0, pert := none, reload := [], contq := [],
    contovf := [], halted := false, haltCtx := 0, rot := 0, rotAt := 0, gatedAt := none, busyAt := 0 }

/-- An octet at reset (06 R111): pointer and deficits 0. -/
def Octet.reset : Octet := { rr := 0, deficit := [], accq := [], resv := [] }

/-- An attestation record at its start (05 R89): CHAIN of 32 zero bytes, empty log. -/
def Attest.reset : Attest := { chain := leBytes 32 0, log := [] }

/-- A submission page at reset (04 R72): LOG2N is 4. -/
def Page.reset : Page :=
  { cqbase := 0, cqcfg := 4, cqhead := 0, cqtail := 0, out := 0, retry := false, accepted := 0,
    queue := [], running := [], since := none }

/-- An MSI-X entry at reset: masked, as PCIe has it (log 7). (Mark: PRESUMED, unsafe, log 7) -/
def Msix.reset : Msix := { addr := 0, data := 0, masked := true, pending := false }

/-- A tenant at reset: its function disabled; TLTOL 0xFF_FFFF (01 R14), LOG2SZ 16 and W 1 (06 R116), FQCFG.LOG2N 8
(07 R145), every other register 0. (Mark: DESIGN CHOICE, unsafe, log 2) -/
def Tenant.reset : Tenant :=
  { vf := false, trect := 0, trectNew := none, tecr := 0, tsubcfg := 0, testr := 0, hwbase := 0, hwsize := 0, ptbase := 0, tfwin := 0,
    lmapb := 0, esth := 0, estl := 0, esthLcore := 0, esthCtx := 0,
    reporting := false, tltol := 0xFFFFFF, terr := 0, pages := [], msix := [],
    attest := .reset, smpbase := 0, smpcfg := 512, hwt := 1, wcount := 0, drops := 0, fqbase := 0, fqcfg := 8,
    fqhead := 0, fqtail := 0, fq := [], fqWait := [], tokens := [] }

/-- An event counter at reset. -/
def Counter.reset : Counter := { val := 0, trigs := [] }

/-- A mailbox ring at reset (04 R81). -/
def MbRing.reset : MbRing := { ents := [], tail := 0, head := 0, wake := false, held := [], seq := 0, stamps := [] }

/-- Link state that no flit has touched. -/
def Link.reset : Link := 
  { lseq := 0, aseq := 0xFFF, replay := [], nak := false, resend := false, dep := none, depOld := none, arr := none, part := [] }

/-- A flow from which nothing has arrived (02 R35). -/
def RxFlow.reset : RxFlow := { base := 0, done := [], held := [] }

/-- The fabric at cold boot (02 R38 to R43): registers at their reset values, RUN, the boot schedule in force (05 R91). -/
def Fabric.reset : Fabric :=
  { fpod := 0, fnext := 0, fdarkt := 0, fswtime := 0, lock := false, rig := 0, err := false, late := false,
    fgrant := 9362, boot := true, good := 0, lastExch := 0, pllLock := true, pllSince := 0, delays := [], links := [],
    sendq := [], unacked := [], nextSeq := [], usedFlows := [], rx := [], cache := [], relayed := [], allow := [],
    firstGrant := 9362, gotTotal := [], granted := 9362, retTotal := [], withheld := [], returns := [], markers := [], drains := 0,
    relockAt := none, log := [], dealt := [], sent := [], opened := none, flits := [], staged := [] }

/-- DINFO and pod boot at reset (04 R66): BOOT 1, no stack trained. -/
def Boot.reset : Boot :=
  { boot := 1, fstep := 0, fcode := 0, fseg := 0, frames := [], follows := none, leading := false, mhash := [],
    heard := [], lastBeat := 0, round := 0, manifest := [], manifestMod := [], container := [], bits := [], served := [], verified := [], lastSent := [] }

/-- Power registers at reset (01 R14, R15): A0, PLIM 3,200 W, DLTOL 1. -/
def Power.reset : Power :=
  { off := false, cur := 0, lim := false, plim := 3200, dltol := 1, entering := none, waking := none, dwell := 0 }

/-- The number of the monitor core in the table of cores; service core s has number 0x1000 + s. -/
def monitorCore : Nat := 0x1010

/-- The module right after reset: every field at the value the spec states, no launch, no tenant enabled, memory
with nothing listed. Which core takes the first turn is the model's own (log 1).
(Mark: DESIGN CHOICE, unsafe, log 2; DESIGN CHOICE, unsafe, log 101) -/
def State.reset : State :=
  { now := 0, turns := [], core := monitorCore, ctx := 0, free := 0, mem := [], poison := [], cores := [],
    clusters := [], octets := [], walks := [], grecvs := [], bf := [], bfWait := [], tenants := [], counters := [],
    trigOrder := 0, mbox := [], msixOut := [], hostAnswers := [], aer := 0, pfMsix := [], dieLog := [], launches := [], nextCtx := 1, ageus := 100,
    lastTen := [], contFlight := [], kills := [], deferred := [], routers := [], estates := [], acq := [], dseq := 0, deaths := [],
    deadGroups := [], arrivals := [], reports := [], waiters := [], cells := [], fabric := .reset, boot := .reset,
    power := .reset, podOff := [], podFrac := [], attr := [], pool := [], fwAttest := .reset, fwroot := 0,
    mcerr := false, prevec := 0, parkedRemote := [] }

end Sys2Proof.Machine
end

