-- ==== Sys2Proof/Machine/Ops.lean ====
section
/-! DEFINITION. The named operations over the state: parts and registers, memory bytes, mailbox rings and
machine-check records, kills, taking an exception and returning from one. -/

namespace Sys2Proof.Machine

/-- The three outcomes of an instruction of this machine. -/
abbrev Out := Host.Outcome State Fault Refusal

/-! ## Numbers of parts (03 R48; 04 R80) -/

/-- An array core. -/
def isArray (c : Nat) : Bool := decide (c < 4096)
/-- A service core: 0x1000 + s. -/
def isService (c : Nat) : Bool := decide (4096 ≤ c ∧ c < 4112)
/-- The cluster of an array core. -/
def clusterOf (c : Nat) : Nat := c / 16
/-- The octet of an array core. -/
def octetOf (c : Nat) : Nat := c / 8
/-- The other core of the pair. -/
def partnerOf (c : Nat) : Nat := if c % 2 = 0 then c + 1 else c - 1
/-- The die of a core: service core s sits in stack s div 2 of die s div 4; the monitor core is on die 0. -/
def dieOf (c : Nat) : Nat := if isArray c then c / 1024 else if isService c then (c - 4096) / 4 else 0
/-- Grid column of a cluster. -/
def gridX (cl : Nat) : Nat := (cl / 64 % 2) * 8 + cl % 8
/-- Grid row of a cluster. -/
def gridY (cl : Nat) : Nat := (cl / 64 / 2) * 8 + cl / 8 % 8
/-- The quadrant of a cluster. -/
def quadrantOf (cl : Nat) : Nat := cl / 64 * 4 + (cl / 8 % 8) / 4 * 2 + (cl % 8) / 4

/-! ## Parts of the state -/

/-- The core with a number. -/
def State.coreAt (s : State) (c : Nat) : Core := Tab.get s.cores Core.reset c
/-- Replace a core. -/
def State.setCore (s : State) (c : Nat) (k : Core) : State := { s with cores := Tab.set s.cores c k }
/-- A context of a core. -/
def State.ctxAt (s : State) (c x : Nat) : Ctx := Tab.get (s.coreAt c).ctxs Ctx.reset x
/-- Replace a context. -/
def State.setCtx (s : State) (c x : Nat) (v : Ctx) : State :=
  s.setCore c { s.coreAt c with ctxs := Tab.set (s.coreAt c).ctxs x v }
/-- The issuing context. -/
def State.me (s : State) : Ctx := s.ctxAt s.core s.ctx
/-- Replace the issuing context. -/
def State.setMe (s : State) (v : Ctx) : State := s.setCtx s.core s.ctx v
/-- The issuing core. -/
def State.myCore (s : State) : Core := s.coreAt s.core
/-- Replace the issuing core. -/
def State.setMyCore (s : State) (k : Core) : State := s.setCore s.core k
/-- A cluster. -/
def State.clusterAt (s : State) (c : Nat) : Cluster := Tab.get s.clusters Cluster.reset c
/-- Replace a cluster. -/
def State.setCluster (s : State) (c : Nat) (v : Cluster) : State := { s with clusters := Tab.set s.clusters c v }
/-- An octet. -/
def State.octetAt (s : State) (o : Nat) : Octet := Tab.get s.octets Octet.reset o
/-- Replace an octet. -/
def State.setOctet (s : State) (o : Nat) (v : Octet) : State := { s with octets := Tab.set s.octets o v }
/-- A tenant. -/
def State.tenantAt (s : State) (t : Nat) : Tenant := Tab.get s.tenants Tenant.reset t
/-- Replace a tenant. -/
def State.setTenant (s : State) (t : Nat) (v : Tenant) : State := { s with tenants := Tab.set s.tenants t v }
/-- A global event counter. -/
def State.counterAt (s : State) (i : Nat) : Counter := Tab.get s.counters Counter.reset i
/-- Replace a counter. -/
def State.setCounter (s : State) (i : Nat) (v : Counter) : State := { s with counters := Tab.set s.counters i v }
/-- A submission page of a tenant. -/
def Tenant.pageAt (t : Tenant) (p : Nat) : Page := Tab.get t.pages Page.reset p
/-- Replace a submission page. -/
def Tenant.setPage (t : Tenant) (p : Nat) (v : Page) : Tenant := { t with pages := Tab.set t.pages p v }
/-- Mailbox ring `r` of service core `v`. -/
def State.mboxAt (s : State) (v r : Nat) : MbRing := Tab.get s.mbox MbRing.reset (v * 4 + r)
/-- Replace a mailbox ring. -/
def State.setMbox (s : State) (v r : Nat) (m : MbRing) : State := { s with mbox := Tab.set s.mbox (v * 4 + r) m }
/-- The arrival stamp of the next monitor call: above that of every call still waiting in a ring (05 R84). -/
def State.nextStamp (s : State) : Nat := s.mbox.foldl (fun n p => p.2.stamps.foldl (fun a x => max a (x + 1)) n) 0

/-! ## Identity of a context (06 R100) -/

/-- The tenant of a core's thread; 16, firmware, on a core without a tenant. -/
def State.tenOf (s : State) (c : Nat) : Nat :=
  match (s.coreAt c).thread with
  | some (t, _, _) => t
  | none => 16
/-- The CTXID of a core's thread, 0 without one. -/
def State.ctxidOf (s : State) (c : Nat) : W32 :=
  match (s.coreAt c).thread with
  | some (_, i, _) => i
  | none => 0
/-- LCORE of a core's thread. -/
def State.lcoreOf (s : State) (c : Nat) : Nat :=
  match (s.coreAt c).thread with
  | some (_, _, l) => l
  | none => 0
/-- The launch of a tenant and CTXID. -/
def State.launchBy (s : State) (t : Nat) (i : W32) : Option Launch :=
  s.launches.find? (fun l => decide (l.ten = t ∧ l.ctxid = i))
/-- The launch whose thread a core holds. -/
def State.launchOf (s : State) (c : Nat) : Option Launch :=
  match (s.coreAt c).thread with
  | some (t, i, _) => s.launchBy t i
  | none => none
/-- Change the launch of a tenant and CTXID. -/
def State.updLaunch (s : State) (t : Nat) (i : W32) (f : Launch → Launch) : State :=
  { s with launches := s.launches.map (fun l => if l.ten = t ∧ l.ctxid = i then f l else l) }
/-- NLEV of a launch record (06 R96). -/
def Launch.nlev (l : Launch) : Nat := recNat l.record 0 8 % 16
/-- VWT of a launch record. -/
def Launch.vwt (l : Launch) : Nat := recNat l.record 0 8 / 256 % 16
/-- Level descriptor `i` (06 R97). -/
def Launch.level (l : Launch) (i : Nat) : Nat := recNat l.record (64 + 8 * i) 8
/-- COUNT of level `i`. -/
def Launch.count (l : Launch) (i : Nat) : Nat := l.level i % 2 ^ 20
/-- DOM of level `i`. -/
def Launch.dom (l : Launch) (i : Nat) : Nat := l.level i / 2 ^ 24 % 8
/-- SCOPE of level `i`. -/
def Launch.scope (l : Launch) (i : Nat) : Nat := l.level i / 2 ^ 27 % 4
/-- JOBSEED of a launch record. -/
def Launch.jobseed (l : Launch) : W64 := BitVec.ofNat 64 (recNat l.record 16 8)
/-- The product of the counts of levels i, i+1, ... (n of them). -/
def Launch.countProd (l : Launch) (i n : Nat) : Nat :=
  match n with
  | 0 => 1
  | m + 1 => l.count i * Launch.countProd l (i + 1) m
/-- The number of threads of a launch (06 R99). (Mark: DESIGN CHOICE, unsafe, log 25) -/
def Launch.threads (l : Launch) : Nat := l.countProd 0 l.nlev
/-- The group ID of a thread at a level, or of the root (level 8) (06 R99). -/
def Launch.group (l : Launch) (level lcore : Nat) : W32 :=
  if level ≥ 8 then BitVec.ofNat 32 (8 * 2 ^ 24)
  else BitVec.ofNat 32 (lcore / l.countProd (level + 1) (l.nlev - level - 1) + level * 2 ^ 24)

/-! ## Contexts and their registers -/

/-- STATUS.TR. -/
def Ctx.tr (x : Ctx) : Bool := bitOn x.status 0
/-- STATUS.UI. -/
def Ctx.ui (x : Ctx) : Bool := bitOn x.status 1
/-- STATUS.PL. -/
def Ctx.pl (x : Ctx) : Nat := bitsAt x.status 2 2
/-- STATUS.IE. -/
def Ctx.ie (x : Ctx) : Bool := bitOn x.status 4
/-- STATUS.UIE. -/
def Ctx.uie (x : Ctx) : Bool := bitOn x.status 5
/-- STATUS.INJ. -/
def Ctx.inj (x : Ctx) : Bool := bitOn x.status 6
/-- STATUS.RM. -/
def Ctx.rm (x : Ctx) : Nat := bitsAt x.status 8 3
/-- STATUS.FLAGS. -/
def Ctx.flags (x : Ctx) : Nat := bitsAt x.status 11 5
/-- STATUS.EN. -/
def Ctx.en (x : Ctx) : Nat := bitsAt x.status 16 5

/-- Read a scalar register (12 R230): x0 reads 0; while UI = 1, x24 to x31 name the shadow bank. -/
def Ctx.rd (x : Ctx) (r : BitVec 5) : W64 :=
  if r = 0 then 0
  else if x.ui && decide (24 ≤ r.toNat) then Tab.get x.shadow 0 r.toNat
  else Tab.get x.x 0 r.toNat

/-- Write a scalar register: a write to x0 is discarded. -/
def Ctx.wr (x : Ctx) (r : BitVec 5) (v : W64) : Ctx :=
  if r = 0 then x
  else if x.ui && decide (24 ≤ r.toNat) then { x with shadow := Tab.set x.shadow r.toNat v }
  else { x with x := Tab.set x.x r.toNat v }

/-- Read a mask register: k0 reads all ones. -/
def Ctx.krd (x : Ctx) (r : Nat) : BitVec 256 := if r = 0 then BitVec.allOnes 256 else Tab.get x.k 0 r

/-- Write a mask register: a write to k0 is discarded. -/
def Ctx.kwr (x : Ctx) (r : Nat) (v : BitVec 256) : Ctx := if r = 0 then x else { x with k := Tab.set x.k r v }

/-- Read a scalar register of the issuing context. -/
def State.rd (s : State) (r : BitVec 5) : W64 := s.me.rd r
/-- Write a scalar register of the issuing context. -/
def State.wr (s : State) (r : BitVec 5) (v : W64) : State := s.setMe (s.me.wr r v)

/-! ## Virtual counters (06 R117, R118) -/

/-- A context of the core is live. -/
def Core.anyLive (k : Core) : Bool := k.ctxs.any (fun p => p.2.live)
/-- How many contexts of the core are live. -/
def Core.liveCount (k : Core) : Nat := (k.ctxs.filter (fun p => p.2.live)).length
/-- The cores of a cluster with live contexts of a launch. -/
def State.liveCores (s : State) (cl : Nat) : List Nat :=
  (upTo (cl * 16) 16).filter (fun c => (s.coreAt c).anyLive && (s.coreAt c).thread.isSome)
/-- Positions of the two cores that hold physical counters, for a rotation that stands at `rot`. -/
def holders (l : List Nat) (rot : Nat) : List Nat :=
  if l.length ≤ 2 then l
  else
    let i := match findAt (fun c => decide (rot ≤ c)) l with
      | some (i, _) => i
      | none => 0
    [nth l 0 i, nth l 0 ((i + 1) % l.length)]
/-- The core holds physical counters. -/
def State.counted (s : State) (c : Nat) : Bool :=
  (holders (s.liveCores (clusterOf c)) (s.clusterAt (clusterOf c)).rot).any (fun d => d == c)
/-- The raw counts after `n` events of a code, for the codes that CTRSEL selects. -/
def countIn (record : List Byte) (t : Tab Nat) (code n : Nat) : Tab Nat :=
  (upTo 0 8).foldl (fun t i => if recNat record (56 + i) 1 = code then Tab.set t i (Tab.get t 0 i + n) else t) t
/-- Count `n` events of a code on a core. -/
def State.countOn (s : State) (c code n : Nat) : State :=
  match s.launchOf c with
  | none => s
  | some l =>
    if s.counted c then s.setCore c { s.coreAt c with vcnt := countIn l.record (s.coreAt c).vcnt code n } else s

/-! ## Ending an instruction -/

/-- The issuing context goes on at an address, its stall ended. -/
def State.goto (s : State) (t : W64) : State :=
  s.setMe { s.me with pc := t, stall := 0, grant := none, joining := false }
/-- The instruction retires (06 R117 code 0x02) and the context goes on at pc + 4. -/
def State.retire (s : State) : State :=
  (s.countOn s.core 2 1).setMe { (s.countOn s.core 2 1).me with pc := s.me.pc + 4, stall := 0, grant := none, joining := false }
/-- The instruction writes a register and retires. -/
def State.done (s : State) (d : BitVec 5) (v : W64) : Out := .next (s.wr d v).retire
/-- The instruction waits with a stall reason (06 R115): the pc stays and it executes again at a later turn.
(Mark: DESIGN CHOICE, safe, log 15) -/
def State.wait (s : State) (reason : Nat) : Out := .next (s.setMe { s.me with stall := reason })

/-! ## Memory bytes

One list holds every byte of the module by key: HBM at its physical address, core pools, cluster memories and the
host memory that the module writes above it. A byte that is not listed reads 0 (log 3). -/

/-- Key of byte `o` of core `c`'s pool. -/
def poolKey (c o : Nat) : Nat := 2 ^ 60 + c * 2 ^ 18 + o
/-- Key of byte `o` of cluster `cl`'s cluster memory. -/
def cmemKey (cl o : Nat) : Nat := 2 ^ 61 + cl * 2 ^ 22 + o
/-- Key under which byte `o` of cluster `cl`'s weight buffer bears its poison mark (09 R192). -/
def weightKey (cl o : Nat) : Nat := 2 ^ 62 + cl * 2 ^ 22 + o
/-- Key of a byte at a host bus address. (Mark: DESIGN CHOICE, safe, log 134) -/
def hostKey (a : Nat) : Nat := 2 ^ 64 + a

/-- The byte at a key: what an unlisted key reads as is 0. (Mark: DESIGN CHOICE, unsafe, log 3) -/
def memGet (m : List Host.Cell) (k : Nat) : Byte :=
  match m with
  | [] => 0
  | (j, b) :: r => if k = j then b else memGet r k

/-- Write a byte, keeping the canonical form: keys rising, no byte 0 listed. (Mark: DESIGN CHOICE, unsafe, log 3) -/
def memPut (m : List Host.Cell) (k : Nat) (b : Byte) : List Host.Cell :=
  match m with
  | [] => if b = 0 then [] else [(k, b)]
  | (j, c) :: r =>
    if k < j then (if b = 0 then (j, c) :: r else (k, b) :: (j, c) :: r)
    else if k = j then (if b = 0 then r else (k, b) :: r)
    else (j, c) :: memPut r k b

/-- Every key is at least `lo`, the keys rise strictly, and no byte listed is 0. (Mark: DESIGN CHOICE, unsafe, log 3) -/
def Memory.wfFrom (lo : Nat) (m : List Host.Cell) : Bool :=
  match m with
  | [] => true
  | (j, b) :: r => decide (lo ≤ j) && decide (b ≠ 0) && Memory.wfFrom (j + 1) r

/-- The canonical form of memory. (Mark: DESIGN CHOICE, unsafe, log 3) -/
def Memory.wf (m : List Host.Cell) : Bool := Memory.wfFrom 0 m

/-- Write bytes at rising keys. -/
def memPutN (m : List Host.Cell) (k : Nat) (l : List Byte) : List Host.Cell :=
  match l with
  | [] => m
  | b :: r => memPutN (memPut m k b) (k + 1) r

/-- Make `n` bytes from a key read 0. -/
def memZero (m : List Host.Cell) (k n : Nat) : List Host.Cell :=
  m.filter (fun c => ! decide (k ≤ c.1 ∧ c.1 < k + n))

/-- A byte of memory. -/
def State.peek (s : State) (k : Nat) : Byte := memGet s.mem k
/-- `n` bytes of memory. -/
def State.peekN (s : State) (k n : Nat) : List Byte := (upTo k n).map s.peek
/-- Write bytes; a full write of an 8-byte unit clears its poison (09 R192). -/
def State.pokeN (s : State) (k : Nat) (l : List Byte) : State :=
  { s with mem := memPutN s.mem k l,
           poison := s.poison.filter (fun u => ! decide (k ≤ 8 * u ∧ 8 * u + 8 ≤ k + l.length)) }
/-- Full 8-byte units of a range lose their poison marks. -/
def State.clearPoison (s : State) (k n : Nat) : State :=
  { s with poison := s.poison.filter (fun u => ! decide (k ≤ 8 * u ∧ 8 * u + 8 ≤ k + n)) }
/-- Copy bytes with their poison marks between ranges that are aligned to 8 and do not meet (09 R192). -/
def State.moveBytes (s : State) (dst src n : Nat) : State :=
  let marks := (s.poison.filter (fun u => decide (src ≤ 8 * u ∧ 8 * u < src + n))).map (fun u => u - src / 8 + dst / 8)
  let t := s.pokeN dst (s.peekN src n)
  { t with poison := t.poison ++ marks }
/-- Make a region read 0, its poison cleared. -/
def State.zero (s : State) (k n : Nat) : State :=
  { s with mem := memZero s.mem k n, poison := s.poison.filter (fun u => ! decide (k ≤ 8 * u ∧ 8 * u + 8 ≤ k + n)) }
/-- A poisoned unit lies in a range of keys. -/
def State.poisoned (s : State) (k n : Nat) : Bool :=
  s.poison.any (fun u => decide (k < 8 * u + 8 ∧ 8 * u < k + n))
/-- Little-endian read of `n` bytes. -/
def State.peekLe (s : State) (k n : Nat) : Nat := ofLeBytes (s.peekN k n)
/-- Little-endian write of `n` bytes. -/
def State.pokeLe (s : State) (k n v : Nat) : State := s.pokeN k (leBytes n v)

/-- Draw the next free value (log 6). (Mark: DESIGN CHOICE, safe, log 6) -/
def State.draw (s : State) : W64 × State := (Config.freeValue s.free, { s with free := s.free + 1 })

/-! ## Pod time (01 R11) -/

/-- Pod time of a die in units of 2^-16 ns: half a ns a clk, beside the offset that the servo steers (01 R11). -/
def State.podScaled (s : State) (die : Nat) : Nat :=
  s.now * 32768 + (Tab.get s.podOff 0 die).toNat * 65536 + (Tab.get s.podFrac 0 die).toNat
/-- Pod time of a die in whole ns. -/
def State.podTime (s : State) (die : Nat) : W64 := BitVec.ofNat 64 (s.podScaled die / 65536)
/-- The fraction of a ns, in units of 2^-16: half a ns in odd clk, beside the die's own phase. -/
def State.podFraction (s : State) (die : Nat) : BitVec 16 := BitVec.ofNat 16 (s.podScaled die)

/-! ## Mailbox rings and machine checks (04 R81 to R83) -/

/-- An entry made by hardware: TYPE, HWA = 1, SEQ, and the 56 bytes of the body. -/
def mbEntry (type : Nat) (seq : W32) (body : List Byte) : List Byte :=
  leBytes 8 (type + 2 ^ 28 + seq.toNat * 2 ^ 32) ++ sliceBytes body 0 56

/-- Put an entry into an inbound ring, or hold it while the ring is full; no record is dropped.
(Mark: DEDUCED, unsafe, log 40) -/
def State.mbPut (s : State) (v r type : Nat) (body : List Byte) : State :=
  let m := s.mboxAt v r
  let e := mbEntry type m.seq body
  if (m.tail - m.head).toNat < 64 ∧ m.held = [] then
    s.setMbox v r { m with ents := Tab.set m.ents (m.tail.toNat % 64) e, tail := m.tail + 1, seq := m.seq + 1 }
  else s.setMbox v r { m with held := m.held ++ [e], seq := m.seq + 1 }

/-- Held records enter the ring as space appears. -/
def MbRing.refill (m : MbRing) (n : Nat) : MbRing :=
  match n with
  | 0 => m
  | k + 1 =>
    match m.held with
    | [] => m
    | e :: r =>
      if (m.tail - m.head).toNat < 64 then
        MbRing.refill { m with ents := Tab.set m.ents (m.tail.toNat % 64) e, tail := m.tail + 1, held := r } k
      else m

/-- A machine-check record on ring 0 of a service core: kind, tenant, CTXID, address, bytes 32 to 63. -/
def State.machineCheck (s : State) (v kind ten : Nat) (ctxid : W32) (addr : W64) (detail : List Byte) : State :=
  s.mbPut v 0 1 (leBytes 1 kind ++ leBytes 1 0 ++ leBytes 2 (if ten < 16 then ten else 0xFFFF) ++ leBytes 4 ctxid.toNat
    ++ leBytes 8 addr.toNat ++ leBytes 8 (s.podTime (v / 4)).toNat ++ detail)

/-- The service core that receives the machine checks of a die: the lowest-numbered of the die (log 8).
(Mark: DEDUCED, unsafe, log 8) -/
def dieService (die : Nat) : Nat := 4 * die

/-! ## Asynchronous causes and user interrupts (09 R172, R181) -/

/-- An asynchronous cause becomes pending at a context. -/
def State.postAsync (s : State) (c x : Nat) (cause : Nat) (v : W64) : State :=
  let k := s.ctxAt c x
  if k.live then s.setCtx c x { k with asyncs := k.asyncs ++ [{ cause := BitVec.ofNat 8 cause, val := v }] } else s

/-- A user interrupt is appended to a context's queue of 16; a full queue drops it and sets OVF. -/
def State.postUi (s : State) (c x : Nat) (src : Nat) (tag : Nat) : State :=
  let k := s.ctxAt c x
  if ! k.live then s
  else if k.uiq.length < 16 then
    s.setCtx c x { k with uiq := k.uiq ++ [{ src := BitVec.ofNat 4 src, tag := BitVec.ofNat 48 tag }] }
  else s.setCtx c x { k with uiovf := true }

/-- The core that holds a thread (tenant, CTXID, LCORE) whose contexts can be reached. -/
def State.threadCore (s : State) (o : Nat × W32 × Nat) : Option Nat :=
  (s.cores.find? (fun p => decide (p.2.thread = some o) && p.2.saving.isNone)).map (fun p => p.1)

/-- A thread is suspended, or being saved or restored. (Mark: DEDUCED, unsafe, log 24; DESIGN CHOICE, unsafe, log 97) -/
def State.away (s : State) (o : Nat × W32 × Nat) : Bool :=
  s.cores.any (fun p => decide (p.2.thread = some o) && p.2.saving.isSome)
  || (match s.launchBy o.1 o.2.1 with
    | some l => (Tab.find l.saved o.2.2).isSome
    | none => false)

/-- An asynchronous cause for a context of a thread, held back while the thread is suspended. (Mark: DEDUCED, unsafe, log 24) -/
def State.asyncTo (s : State) (o : Nat × W32 × Nat) (x : Nat) (cause : Nat) (v : W64) : State :=
  match s.threadCore o with
  | some c => s.postAsync c x cause v
  | none =>
    let d : Deferred := { ten := o.1, ctxid := o.2.1, lcore := o.2.2, ctx := x,
                          async := some { cause := BitVec.ofNat 8 cause, val := v }, ui := none, flags := 0 }
    if s.away o then { s with deferred := s.deferred ++ [d] } else s

/-- A user interrupt for a context of a thread, held back while the thread is suspended. (Mark: DEDUCED, unsafe, log 24) -/
def State.uiTo (s : State) (o : Nat × W32 × Nat) (x src tag : Nat) : State :=
  match s.threadCore o with
  | some c => s.postUi c x src tag
  | none =>
    let d : Deferred := { ten := o.1, ctxid := o.2.1, lcore := o.2.2, ctx := x, async := none,
                          ui := some { src := BitVec.ofNat 4 src, tag := BitVec.ofNat 48 tag }, flags := 0 }
    if s.away o then { s with deferred := s.deferred ++ [d] } else s

/-! ## Kills (03 R62, R63; 09 R188) -/

/-- A thread (tenant, CTXID, LCORE) belongs to a tenant's CTXID. -/
def ownedBy (o : Nat × W32 × Nat) (ten : Nat) (ctxid : W32) : Bool := decide (o.1 = ten ∧ o.2.1 = ctxid)

/-- A core drops everything of a tenant's CTXID: its thread with every context, store queues, commands and queues; a
suspended thread of it loses its slot and tags. (Mark: DEDUCED, unsafe, log 74) -/
def Core.killed (k : Core) (ten : Nat) (ctxid : W32) : Core :=
  let mine := match k.thread with
    | some (t, i, _) => decide (t = ten ∧ i = ctxid)
    | none => false
  let slots := k.slots.filter (fun p => ! decide (p.2.ten = ten ∧ p.2.ctxid = ctxid))
  let gone := fun (h : Holder) => match h with
    | .free => false
    | .running => mine
    | .slot n => (Tab.find k.slots n).isSome && (Tab.find slots n).isNone
  let left := k.injq.filter (fun m => match m.owner with
    | some o => ! ownedBy o ten ctxid
    | none => true)
  let k1 : Core := { k with slots := slots, holders := k.holders.filter (fun p => ! gone p.2),
                            inbox := k.inbox.filter (fun m => ! decide (m.ten = ten ∧ m.ctxid = ctxid)),
                            mqueue := k.mqueue.filter (fun m => ! ownedBy m.owner ten ctxid),
                            copies := k.copies.filter (fun m => ! ownedBy m.owner ten ctxid),
                            injq := left,
                            rejAt := if left.take 1 = k.injq.take 1 then k.rejAt else none }
  if mine then
    { k1 with ctxs := [], thread := none, vq := [], recvq := [], overflow := [], rej := false, saving := none, rings := [], awd := [], eTiles := [], badTiles := [],
              bm := 0, arr := 0, vcnt := [], tlive := 0, tcnt := 0, cxctx := 0, cxsel := 0, cxerr := false }
  else k1

/-- A bank frees when its holder is killed. -/
def Bank.killed (b : Bank) (ten : Nat) (ctxid : W32) : Bank :=
  if b.holder = some (ten, ctxid) then Bank.reset else b

/-- What a cluster drops at a kill: banks, a weight load parked on a miss, continuation records and walks of the
context; a matrix command that has started finishes (17 R333). (Mark: DEDUCED, unsafe, log 74) -/
def Cluster.killed (k : Cluster) (ten : Nat) (ctxid : W32) (inCores : Nat → Bool) : Cluster :=
  { k with bank0 := k.bank0.killed ten ctxid, bank1 := k.bank1.killed ten ctxid,
           active := k.active.filter (fun a => ! decide (a.1 = ten ∧ a.2.1 = ctxid)),
           wbload := match k.wbload with
             | some r => if ownedBy r.owner ten ctxid && r.parked.isSome then none else some r
             | none => none,
           slots := match k.wbload with
             | some r => if ownedBy r.owner ten ctxid && r.parked.isSome
               then Tab.set k.slots (bitsAt (nth r.vals 0 1) 0 6) WSlot.reset else k.slots
             | none => k.slots,
           walks := k.walks.filter (fun w => ! inCores w.core),
           reload := k.reload.filter (fun a => ! decide (a.1 = ten ∧ a.2.1 = ctxid)),
           contq := k.contq.filter (fun r => ! decide (r.ctxid = ctxid ∧ r.ten = ten)),
           contovf := k.contovf.filter (fun r => ! decide (r.ctxid = ctxid ∧ r.ten = ten)) }

/-- The stall reason of a context as samples and counters have it (06 R115): one that could issue is stopped while its thread
is being saved or restored (14), or it is another context's turn (13). (Mark: DEDUCED, unsafe, log 130) -/
def Core.reason (k : Core) (x : Nat) (y : Ctx) : Nat :=
  if y.stall ≠ 0 then y.stall % 16
  else if (match k.saving with
    | some (_, h) => decide (x ≠ h)
    | none => false) then 14
  else if x ≠ k.turn then 13
  else 0

/-- A core holds a thread of the context. -/
def State.holdsThread (s : State) (ten : Nat) (ctxid : W32) (c : Nat) : Bool :=
  match (s.coreAt c).thread with
  | some (t, i, _) => decide (t = ten ∧ i = ctxid)
  | none => false

/-- ESTH.V clears when the registered context is killed or halts (10 R206). -/
def Tenant.unregister (n : Tenant) (ctxid : W32) (here : Bool) : Tenant :=
  if here && bitsAt n.esth 16 32 == ctxid.toNat then { n with esth := putBits n.esth 48 1 0, reporting := false } else n

/-- Contexts that leave the butterfly: a request that carries no other add is gone (03 R62). -/
def bfForget (hit : Nat → Nat → Bool) (l : List BfReq) : List BfReq :=
  (l.map (fun (r : BfReq) => { r with leaves := r.leaves.filter (fun e => ! hit e.1 e.2.1) })).filter (fun r => ! r.leaves.isEmpty)

/-- The same for wait-buffer entries. -/
def bfForgetWaits (hit : Nat → Nat → Bool) (l : List BfWait) : List BfWait :=
  let cut := fun (r : BfReq) => { r with leaves := r.leaves.filter (fun e => ! hit e.1 e.2.1) }
  (l.map (fun (w : BfWait) => { w with first := cut w.first, second := cut w.second })).filter
    (fun w => ! (w.first.leaves.isEmpty && w.second.leaves.isEmpty))

/-- The die whose Cleat serves a memory key (10 R193). -/
def keyDie (k : Nat) : Nat :=
  if k < 2 ^ 60 then k / 2 ^ 37 else if k < 2 ^ 61 then (k - 2 ^ 60) / 2 ^ 28 else (k - 2 ^ 61) / 2 ^ 28

/-- A group is dead as a die's Cleat has it. -/
def State.deadOn (s : State) (die ten : Nat) (ctxid g : W32) : Bool :=
  s.deadGroups.contains (ten, ctxid, g)
  || s.deaths.any (fun d => decide (d.ten = ten ∧ d.ctxid = ctxid ∧ d.group = g) && d.applied.contains die)

/-- A die's Cleat discards what a killed launch asks of it: the kill has reached it, or it has taken the launch's death
(03 R62; 10 R199). (Mark: DEDUCED, unsafe, log 30) -/
def State.deaf (s : State) (die ten : Nat) (ctxid : W32) : Bool :=
  s.deadOn die ten ctxid (BitVec.ofNat 32 (8 * 2 ^ 24))
  || s.kills.any (fun k => decide (k.ten = ten ∧ k.ctxid = ctxid) && k.reached.contains (.cleat (BitVec.ofNat 2 die)))

/-- The context registered in ESTH is one of a thread. -/
def Tenant.registered (n : Tenant) (ctxid : W32) (lc : Nat) : Bool :=
  bitOn n.esth 48 && bitsAt n.esth 16 32 == ctxid.toNat && n.esthLcore == lc

/-- The 32 bytes of an entry (10 R195). -/
def Estate.toBytes (e : Estate) : List Byte :=
  leBytes 4 e.ctxid.toNat ++ leBytes 4 e.holder.toNat
  ++ leBytes 8 (e.ref.toNat % 2 ^ 56 + e.kind * 2 ^ 56 + e.state * 2 ^ 59 + b2n e.bereaved * 2 ^ 61)
  ++ leBytes 8 e.seq.toNat ++ leBytes 4 e.heir.toNat ++ leBytes 4 e.heirctx.toNat

/-- Sign extension of a field to 64 bits. -/
def sext {w : Nat} (v : BitVec w) : W64 := v.signExtend 64
/-- Zero extension of a field to 64 bits. -/
def zext {w : Nat} (v : BitVec w) : W64 := v.setWidth 64
/-- A number as a 64-bit word. -/
def w64 (n : Nat) : W64 := BitVec.ofNat 64 n

/-- A report that no handler takes goes to ring 0 of service core 0. -/
def State.reportCheck (s : State) (d : Death) : State :=
  match d.heirless with
  | [] => s
  | e :: _ => s.machineCheck 0 6 d.ten d.ctxid (w64 (e.ref.toNat % 2 ^ 56))
      (leBytes 4 d.dseq.toNat ++ leBytes 2 d.heirless.length ++ leBytes 2 0 ++ e.toBytes.take 24)

/-- With no handler, or no report area, the reports that wait for one go to ring 0 of service core 0 (10 R207).
(Mark: DEDUCED, unsafe, log 32) -/
def State.flushReports (s : State) (ten : Nat) : State :=
  let n := s.tenantAt ten
  if bitOn n.esth 48 && decide (n.estl.toNat / 4096 ≠ 0) then s
  else
    let mine := s.reports.filter (fun r => r.1 == ten)
    mine.foldl (fun (u : State) r => u.reportCheck r.2) { s with reports := s.reports.filter (fun r => r.1 != ten) }

/-- The kill reaches a cluster: its cores reset every thread of the context at once, its engines drop the context's
commands, its router the flits; waits of those cores are withdrawn. (Mark: DEDUCED, unsafe, log 30) -/
def State.killCores (s : State) (ten : Nat) (ctxid : W32) (cl : Nat) : State :=
  let hit := fun c => s.holdsThread ten ctxid c && decide (clusterOf c = cl)
  let cores := s.cores.map (fun p => if isArray p.1 && clusterOf p.1 == cl then (p.1, p.2.killed ten ctxid) else p)
  { s with cores := cores,
           clusters := match Tab.find s.clusters cl with
             | some k => Tab.set s.clusters cl { k.killed ten ctxid hit with busyAt := s.now }
             | none => s.clusters,
           octets := Tab.mapV s.octets (fun _ o => { o with resv := o.resv.filter (fun r => ! hit r.1) }),
           walks := s.walks.filter (fun w => ! hit w.core),
           contFlight := s.contFlight.filter (fun r => ! (if r.remote.isSome then decide (r.ten = ten ∧ r.ctxid = ctxid ∧ r.home = cl)
             else hit r.core)),
           deferred := s.deferred.filter (fun d => ! decide (d.ten = ten ∧ d.ctxid = ctxid)),
           tenants := (match Tab.find s.tenants ten with
             | some n => Tab.set s.tenants ten (n.unregister ctxid (clusterOf (bitsAt n.esth 0 12) == cl))
             | none => s.tenants),
           waiters := s.waiters.filter (fun w => ! (w.remote.isNone && hit w.core)),
           bf := Tab.mapV s.bf (fun _ l => bfForget (fun c _ => hit c) l),
           routers := s.routers.map (fun p => if p.1 / 512 = cl then
             (p.1, p.2.filter (fun f => ! decide (f.id.toNat < 48 ∧ f.ten.toNat = ten ∧ f.ctxid = ctxid))) else p),
           bfWait := Tab.mapV s.bfWait (fun _ l => bfForgetWaits (fun c _ => hit c) l) }

/-- The kill reaches a cluster; reports of the estate handler that is killed there have no handler.
(Mark: DEDUCED, unsafe, log 30; DEDUCED, unsafe, log 74) -/
def State.killCluster (s : State) (ten : Nat) (ctxid : W32) (cl : Nat) : State := (s.killCores ten ctxid cl).flushReports ten

/-- A cluster lies inside a tenant's rectangle (03 R54). -/
def State.inRect (s : State) (ten cl : Nat) : Bool :=
  let r := (s.tenantAt ten).trect
  decide (ten < 16) && bitOn r 16
    && decide (bitsAt r 0 4 ≤ gridX cl ∧ gridX cl ≤ bitsAt r 8 4 ∧ bitsAt r 4 4 ≤ gridY cl ∧ gridY cl ≤ bitsAt r 12 4)

/-- The cluster at whose router the kill of a launch enters the mesh: that of the core that starts it; where no array core
does, the launch's origin, else the first cluster of the rectangle. (Mark: DEDUCED, unsafe, log 113) -/
def State.killStart (s : State) (ten : Nat) (ctxid : W32) (origin : Nat) : Nat :=
  if isArray origin then clusterOf origin
  else match s.launchBy ten ctxid with
    | some l => if s.inRect ten l.origin then l.origin else nth ((upTo 0 256).filter (fun c => s.inRect ten c)) 0 0
    | none => nth ((upTo 0 256).filter (fun c => s.inRect ten c)) 0 0

/-- A kill is injected at a router (R62 step 1): the launch is marked with its cause, the origin's cluster receives the
kill at once, and the flood is recorded for the other units. (Mark: DEDUCED, unsafe, log 30; DEDUCED, unsafe, log 113) -/
def State.injectKill (s : State) (ten : Nat) (ctxid : W32) (origin : Nat) (cause : Byte) (faulted : Bool) : State :=
  if s.kills.any (fun k => decide (k.ten = ten ∧ k.ctxid = ctxid)) then s
  else
    let s1 := s.updLaunch ten ctxid (fun l =>
      { l with saved := [],
               ended := match l.ended with
                 | some c => some c
                 | none => some cause,
               faulted := match l.ended with
                 | some _ => l.faulted
                 | none => faulted })
    let cl := s.killStart ten ctxid origin
    let kill : Kill :=
      { ten := ten, ctxid := ctxid, since := s.now, origin := origin,
        reached := [.cluster (BitVec.ofNat 8 (cl))], reported := [], mods := [],
        started := [(cl, s.now)], asked := none }
    let n := s1.tenantAt ten
    let away := match s.launchBy ten ctxid with
      | some l => (Tab.find l.saved n.esthLcore).isSome
      | none => false
    let s2 := { s1 with kills := s1.kills ++ [kill],
                        tenants := if away then Tab.set s1.tenants ten (n.unregister ctxid (n.registered ctxid n.esthLcore)) else s1.tenants }
    s2.killCluster ten ctxid cl

/-- Poison is consumed (09 R192): a machine-check record, and the consuming context's CTXID is killed.
(Mark: DEDUCED, unsafe, log 54) -/
def State.consumePoison (s : State) (c x : Nat) (va : W64) (use : Nat) : State :=
  let s1 := s.machineCheck (dieService (dieOf c)) 2 (s.tenOf c) (s.ctxidOf c) va
    (leBytes 2 c ++ leBytes 1 x ++ leBytes 1 use)
  if isArray c then s1.injectKill (s.tenOf c) (s.ctxidOf c) c 0x1A false else s1

/-! ## Reset of the module (01 R19) -/

/-- Pod time counts from 0 on every die. -/
def State.restartTime (s : State) : State :=
  let z := 2 ^ 80 - s.now * 32768 % 2 ^ 80
  { s with podOff := (upTo 0 4).map (fun d => (d, BitVec.ofNat 64 (z / 65536))),
           podFrac := (upTo 0 4).map (fun d => (d, BitVec.ofNat 16 z)) }

/-- A module reset: every register at its reset value, the monitor core in the boot ROM; memory, whose loss the spec
does not state, and the coming turns are kept, and clk counts on. Pod time restarts from 0. (Mark: DEDUCED, unsafe, log 18) -/
def State.moduleReset (s : State) : State :=
  { State.reset with turns := s.turns, now := s.now, mem := s.mem, poison := s.poison, free := s.free,
                     podOff := s.restartTime.podOff, podFrac := s.restartTime.podFrac, msixOut := s.msixOut,
                     hostAnswers := s.hostAnswers, aer := s.aer }

/-! ## Faults in handler code (09 R176 to R179) -/

/-- L: the run of valid entries of HCHAIN from entry 0. -/
def chainLen (h : W64) : Nat :=
  if ! bitOn h 12 then 0 else if ! bitOn h 28 then 1 else if ! bitOn h 44 then 2 else if ! bitOn h 60 then 3 else 4
/-- CORE i of HCHAIN. -/
def chainCore (h : W64) (i : Nat) : Nat := bitsAt h (16 * i) 12

/-- Bytes 32 to 63 of the record of an exhausted chain (04 R83, MCK 0x03 and 0x07). -/
def TrapMsg.detail (m : TrapMsg) : List Byte :=
  leBytes 8 m.fval.toNat ++ leBytes 8 m.taddr.toNat ++ leBytes 8 m.tval.toNat ++ leBytes 1 m.fcause.toNat
  ++ leBytes 1 m.ocause.toNat ++ leBytes 1 m.hop ++ leBytes 1 m.len ++ leBytes 2 m.origin ++ leBytes 1 m.octx
  ++ leBytes 1 0

/-- The chain is exhausted, or there is none (R179): an array core's cluster halts and its CTXID is killed; a service
core halts; the monitor core resets the module. -/
def State.chainExhausted (s : State) (m : TrapMsg) : State :=
  if isArray m.origin then
    let cl := clusterOf m.origin
    let s1 := s.setCluster cl { s.clusterAt cl with halted := true, haltCtx := m.ctxid }
    let s2 := s1.machineCheck (2 * dieOf m.origin) 3 m.ten m.ctxid m.faddr m.detail
    s2.injectKill m.ten m.ctxid m.origin m.fcause true
  else if isService m.origin then
    let s1 := s.setCore m.origin { s.coreAt m.origin with halted := true }
    match (upTo 0 16).find? (fun v => ! (s1.coreAt (4096 + v)).halted && (s1.coreAt (4096 + v)).anyLive) with
    | some v => s1.machineCheck v 7 16 0 m.faddr m.detail
    | none => s1
  else s.moduleReset

/-- A trap message reaches the inbox of a core; one beyond the four it holds waits in identifier 50 of the mesh (R178). -/
def Core.chainMsg (k : Core) (m : TrapMsg) : Core := { k with inbox := k.inbox ++ [m] }

/-- A message leaves the inbox; one that waited in the mesh takes its place. -/
def Core.popMsg (k : Core) (i now : Nat) : Core :=
  let l := dropNth k.inbox i
  { k with inbox := match l.drop 3 with
      | m :: _ => if i < 4 then setNth l 3 { m with since := now } else l
      | [] => l }

/-- A trap message goes on to hop HOP + 1 of its origin's chain, or the chain is exhausted. -/
def State.forwardMsg (s : State) (m : TrapMsg) : State :=
  if m.hop + 1 ≥ m.len then s.chainExhausted m
  else
    let c := chainCore m.chain (m.hop + 1)
    s.setCore c ((s.coreAt c).chainMsg { m with hop := m.hop + 1, since := s.now })

/-- A handler-code fault of the issuing context at an address (R177): it stops with stall reason 15 and a message goes along the
chain. A message that the faulting handler was serving passes on too. -/
def State.handlerFault (s : State) (cause : Nat) (v addr : W64) : State :=
  let c := s.core
  let x := s.me
  let serving := x.tr && bitOn x.tcause 9
  let m : TrapMsg :=
    { faddr := addr, fval := v, tstatus := x.tstatus, taddr := x.taddr, tval := x.tval, fcause := BitVec.ofNat 8 cause,
      ocause := BitVec.ofNat 8 x.tcause.toNat, hop := 0, len := chainLen (s.coreAt c).hchain, origin := c,
      octx := s.ctx, ten := s.tenOf c, ctxid := s.ctxidOf c, time := s.podTime (dieOf c), since := s.now,
      chain := (s.coreAt c).hchain }
  let s1 := s.setMe { x with stopped := true, stall := 15, status := putBits x.status 0 1 1 }
  let s2 := if m.len = 0 then s1.chainExhausted m
    else
      let d := chainCore m.chain 0
      s1.setCore d ((s1.coreAt d).chainMsg m)
  if serving then
    match (s2.coreAt c).inbox with
    | h :: _ => (s2.setCore c ((s2.coreAt c).popMsg 0 s2.now)).forwardMsg h
    | [] => s2
  else s2

/-! ## Taking an exception, and the return from one (09 R174, R175) -/

/-- STATUS in a handler: TR 1, UI, IE and UIE 0, PL at least 1. -/
def handlerStatus (st : W64) : W64 :=
  putBits (putBits (putBits (putBits st 0 2 1) 2 2 (max (bitsAt st 2 2) 1)) 4 1 0) 5 1 0

/-- take_trap: the saved registers, the status, and the pc at the vector; a cause met in a handler is a handler-code
fault. -/
def State.takeTrap (s : State) (cause : Nat) (v addr : W64) (async : Bool) : State :=
  let x := s.me
  if x.tr then s.handlerFault cause v addr
  else
    let s1 := s.setMe { x with tstatus := x.status, taddr := addr, tval := v,
                               tcause := BitVec.ofNat 64 (cause + 256 * b2n async),
                               status := handlerStatus x.status, stall := 0, trSince := s.now, grant := none }
    let vec := if cause = 0x19 then (s.coreAt s.core).pvec else (s.coreAt s.core).tvec
    if vec = 0 then s1.handlerFault cause v addr else s1.setMe { s1.me with pc := vec }

/-- A precise cause at the issuing instruction. -/
def State.trap (s : State) (cause : Nat) (v : W64) : State := s.takeTrap cause v s.me.pc false

/-- ILLEGAL_INSN with the instruction's word. -/
def State.illegal (s : State) (word : W64) : Out := .next (s.trap 0x01 word)

/-- bad(s) of R175: an image TRET rejects. -/
def badStatus (t st : W64) : Bool :=
  decide (t.toNat / 2 ^ 21 ≠ 0) || bitOn t 7 || decide (bitsAt t 2 2 = 3) || bitOn t 0
  || decide (bitsAt t 2 2 > bitsAt st 2 2) || (decide (bitsAt t 2 2 = 0) && ! bitOn t 4)
  || decide (bitsAt t 8 3 = 5) || decide (bitsAt t 8 3 = 7)

/-- TRET (R175), with R232's check of the target. -/
def State.trapReturn (s : State) (word : W64) : State :=
  let x := s.me
  if ! x.tr then s.takeTrap 0x13 word x.pc false
  else if badStatus x.tstatus x.status then s.handlerFault 0x12 x.tstatus x.pc
  else if x.taddr.toNat % 4 ≠ 0 then s.trap 0x03 x.taddr
  else
    let s1 := s.countOn s.core 2 1
    s1.setMe { s1.me with status := x.tstatus, pc := x.taddr, stall := 0, grant := none }

/-- A trap whose address is not the issuing instruction's: a failed reply or REPLAY reports its own (03 R59). -/
def State.trapAt (s : State) (cause : Nat) (v addr : W64) : State := s.takeTrap cause v addr false

end Sys2Proof.Machine
end

