-- ==== Sys2Proof/Machine/Operands.lean ====
section
/-! DEFINITION. Operands: the registers an instruction names, where an address leads (03 R58; 07 R133 to R142),
translation and the walk of the page tables, the pool with its owner bits, holder tags and format windows, store
queues and port buffers, and reading and writing through all of them. -/

namespace Sys2Proof.Machine

open Sys2Proof

/-- The even register of a scalar pair (12 R234). -/
def pairLo (x : BitVec 4) : BitVec 5 := BitVec.ofNat 5 (2 * x.toNat)
/-- The odd register of a scalar pair. -/
def pairHi (x : BitVec 4) : BitVec 5 := BitVec.ofNat 5 (2 * x.toNat + 1)

/-- The x registers an instruction names (03 R59: it waits while one of them is pending): its source and
destination fields; a V-format instruction reads its scalar pair at issue (12 R238). -/
def xregs (i : Instr) : List (BitVec 5) :=
  match i with
  | .add d a b => [d, a, b]
  | .sub d a b => [d, a, b]
  | .mul d a b => [d, a, b]
  | .mulh d a b => [d, a, b]
  | .mulhn d a b => [d, a, b]
  | .div d a b => [d, a, b]
  | .divn d a b => [d, a, b]
  | .rem d a b => [d, a, b]
  | .remn d a b => [d, a, b]
  | .and d a b => [d, a, b]
  | .or d a b => [d, a, b]
  | .xor d a b => [d, a, b]
  | .andn d a b => [d, a, b]
  | .shl d a b => [d, a, b]
  | .shr d a b => [d, a, b]
  | .shra d a b => [d, a, b]
  | .rotl d a b => [d, a, b]
  | .min d a b => [d, a, b]
  | .max d a b => [d, a, b]
  | .minn d a b => [d, a, b]
  | .maxn d a b => [d, a, b]
  | .slt d a b => [d, a, b]
  | .sltn d a b => [d, a, b]
  | .sel d a b c => [d, a, b, c]
  | .clz d a => [d, a]
  | .ctz d a => [d, a]
  | .popc d a => [d, a]
  | .ext d a b _ => [d, a, b]
  | .ins d a b _ => [d, a, b]
  | .adds d a b => [d, a, b]
  | .addi d a _ => [d, a]
  | .andi d a _ => [d, a]
  | .ori d a _ => [d, a]
  | .xori d a _ => [d, a]
  | .shi d a _ _ => [d, a]
  | .slti d a _ => [d, a]
  | .sltni d a _ => [d, a]
  | .lit d _ _ => [d]
  | .litk d _ _ => [d]
  | .fadd d a b _ _ => [d, a, b]
  | .fsub d a b _ _ => [d, a, b]
  | .fmul d a b _ _ => [d, a, b]
  | .fdiv d a b _ _ => [d, a, b]
  | .fsqrt d a _ _ => [d, a]
  | .ffma d a b _ _ => [d, a, b]
  | .fmin d a b _ => [d, a, b]
  | .fmax d a b _ => [d, a, b]
  | .fcmp d a b _ _ => [d, a, b]
  | .fcvt d a _ _ _ => [d, a]
  | .ld d b _ _ _ => [d, b]
  | .st d b _ _ => [d, b]
  | .ldv d a b => [d, a, b]
  | .stv d a b => [d, a, b]
  | .reclaim a b => [a, b]
  | .verq d a => [d, a]
  | .beq a b _ => [a, b]
  | .bne a b _ => [a, b]
  | .blt a b _ => [a, b]
  | .bge a b _ => [a, b]
  | .bltn a b _ => [a, b]
  | .bgen a b _ => [a, b]
  | .jal d _ => [d]
  | .jalr d a _ => [d, a]
  | .mfs d _ => [d]
  | .mts s _ => [s]
  | .rdctr d _ => [d]
  | .start d a b => [d, a, b]
  | .joinh d a => [d, a]
  | .cont a => [a]
  | .launch d a => [d, a]
  | .amo d a b _ _ => [d, a, b]
  | .amoLock d a b => [d, a, b]
  | .amoUnlock d a b => [d, a, b]
  | .amoTrylock d a b => [d, a, b]
  | .amod d a b _ _ => [d, a, b]
  | .red a b _ _ => [a, b]
  | .redf d a b _ _ => [d, a, b]
  | .bmask a => [a]
  | .ecadd d a b => [d, a, b]
  | .ecwait d a b => [d, a, b]
  | .ectrig d a b => [d, a, b]
  | .hold d a b => [d, a, b]
  | .relq d a _ => [d, a]
  | .heir d a b _ => [d, a, b]
  | .promise d a b => [d, a, b]
  | .estq d a b _ => [d, a, b]
  | .estqPop d b => [d, b]
  | .estqWait d b => [d, b]
  | .orphcl d a => [d, a]
  | .send d a => [d, a]
  | .recv d _ _ => [d]
  | .qstat d => [d]
  | .gcopy d a b _ => [d, a, b]
  | .gsend d a b _ => [d, a, b]
  | .gcmp d a b _ => [d, a, b]
  | .ghash d a b _ => [d, a, b]
  | .gfree d a b => [d, a, b]
  | .oalloc d a b => [d, a, b]
  | .ostp d a b => [d, a, b]
  | .gstat d a => [d, a]
  | .hdef _ a => [a]
  | .hwaitT _ a => [a]
  | .advcL _ a => [a]
  | .hstat _ a => [a]
  | .bcopy d a => [d, a]
  | .bcast d a => [d, a]
  | .deal d a => [d, a]
  | .cstat d a _ => [d, a]
  | .mdrain a _ _ _ _ => [a]
  | .mmap a => [a]
  | .wbload a b => [a, b]
  | .mpert a b => [a, b]
  | .mchk a => [a]
  | .mstat a d => [a, d]
  | .replay d a _ => [d, a]
  | .tlbinv a b => [a, b]
  | .kill d a b => [d, a, b]
  | .fqpop d a b => [d, a, b]
  | .moncall d a => [d, a]
  | .vaddF _ _ _ _ x => [pairLo x, pairHi x]
  | .vsubF _ _ _ _ x => [pairLo x, pairHi x]
  | .vmulF _ _ _ _ x => [pairLo x, pairHi x]
  | .vfma _ _ _ _ x => [pairLo x, pairHi x]
  | .vminF _ _ _ _ x => [pairLo x, pairHi x]
  | .vmaxF _ _ _ _ x => [pairLo x, pairHi x]
  | .vdiv _ _ _ _ x => [pairLo x, pairHi x]
  | .vsqrt _ _ _ x => [pairLo x, pairHi x]
  | .vabsF _ _ _ x => [pairLo x, pairHi x]
  | .vaddI _ _ _ _ x => [pairLo x, pairHi x]
  | .vsubI _ _ _ _ x => [pairLo x, pairHi x]
  | .vmulI _ _ _ _ x => [pairLo x, pairHi x]
  | .vmulh _ _ _ _ x => [pairLo x, pairHi x]
  | .vminI _ _ _ _ x => [pairLo x, pairHi x]
  | .vmaxI _ _ _ _ x => [pairLo x, pairHi x]
  | .vabsI _ _ _ x => [pairLo x, pairHi x]
  | .vand _ _ _ _ x => [pairLo x, pairHi x]
  | .vor _ _ _ _ x => [pairLo x, pairHi x]
  | .vxor _ _ _ _ x => [pairLo x, pairHi x]
  | .vshl _ _ _ _ x => [pairLo x, pairHi x]
  | .vshr _ _ _ _ x => [pairLo x, pairHi x]
  | .vshra _ _ _ _ x => [pairLo x, pairHi x]
  | .vcmpeq _ _ _ _ _ x => [pairLo x, pairHi x]
  | .vcmpne _ _ _ _ _ x => [pairLo x, pairHi x]
  | .vcmplt _ _ _ _ _ x => [pairLo x, pairHi x]
  | .vcmple _ _ _ _ _ x => [pairLo x, pairHi x]
  | .vsel _ _ _ _ x => [pairLo x, pairHi x]
  | .kand _ _ _ x => [pairLo x, pairHi x]
  | .kor _ _ _ x => [pairLo x, pairHi x]
  | .kxor _ _ _ x => [pairLo x, pairHi x]
  | .knot _ _ x => [pairLo x, pairHi x]
  | .kpopc d _ x => [pairLo x, pairHi x, d]
  | .vld _ _ x => [pairLo x, pairHi x]
  | .vst _ _ x => [pairLo x, pairHi x]
  | .vlds _ _ x => [pairLo x, pairHi x]
  | .vsts _ _ x => [pairLo x, pairHi x]
  | .vgath _ _ _ x => [pairLo x, pairHi x]
  | .vscat _ _ _ x => [pairLo x, pairHi x]
  | .vbcast _ _ x => [pairLo x, pairHi x]
  | .vperm _ _ _ _ x => [pairLo x, pairHi x]
  | .vslide _ _ _ x => [pairLo x, pairHi x]
  | .vred _ _ _ _ _ x => [pairLo x, pairHi x]
  | .vmovx _ d _ x => [pairLo x, pairHi x, d]
  | .vidx _ _ x => [pairLo x, pairHi x]
  | .vcvt _ _ _ _ _ _ x => [pairLo x, pairHi x]
  | .vqnt _ _ _ _ x => [pairLo x, pairHi x]
  | .vdqnt _ _ _ _ x => [pairLo x, pairHi x]
  | .vsfu _ _ _ _ x => [pairLo x, pairHi x]
  | .vclaim d x => [pairLo x, pairHi x, d]
  | .vfence x => [pairLo x, pairHi x]
  | .vstat d x => [pairLo x, pairHi x, d]
  | .vpopq _ x => [pairLo x, pairHi x]
  | _ => []


/-! ## Privilege and role checks (13 R256) -/

/-- An instruction that only array cores have: elsewhere it traps ILLEGAL_INSN. -/
def onArray (i : Instr) (s : State) (k : Out) : Out :=
  if isArray s.core then k else s.illegal (encode64 i)

/-- A form the decoder refuses traps ILLEGAL_INSN (12 R233), so its meaning does too. -/
def whenWf (i : Instr) (s : State) (k : Out) : Out :=
  if i.wf then k else s.illegal (encode64 i)

/-- A privileged instruction traps PRIV_INSN at PL 0. -/
def privileged (i : Instr) (s : State) (k : Out) : Out :=
  if s.me.pl = 0 then .next (s.trap 0x02 (encode64 i)) else k

/-! ## Page tables and TLBs (07 R135 to R144) -/

/-- V of a page-table entry. -/
def pteV (e : W64) : Bool := bitOn e 0
/-- W of a page-table entry. -/
def pteW (e : W64) : Bool := bitOn e 1
/-- X of a page-table entry. -/
def pteX (e : W64) : Bool := bitOn e 2
/-- U of a page-table entry. -/
def pteU (e : W64) : Bool := bitOn e 3
/-- The VD code of a page-table entry. -/
def pteVD (e : W64) : Nat := bitsAt e 4 2
/-- The version depth a VD code stands for. -/
def vdDepth (vd : Nat) : Nat := match vd with
  | 0 => 0 | 1 => 1 | 2 => 2 | _ => 4
/-- LAYOUT of a page-table entry. -/
def pteLayout (e : W64) : Nat := bitsAt e 6 3
/-- S of a page-table entry. -/
def pteS (e : W64) : Bool := bitOn e 9
/-- LEAF of a page-table entry. -/
def pteLeaf (e : W64) : Bool := bitOn e 10
/-- FRAME of a page-table entry. -/
def pteFrame (e : W64) : Nat := bitsAt e 16 36

/-- A frame is present: below its stack's capacity (R141). -/
def State.present (s : State) (f : Nat) : Bool :=
  decide (f / 2 ^ 20 < 8 ∧ f % 2 ^ 20 < Tab.get s.boot.frames 0 (f / 2 ^ 20))

/-- A frame lies in a window as TFWIN holds it (R142). -/
def inWindow (win : W64) (f : Nat) : Bool :=
  decide (f / 2 ^ 20 < 8) && bitOn win (40 + f / 2 ^ 20)
    && decide (bitsAt win 0 20 ≤ f % 2 ^ 20 ∧ f % 2 ^ 20 < bitsAt win 0 20 + bitsAt win 20 20)

/-- The firmware region: frames 0 to 4,095 of stack 0 (R139). -/
def firmwareFrame (f : Nat) : Bool := decide (f < 4096)

/-- The frames a leaf's fill compares (R140). -/
def leafFrames (level : Nat) (e : W64) (va : W64) : List Nat :=
  if level = 1 then [pteFrame e + bitsAt va 16 13] else upTo (pteFrame e) (vdDepth (pteVD e) + 1)

/-- A frame's attribute record has another version depth or layout than the leaf (R140; 05 R85). -/
def State.kindDiffers (s : State) (e : W64) (f : Nat) : Bool :=
  let a : W16 := Tab.get s.attr 0 f
  decide (bitsAt a 0 2 ≠ pteVD e ∨ bitsAt a 2 3 ≠ pteLayout e)

/-- A frame's attribute record differs from the leaf (R140). -/
def State.attrDiffers (s : State) (e : W64) (f : Nat) : Bool :=
  s.kindDiffers e f || (bitOn (Tab.get s.attr (0 : W16) f) 5 != pteS e)

/-- Permission of a leaf for an access (R137). -/
def permitted (e : W64) (pl : Nat) (firmware wr fetch : Bool) : Bool :=
  (firmware || decide (pl ≠ 0) || pteU e) && (! wr || pteW e) && (! fetch || pteX e)

/-- How a walk ends: a leaf, a page to park on with the cause of R146, or a precise cause. -/
inductive WalkRes where
  | leaf (e : TlbEnt)
  | park (cause : Nat)
  | fail (cause : Nat)
deriving DecidableEq, Repr

/-- An entry breaks a rule of R137's second row, in the table of a level (0 root, 1 middle, 2 bottom).
(Mark: DEDUCED, unsafe, log 45) -/
def pteBad (lvl : Nat) (firmware : Bool) (e : W64) : Bool :=
  decide (bitsAt e 11 5 ≠ 0 ∨ pteLayout e > 2)
  || (decide (lvl = 0) && pteLeaf e) || (decide (lvl = 2) && ! pteLeaf e)
  || (! pteLeaf e && decide (bitsAt e 1 9 ≠ 0))
  || (decide (lvl = 1) && pteLeaf e && (decide (pteFrame e % 2 ^ 13 ≠ 0 ∨ pteVD e ≠ 0) || pteS e))
  || (pteLeaf e && pteS e && decide (pteVD e ≠ 0 ∨ pteLayout e ≠ 0))
  || (firmware && pteU e)

/-- The checks of a fill after the entries: permission, window, absent frames, attributes, in the order of R142. -/
def State.fillCheck (s : State) (ten level : Nat) (e va : W64) (pl : Nat) (wr fetch : Bool) : WalkRes :=
  let fs := leafFrames level e va
  let fw := decide (16 ≤ ten)
  if ! permitted e pl fw wr fetch then .fail 0x05
  else if ! fw && fs.any (fun f => ! inWindow (s.tenantAt ten).tfwin f) then .fail 0x05
  else if fs.any (fun f => ! s.present f) then .fail 0x16
  else if fs.any (s.attrDiffers e) then .fail 0x06
  else .leaf { ten := ten, page := bitsAt va 16 39, level := level, pte := e }

/-- The entries of the page tables of a tenant (16: the firmware table) for an address (R135, R137): the leaf with its level,
or what ends the walk before it. -/
def State.walkTo (s : State) (ten : Nat) (va : W64) : WalkRes ⊕ (Nat × W64) :=
  let fw := decide (16 ≤ ten)
  let park := fun (c : Nat) => if fw then WalkRes.fail 0x05 else WalkRes.park c
  let root := if fw then bitsAt s.fwroot 16 36 else bitsAt (s.tenantAt ten).ptbase 16 36
  if ! s.present root then .inl (.fail 0x16)
  else
    let e0 := w64 (s.peekLe (root * 65536 + 8 * bitsAt va 42 13) 8)
    if ! pteV e0 then .inl (park 2) else if pteBad 0 fw e0 then .inl (.fail 0x05)
    else if ! s.present (pteFrame e0) then .inl (.fail 0x16)
    else
      let e1 := w64 (s.peekLe (pteFrame e0 * 65536 + 8 * bitsAt va 29 13) 8)
      if ! pteV e1 then .inl (park 2) else if pteBad 1 fw e1 then .inl (.fail 0x05)
      else if pteLeaf e1 then .inr (1, e1)
      else if ! s.present (pteFrame e1) then .inl (.fail 0x16)
      else
        let e2 := w64 (s.peekLe (pteFrame e1 * 65536 + 8 * bitsAt va 16 13) 8)
        if ! pteV e2 then .inl (park 1) else if pteBad 2 fw e2 then .inl (.fail 0x05)
        else .inr (3, e2)

/-- The walk of the page tables for an access. -/
def State.walk (s : State) (ten : Nat) (va : W64) (pl : Nat) (wr fetch : Bool) : WalkRes :=
  match s.walkTo ten va with
  | .inl r => r
  | .inr (level, e) => s.fillCheck ten level e va pl wr fetch

/-- Alignment is judged from the leaf: a versioned or sync page takes no misaligned access (09 R173; 14 R263). -/
def State.strictLeaf (s : State) (ten : Nat) (va : W64) : Bool :=
  match s.walkTo ten va with
  | .inr (_, e) => decide (pteVD e ≠ 0) || pteS e
  | .inl _ => false

/-- A TLB entry covers a page of a tenant: an entry of a level-1 leaf the one page for whose frame the fill was checked (R140).
(Mark: DESIGN CHOICE, safe, log 37) -/
def TlbEnt.covers (t : TlbEnt) (ten page : Nat) : Bool := decide (t.ten = ten ∧ t.page = page)

/-- The walker of a core: its cluster's; the walks of the service cores are kept apart at number 256, which no array cluster
has. -/
def walkerOf (c : Nat) : Nat := if isArray c then clusterOf c else 256

/-- The entry of a cluster's TLB that translates a page. -/
def State.clusterTlb (s : State) (cl ten page : Nat) : Option TlbEnt := (s.clusterAt cl).tlb.find? (fun t => t.covers ten page)

/-- The entry that translates a page for a core, in its TLB or in its cluster's; a service core has its own alone (R139).
(Mark: DESIGN CHOICE, safe, log 37) -/
def State.tlbFind (s : State) (c ten page : Nat) : Option TlbEnt :=
  match (s.coreAt c).tlb.find? (fun t => t.covers ten page) with
  | some t => some t
  | none => if isArray c then s.clusterTlb (clusterOf c) ten page else none

/-- Physical address of a virtual address under a leaf. -/
def TlbEnt.pa (t : TlbEnt) (va : W64) : Nat :=
  pteFrame t.pte * 65536 + (if t.level = 1 then va.toNat % 2 ^ 29 else va.toNat % 65536)

/-! ## The pool (07 R121 to R128) -/

/-- V: the vector registers of PARTW. -/
def Core.nvr (k : Core) : Nat := match bitsAt k.partw 0 2 with
  | 0 => 0 | 1 => 8 | 2 => 16 | _ => 32
/-- NACC of PARTW. -/
def Core.nacc (k : Core) : Nat := bitsAt k.partw 2 3
/-- S: the number of scratchpad tiles. -/
def Core.scratch (k : Core) : Nat := 254 - 16 * k.nacc - k.nvr
/-- Tiles that addresses in window 0 reach. -/
def Core.windowTiles (k : Core) : Nat := k.scratch + 16 * k.nacc
/-- The tile is owned by an engine. -/
def Core.tileE (k : Core) (t : Nat) : Bool := k.eTiles.contains t
/-- Give tiles the owner T. -/
def Core.tilesT (k : Core) (l : List Nat) : Core := { k with eTiles := k.eTiles.filter (fun t => ! l.contains t) }
/-- Give tiles the owner E. -/
def Core.tilesE (k : Core) (l : List Nat) : Core := { k with eTiles := l ++ k.eTiles.filter (fun t => ! l.contains t) }

/-- Tiles of a pool that hold `n` bytes from an offset. -/
def tilesOf (o n : Nat) : List Nat := if n = 0 then [] else upTo (o / 1024) ((o + n - 1) / 1024 - o / 1024 + 1)

/-- A thread's access to pool bytes: a cause with the first byte that fails, PROTECTION before TILE_OWNER (R122, R124; 09
R173). -/
def Core.bytesCheck (k : Core) (l : List Nat) : Option (Nat × Nat) :=
  match l.find? (fun b => decide (b ≥ k.windowTiles * 1024)), l.find? (fun b => k.tileE (b / 1024)) with
  | some b, _ => some (0x05, b)
  | none, some b => some (0x0B, b)
  | none, none => none

/-- The check of an access through window 0. -/
def Core.poolCheck (k : Core) (o n : Nat) : Option (Nat × Nat) := k.bytesCheck (upTo o n)

/-- AWDw: reset value FMT 7. -/
def Core.awdAt (k : Core) (w : Nat) : W64 := Tab.get k.awd 7 w

/-- The raw bytes that view element `i` of a window touches: data, then the scale byte if there is one (R128). -/
def fmtRaw (a : W64) (i : Nat) : List Nat × Option Nat :=
  let t := bitsAt a 0 3
  let e := fmtBits t
  let scl := bitOn a 3
  let split := bitOn a 4
  let base := bitsAt a 32 12 * 64
  let j := i / 32
  let iq := decide (t = 6)
  let blk := if scl && ! split then base + j * (4 * e + 1) else base + j * 4 * e
  let data := if iq then upTo blk 16
    else
      let bit := if scl && ! split then (base + j * (4 * e + 1)) * 8 + e * (i % 32) else base * 8 + e * i
      upTo (bit / 8) ((bit + e - 1) / 8 - bit / 8 + 1)
  let scale := if ! scl then none else if split then some (bitsAt a 16 12 * 64 + j) else some (blk + 4 * e)
  (data, scale)

/-- Every raw byte of elements i to i+n-1 of a window. -/
def fmtBytes (a : W64) (i n : Nat) : List Nat :=
  (upTo i n).flatMap (fun j => match fmtRaw a j with
    | (d, some b) => d ++ [b]
    | (d, none) => d)

/-- A thread's access through a format window: the cause of the first raw byte that fails (R128). -/
def Core.fmtCheck (k : Core) (w off nb : Nat) : Option Nat :=
  let a := k.awdAt w
  if bitsAt a 0 3 = 7 then some 0x05 else (k.bytesCheck (fmtBytes a (off / 4) (nb / 4))).map (fun p => p.1)

/-! ## Where an address leads -/

/-- The outcome of decoding and translating an access: plain bytes performed here (keys in address order), another
place, a precise cause, or a page to walk. -/
inductive Res where
  | bytes (keys : List Nat)
  | place (p : Place)
  | trap (cause : Nat) (val : W64)
  | miss (va : W64)
deriving DecidableEq, Repr

/-- FPOD.MODID. -/
def State.modid (s : State) : Nat := bitsAt s.fabric.fpod 0 6
/-- n: the modules of the pod, 0 outside one (02 R27). -/
def State.podN (s : State) : Nat := if bitsAt s.fabric.fpod 8 3 = 0 then 0 else 2 ^ bitsAt s.fabric.fpod 8 3
/-- A module is reachable under the current calendar (02 R46). -/
def State.reachable (s : State) (m : Nat) : Bool := decide (m < s.podN)

/-- Paged addresses (R135 to R142): the page or pages of the access. -/
def State.resolvePaged (s : State) (c x : Nat) (va : W64) (nb : Nat) (wr fetch : Bool) : Res :=
  let pl := (s.ctxAt c x).pl
  let a := va.toNat % 2 ^ 55
  let mis := decide (va.toNat % nb ≠ 0)
  if c = monitorCore then
    if a + nb > 2 ^ 52 then .trap 0x05 va else .bytes (upTo a nb)
  else
    let ten := s.tenOf c
    let fw := decide (16 ≤ ten)
    match s.tlbFind c ten (a / 65536) with
    | none => .miss va
    | some t =>
      if mis && (decide (pteVD t.pte ≠ 0) || pteS t.pte) then .trap 0x03 va
      else if ! permitted t.pte pl fw wr fetch then .trap 0x05 va
      else
        let n1 := min nb (65536 - a % 65536)
        let va2 : W64 := va + w64 n1
        let second : Option TlbEnt := if n1 < nb then s.tlbFind c ten ((a + n1) / 65536) else some t
        if a + n1 ≥ 2 ^ 55 ∧ n1 < nb then .trap 0x05 va2
        else match second with
        | none => .miss va2
        | some t2 =>
          if n1 < nb && (decide (pteVD t2.pte ≠ 0) || pteS t2.pte) then .trap 0x03 va
          else if ! permitted t2.pte pl fw wr fetch then .trap 0x05 va2
          else if pteVD t.pte ≠ 0 then
            .place (.vers (pteFrame t.pte) (vdDepth (pteVD t.pte)) (a % 65536))
          else if pteS t.pte then .place (.sync (t.pa va))
          else .bytes (upTo (t.pa va) n1 ++ upTo (t2.pa va2) (nb - n1))

/-- The context is the resident handler, which saves or restores its core's thread: it alone reaches the save area, tiles 254
and 255 (R122; 09 R183). -/
def State.handles (s : State) (c x : Nat) : Bool := match (s.coreAt c).saving with
  | some (_, h) => decide (h = x ∧ 1 ≤ (s.ctxAt c x).pl)
  | none => false

/-- Core pools (R122, R127, R130; 03 R60). A core outside the issuer's rectangle is reported before its window is looked at where
the window exists, and windows 8 to 15 of it as PROTECTION. (Mark: DEDUCED, unsafe, log 17) -/
def State.resolvePool (s : State) (c x tgt : Nat) (va : W64) (nb : Nat) (wr : Bool) : Res :=
  let win := bitsAt va 32 4
  let mis := decide (va.toNat % nb ≠ 0)
  let k := s.coreAt tgt
  let near := decide (clusterOf tgt = clusterOf c)
  let rect := decide (tgt = c) || s.inRect (s.tenOf c) (clusterOf tgt)
  if win = 0 then
    let o := bitsAt va 0 18
    if bitsAt va 18 14 ≠ 0 then .trap 0x05 va
    else if ! rect then .trap 0x07 va
    else if tgt = c ∧ 254 * 1024 ≤ o ∧ o + nb ≤ 2 ^ 18 ∧ s.handles c x then .bytes (upTo (poolKey tgt o) nb)
    else if ! near && ! wr then .place (.mem (poolKey tgt o))
    else match k.poolCheck o nb with
      | some (cause, b) => .trap cause (va + w64 (b - o))
      | none => if near then .bytes (upTo (poolKey tgt o) nb) else .place (.mem (poolKey tgt o))
  else if win ≤ 7 then
    if mis ∨ va.toNat % 4 ≠ 0 ∨ nb % 4 ≠ 0 then .trap 0x03 va
    else if ! rect then .trap 0x07 va
    else if ! near && ! wr then .place (.fmt tgt win (bitsAt va 0 32))
    else match k.fmtCheck win (bitsAt va 0 32) nb with
      | some cause => .trap cause va
      | none => .place (.fmt tgt win (bitsAt va 0 32))
  else if mis then .trap 0x03 va
  else if win = 15 then
    if tgt ≠ c ∨ bitsAt va 18 14 ≠ 0 then .trap 0x05 va else .place (.mq c (bitsAt va 0 18))
  else .trap 0x05 va

/-- Where an access leads (R133, 03 R58). `wr`: a store, AMO or RED; `fetch`: an instruction. (Mark: DEDUCED, unsafe, log 17) -/
def State.resolve (s : State) (c x : Nat) (va : W64) (nb : Nat) (wr fetch : Bool) : Res :=
  let node := bitsAt va 56 8
  let sp := bitsAt va 48 8
  let mis := decide (va.toNat % nb ≠ 0)
  let remote := decide (0x40 ≤ node ∧ node < 0x80 ∧ node % 64 ≠ s.modid)
  if fetch && (decide (node ≠ 0) || decide (0x80 ≤ sp)) then .trap 0x05 va
  else if remote then .place (.remote (node % 64))
  else if node ≠ 0 ∧ ¬ (0x40 ≤ node ∧ node < 0x80) then .trap (if mis then 0x03 else 0x05) va
  else if sp < 0x80 then s.resolvePaged c x va nb wr fetch
  else if sp = 0xFB then
    if mis then .trap 0x03 va
    else if isArray c ∨ (s.ctxAt c x).pl = 0 then .trap 0x05 va
    else .place (.control (bitsAt va 0 48))
  else if sp = 0xFC then
    if mis then .trap 0x03 va
    else if ! isArray c ∨ bitsAt va 0 48 ≥ (s.tenantAt (s.tenOf c)).hwsize.toNat % 2 ^ 32 * 4096 then .trap 0x05 va
    else .place (.host ((s.tenantAt (s.tenOf c)).hwbase.toNat + bitsAt va 0 48))
  else if sp = 0xFD then
    let cl := bitsAt va 40 8
    let o := bitsAt va 0 22
    if bitsAt va 22 18 ≠ 0 then .trap 0x05 va
    else if ! s.inRect (s.tenOf c) cl then .trap 0x07 va
    else if o + nb > 2 ^ 22 then .trap 0x05 (va + w64 (2 ^ 22 - o))
    else if isArray c ∧ clusterOf c = cl then .bytes (upTo (cmemKey cl o) nb)
    else .place (.mem (cmemKey cl o))
  else if sp = 0xFE then s.resolvePool c x (bitsAt va 36 12) va nb wr
  else if sp = 0xFF then
    if ! isArray c ∨ bitsAt va 36 12 ≠ 0 then .trap (if mis && bitsAt va 32 4 ≠ 0 then 0x03 else 0x05) va
    else s.resolvePool c x c va nb wr
  else .trap (if mis then 0x03 else 0x05) va

/-! ## Holder tags: lazy saving of tiles (09 R186) -/

/-- The inline translation an engine or the core itself makes for a tenant at PL 1: the physical address; none for a versioned
page, whose words no such access may name (08 R155). -/
def State.translate (s : State) (ten : Nat) (va : W64) (wr : Bool) : Option Nat :=
  match s.walk ten va 1 wr false with
  | .leaf t => if pteVD t.pte = 0 then some (t.pa va) else none
  | _ => none

/-- Tile `t` as a thread finds it at placement: 0, owner T in the scratchpad and E in the landing area (07 R124). -/
def State.freshTile (s : State) (c t : Nat) : State :=
  let s1 := s.zero (poolKey c (t * 1024)) 1024
  let k := s1.coreAt c
  let land := decide (k.scratch ≤ t ∧ t < k.windowTiles)
  let k1 := if land then k.tilesE [t] else k.tilesT [t]
  s1.setCore c { k1 with holders := Tab.set k1.holders t .running, badTiles := k1.badTiles.filter (fun b => b != t) }

/-- A launch has engine commands in flight: copies, and matrix commands queued or running. -/
def State.launchEngines (s : State) (ten : Nat) (ctxid : W32) : Bool :=
  s.cores.any (fun p => p.2.copies.any (fun m => decide (m.state = 1) && ownedBy m.owner ten ctxid)
    || p.2.mqueue.any (fun m => ownedBy m.owner ten ctxid))
  || s.clusters.any (fun p => (match p.2.run with
      | some r => ownedBy r.cmd.owner ten ctxid
      | none => false) || (match p.2.wbload with
      | some r => ownedBy r.owner ten ctxid
      | none => false))

/-- Write a suspended thread's tile to its spill area. (Mark: DESIGN CHOICE, safe, log 31) -/
def State.spillTile (s : State) (c n t : Nat) : State :=
  match Tab.find (s.coreAt c).slots n with
  | none => s
  | some z =>
    match s.translate z.ten (z.spill + w64 (2 ^ 18 * z.lcore + 1024 * t)) true with
    | some pa => s.moveBytes pa (poolKey c (t * 1024)) 1024
    | none => s

/-- A tile of a resumed thread comes back from its spill area at its first access. (Mark: DESIGN CHOICE, safe, log 31) -/
def State.loadTile (s : State) (c t : Nat) : State :=
  let s1 := s.zero (poolKey c (t * 1024)) 1024
  let s2 := match s1.translate (s1.tenOf c) ((s1.coreAt c).spillAt + w64 (1024 * t)) false with
    | some pa => s1.moveBytes (poolKey c (t * 1024)) pa 1024
    | none => s1
  let k := s2.coreAt c
  s2.setCore c { k with holders := Tab.set k.holders t .running, spilled := k.spilled.filter (fun b => b != t) }

/-- The running thread claims a tile at its first access. (Mark: DESIGN CHOICE, safe, log 31) -/
def State.claimTile (s : State) (c t : Nat) : State :=
  if 254 ≤ t then s
  else
    let own := fun (u : State) => if (u.coreAt c).spilled.contains t then u.loadTile c t else u.freshTile c t
    match Tab.get (s.coreAt c).holders .free t with
    | .running => s
    | .free => own s
    | .slot n => own (s.spillTile c n t)

/-- Claim every tile of a range of pool bytes. (Mark: DESIGN CHOICE, safe, log 31) -/
def State.claim (s : State) (c o n : Nat) : State := (tilesOf o n).foldl (fun t i => t.claimTile c i) s

/-- A claim must wait for an engine command of the suspended thread that holds the tile. (Mark: DESIGN CHOICE, safe, log 31) -/
def State.claimWaits (s : State) (c o n : Nat) : Bool :=
  (tilesOf o n).any (fun t => match Tab.get (s.coreAt c).holders .free t with
    | .slot m => (match Tab.find (s.coreAt c).slots m with
      | some z => s.launchEngines z.ten z.ctxid
      | none => false)
    | _ => false)

/-- A suspended thread's tile lies where an access claims. -/
def State.slotHeld (s : State) (c o n : Nat) : Bool :=
  (tilesOf o n).any (fun t => match Tab.get (s.coreAt c).holders .free t with
    | .slot _ => true
    | _ => false)

/-- Suspended threads' tiles are written to their spill areas, and are free. (Mark: DESIGN CHOICE, safe, log 31) -/
def State.makeRoom (s : State) (c o n : Nat) : State :=
  (tilesOf o n).foldl (fun (u : State) t => match Tab.get (u.coreAt c).holders .free t with
    | .slot m =>
      let v := u.spillTile c m t
      v.setCore c { v.coreAt c with holders := Tab.drop (v.coreAt c).holders t }
    | _ => u) s

/-- The pool and offset of a memory key, if it is a pool byte. -/
def poolOf (k : Nat) : Option (Nat × Nat) :=
  if 2 ^ 60 ≤ k ∧ k < 2 ^ 60 + 4096 * 2 ^ 18 then some ((k - 2 ^ 60) / 2 ^ 18, (k - 2 ^ 60) % 2 ^ 18) else none

/-- Claim the pool tiles that keys name. -/
def State.claimKeys (s : State) (l : List Nat) : State :=
  match l with
  | [] => s
  | k :: _ =>
    match poolOf k with
    | some (c, o) => if (s.coreAt c).thread.isSome then s.claim c o l.length else s
    | none => s

/-! ## Store queues and port buffers (08 R150, R154) -/

/-- A byte is in HBM. -/
def isHbm (k : Nat) : Bool := decide (k < 2 ^ 52)

/-- The byte a buffered line holds at a key. -/
def PortLine.at? (l : PortLine) (k : Nat) : Option Byte := if l.line = k / 64 then Tab.find l.bytes (k % 64) else none

/-- The byte that a load issued in a cluster sees: its port buffer, then memory. -/
def State.portByte (s : State) (cl k : Nat) : Byte :=
  match (s.clusterAt cl).port.findSome? (fun l => l.at? k) with
  | some b => b
  | none => s.peek k

/-- What a core's cluster sees at a key; service cores and the monitor core have no port buffer. -/
def State.seen (s : State) (c k : Nat) : Byte :=
  if isArray c && isHbm k then s.portByte (clusterOf c) k else s.peek k

/-- A line leaves the port buffer for HBM. -/
def State.drainLine (s : State) (l : PortLine) : State :=
  { s with mem := l.bytes.foldl (fun m b => memPut m (l.line * 64 + b.1) b.2) s.mem,
           poison := s.poison.filter (fun u =>
             ! (decide (u / 8 = l.line) && (upTo (u % 8 * 8) 8).all (fun o => (Tab.find l.bytes o).isSome))) }

/-- The oldest line of a cluster's port buffer drains. -/
def State.drainOldest (s : State) (cl : Nat) : State :=
  match (s.clusterAt cl).port with
  | [] => s
  | l :: r => (s.drainLine l).setCluster cl { s.clusterAt cl with port := r }

/-- A stored byte enters the port buffer, combining with its line; a full buffer drains its oldest line first. -/
def State.portStore (s : State) (cl k : Nat) (b : Byte) : State :=
  let p := (s.clusterAt cl).port
  if p.any (fun l => l.line == k / 64) then
    s.setCluster cl { s.clusterAt cl with
      port := p.map (fun l => if l.line = k / 64 then { l with bytes := Tab.set l.bytes (k % 64) b } else l) }
  else
    let s1 := if p.length < 32 then s else s.drainOldest cl
    s1.setCluster cl { s1.clusterAt cl with
      port := (s1.clusterAt cl).port ++ [{ line := k / 64, bytes := [(k % 64, b)], since := s.now }] }

/-- Bytes enter the port buffer one by one. -/
def State.portStoreN (s : State) (cl k : Nat) (l : List Byte) : State :=
  match l with
  | [] => s
  | b :: r => (s.portStore cl k b).portStoreN cl (k + 1) r

/-- A Cleat discards a store to a byte of a reduction cell: P and LOW while a contribution is held, GEN, LAST and the
reserved bytes always (19 R367). (Mark: DEDUCED, unsafe, log 48) -/
def RedCell.blocks (r : RedCell) (k : Nat) : Bool :=
  decide (k / 64 * 64 = r.key) && (decide (8 ≤ k % 64) || ! r.contribs.isEmpty)

/-- Write bytes where they are performed, but for those that a reduction cell keeps. (Mark: DEDUCED, unsafe, log 48) -/
def State.pokeCell (s : State) (k : Nat) (bytes : List Byte) : State :=
  if (upTo k bytes.length).any (fun j => s.cells.any (fun r => r.blocks j)) then
    (indexed 0 bytes).foldl (fun u p => if u.cells.any (fun r => r.blocks (k + p.1)) then u else u.pokeN (k + p.1) [p.2]) s
  else s.pokeN k bytes

/-- A store-queue entry is accepted by its target. -/
def State.perform (s : State) (c : Nat) (e : StoreEnt) : State :=
  if e.hbm && isArray c then s.portStoreN (clusterOf c) e.key e.bytes else s.pokeCell e.key e.bytes

/-- A store meets a tile of another core's pool that an engine owns: the bit is looked at when it reaches the banks (R125).
(Mark: DEDUCED, unsafe, log 16) -/
def State.bankRefuses (s : State) (c : Nat) (e : StoreEnt) : Bool :=
  match poolOf e.key with
  | some (d, o) => decide (d ≠ c) && (tilesOf o e.bytes.length).any (s.coreAt d).tileE
  | none => false

/-- A synchronisation store reaches a Cleat that discards what its launch asks (03 R62). (Mark: DEDUCED, unsafe, log 16) -/
def State.cleatRefuses (s : State) (c : Nat) (e : StoreEnt) : Bool :=
  ! e.hbm && isHbm e.key && s.deaf (keyDie e.key) (s.tenOf c) (s.ctxidOf c)

/-- The head of a context's store queue drains. One that its target refuses has no effect; TILE_OWNER is then due at the
store. (Mark: DEDUCED, unsafe, log 16) -/
def State.drainOne (s : State) (c x : Nat) : State :=
  match (s.ctxAt c x).storeq with
  | [] => s
  | e :: r =>
    let s1 := s.setCtx c x { s.ctxAt c x with storeq := r }
    if s.bankRefuses c e then s1.setCtx c x { s1.ctxAt c x with due := (s1.ctxAt c x).due ++ [(0x0B, e.va, e.pc)] }
    else if s.cleatRefuses c e then s1
    else s1.perform c e

/-- The whole store queue drains in order; `n` bounds its length. -/
def State.drainN (s : State) (c x n : Nat) : State :=
  match n with
  | 0 => s
  | k + 1 => (s.drainOne c x).drainN c x k

/-- A context's store queue drains. (Mark: DEDUCED, unsafe, log 49) -/
def State.drainQueue (s : State) (c x : Nat) : State := s.drainN c x (s.ctxAt c x).storeq.length

/-- Every store queue of a core drains. -/
def State.drainCore (s : State) (c : Nat) : State :=
  (s.coreAt c).ctxs.foldl (fun t p => t.drainQueue c p.1) s

/-- `n` of a cluster's port lines drain, oldest first. -/
def State.drainPortN (s : State) (cl n : Nat) : State :=
  match n with
  | 0 => s
  | k + 1 => (s.drainOldest cl).drainPortN cl k

/-- Every line of a cluster's port buffer drains. -/
def State.drainPort (s : State) (cl : Nat) : State := s.drainPortN cl (s.clusterAt cl).port.length

/-- A store overlaps some bytes of a load but does not hold them all. -/
def StoreEnt.partOf (e : StoreEnt) (keys : List Nat) : Bool :=
  let hit := keys.filter (fun k => decide (e.key ≤ k ∧ k < e.key + e.bytes.length))
  ! hit.isEmpty && decide (hit.length < keys.length)

/-- The byte the youngest store in a queue holds at a key. -/
def storeqByte (q : List StoreEnt) (k : Nat) : Option Byte :=
  q.reverse.findSome? (fun e =>
    if e.key ≤ k ∧ k < e.key + e.bytes.length then some (nth e.bytes 0 (k - e.key)) else none)

/-- Before a load: stores that overlap it only in part drain (R154). -/
def State.settle (s : State) (c x : Nat) (keys : List Nat) : State :=
  if (s.ctxAt c x).storeq.any (fun e => e.partOf keys) then s.drainQueue c x else s

/-- What a context's load returns: forwarded bytes, else what its cluster sees. -/
def State.loadBytes (s : State) (c x : Nat) (keys : List Nat) : List Byte :=
  keys.map (fun k => match storeqByte (s.ctxAt c x).storeq k with
    | some b => b
    | none => s.seen c k)

/-- A plain store enters the context's store queue at commit; a full queue of 8 drains its head first.
(Mark: DEDUCED, unsafe, log 16) -/
def State.enqueueStore (s : State) (c x : Nat) (e : StoreEnt) : State :=
  let s1 := if (s.ctxAt c x).storeq.length < 8 then s else s.drainOne c x
  s1.setCtx c x { s1.ctxAt c x with storeq := (s1.ctxAt c x).storeq ++ [{ e with pc := (s.ctxAt c x).pc }] }

/-- Split keys into the run that follows `k` and the rest. -/
def keyRun (k : Nat) (l : List Nat) : Nat :=
  match l with
  | [] => 0
  | j :: r => if j = k then keyRun (k + 1) r + 1 else 0

/-- A store of bytes at keys: one entry, or two where it spans two pages. (Mark: DESIGN CHOICE, safe, log 38) -/
def State.storeBytes (s : State) (c x : Nat) (va : W64) (keys : List Nat) (bytes : List Byte) : State :=
  match keys with
  | [] => s
  | k :: r =>
    let n := keyRun (k + 1) r + 1
    let s1 := s.enqueueStore c x { key := k, bytes := bytes.take n, hbm := isHbm k, va := va }
    if n < keys.length then
      s1.enqueueStore c x { key := nth keys 0 n, bytes := bytes.drop n, hbm := isHbm (nth keys 0 n), va := va }
    else s1

/-! ## Format windows (07 R127 to R130) -/

/-- The element codes and scale of the block `j` of a window, raw. -/
def State.fmtScale (s : State) (c : Nat) (a : W64) (i : Nat) : Nat :=
  match (fmtRaw a i).2 with
  | some b => (s.peek (poolKey c b)).toNat
  | none => 127

/-- The code of element `i` of a window whose format is not IQ4. -/
def State.fmtCode (s : State) (c : Nat) (a : W64) (i : Nat) : Nat :=
  let t := bitsAt a 0 3
  let e := fmtBits t
  match (fmtRaw a i).1 with
  | [] => 0
  | b :: r =>
    let raw := s.peekLe (poolKey c b) (r.length + 1)
    if e < 8 then raw / 2 ^ (e * (i % 32) % 8) % 2 ^ e else raw

/-- The 32 values of an IQ4 block before the scale. -/
def State.fmtIq (s : State) (c : Nat) (a : W64) (i : Nat) : List Num × Nat :=
  match (fmtRaw a i).1 with
  | [] => ([], 0)
  | b :: _ => iqDecode (s.peekN (poolKey c b) 16)

/-- Element `i` read through a window: FP32 and flags (R128). -/
def State.fmtElem (s : State) (c : Nat) (a : W64) (i : Nat) : Nat × Nat :=
  let t := bitsAt a 0 3
  let sc := s.fmtScale c a i
  if t = 6 then
    let (l, f) := s.fmtIq c a i
    let (v, g) := scaleValue (nth l (.fin false 0 0) (i % 32)) sc
    (v, fOr f g)
  else if bitOn a 3 then scaleValue ((fmtOf t).decode (s.fmtCode c a i)) sc
  else fp32.encode 0 0 false ((fmtOf t).decode (s.fmtCode c a i))

/-- `n` view elements from `i`, with their flags. -/
def State.fmtRead (s : State) (c w i n : Nat) : List Nat × Nat :=
  let a := (s.coreAt c).awdAt w
  (upTo i n).foldr (fun j acc => let (v, f) := s.fmtElem c a j
                                 (v :: acc.1, fOr f acc.2)) ([], 0)

/-- Write the code of element `i` of a window whose format is not IQ4. (Mark: DEDUCED, unsafe, log 87) -/
def State.fmtPut (s : State) (c : Nat) (a : W64) (i code : Nat) : State :=
  let e := fmtBits (bitsAt a 0 3)
  match (fmtRaw a i).1 with
  | [] => s
  | b :: r =>
    if e < 8 then
      let old := (s.peek (poolKey c b)).toNat
      let sh := e * (i % 32) % 8
      s.pokeLe (poolKey c b) 1 (old - old / 2 ^ sh % 2 ^ e * 2 ^ sh + code * 2 ^ sh)
    else s.pokeLe (poolKey c b) (r.length + 1) code

/-- The write of one block (R129): new values by element number, with the draw of each. -/
def State.fmtBlock (s : State) (c : Nat) (a : W64) (mode : Nat) (new : List (Nat × Nat × Nat)) : State × Nat :=
  match new with
  | [] => (s, 0)
  | (i0, _, _) :: _ =>
    let t := bitsAt a 0 3
    let scl := bitOn a 3
    let sat := bitOn a 8
    let whole := scl && decide (new.length = 32)
    let sc := if ! scl then 127 else if whole then selectScale (new.map (fun n => fp32.decode n.2.1)) t
      else s.fmtScale c a i0
    let s1 := if ! whole then s else match (fmtRaw a i0).2 with
      | some b => s.pokeLe (poolKey c b) 1 sc
      | none => s
    let rescale := fun (v : Num) => v.scale (127 - (sc : Int))
    if t = 6 then
      let old := (s.fmtIq c a i0).1
      let vals := (upTo 0 32).map (fun j => match new.find? (fun n => n.1 % 32 == j) with
        | some n => if sc = 0xFF then .fin false 0 0 else rescale (fp32.decode n.2.1)
        | none => if sc = 0xFF then .fin false 0 0 else nth old (.fin false 0 0) j)
      let draw := fun j => match new.find? (fun n => n.1 % 32 == j) with
        | some n => n.2.2
        | none => 0
      let (bytes, f) := iqEncode mode sat draw vals
      match (fmtRaw a i0).1 with
      | [] => (s1, f)
      | b :: _ => (s1.pokeN (poolKey c b) bytes, f)
    else
      new.foldl (fun acc n =>
        if sc = 0xFF then (acc.1.fmtPut c a n.1 0, acc.2)
        else
          let (code, f) := (fmtOf t).encode mode n.2.2 sat (rescale (fp32.decode n.2.1))
          (acc.1.fmtPut c a n.1 code, fOr acc.2 f)) (s1, 0)

/-- A write of FP32 values to view elements from `i`, block by block in ascending order (R129). `block` is 32 where
the layout has blocks and 1 where each element stands alone; `fuel` bounds the blocks. (Mark: DEDUCED, unsafe, log 87) -/
def State.fmtWriteB (s : State) (c : Nat) (a : W64) (mode fuel : Nat) (new : List (Nat × Nat × Nat)) : State × Nat :=
  match fuel, new with
  | 0, _ => (s, 0)
  | _, [] => (s, 0)
  | k + 1, (i, v, d) :: r =>
    let blocked := bitOn a 3 || decide (bitsAt a 0 3 = 6)
    let mine := (i, v, d) :: (if blocked then r.filter (fun n => decide (n.1 / 32 = i / 32)) else [])
    let rest := if blocked then r.filter (fun n => decide (n.1 / 32 ≠ i / 32)) else r
    let (s1, f) := s.fmtBlock c a mode mine
    let (s2, g) := s1.fmtWriteB c a mode k rest
    (s2, fOr f g)

/-- The rounding mode of a window after DYN is resolved. -/
def resolveMode (r rm : Nat) : Nat := if r = 5 then rm else r

/-- Write view elements through a window of a core's pool. (Mark: DEDUCED, unsafe, log 66) -/
def State.fmtWrite (s : State) (c w i mode : Nat) (vals draws : List Nat) : State × Nat :=
  let a := (s.coreAt c).awdAt w
  s.fmtWriteB c a mode vals.length
    ((indexed 0 vals).map (fun p => (i + p.1, p.2, nth draws 0 p.1)))

/-! ## Flags and draws of the issuing context (R216 to R219) -/

/-- An address in an alias window of a core's pool. -/
def windowVa (va : W64) : Bool := decide (bitsAt va 48 8 ≥ 0xFE ∧ bitsAt va 32 4 ≠ 0)

/-- OR flags into STATUS.FLAGS of a context. -/
def Ctx.orFlags (x : Ctx) (f : Nat) : Ctx := { x with status := putBits x.status 11 5 (fOr x.flags f) }
/-- OR flags into the issuing context's STATUS.FLAGS. -/
def State.orFlags (s : State) (f : Nat) : State := if f = 0 then s else s.setMe (s.me.orFlags f)

/-- Flags of a window write that another module, or a later step, has made reach a context; enabled ones trap FP_EXC at its
next turn (R216; 09 R172). (Mark: DEDUCED, unsafe, log 50) -/
def Ctx.lateFlags (x : Ctx) (f : Nat) (pc : W64) : Ctx :=
  let y := x.orFlags f
  if Nat.land f x.en ≠ 0 then { y with due := y.due ++ [(0x15, w64 f, pc)] } else y

/-- JOBSEED of a core's launch, 0 without one. -/
def State.jobseedOf (s : State) (c : Nat) : W64 := match s.launchOf c with
  | some l => l.jobseed
  | none => 0

/-- The draws for `n` elements from the issuing context's counter. -/
def State.draws (s : State) (n : Nat) : List Nat :=
  (upTo 0 n).map (fun i => srDraw (s.jobseedOf s.core) (w64 (s.lcoreOf s.core)) (s.me.rndctr + w64 i))
/-- RNDCTR advances by the block reserved at issue. -/
def State.advanceRnd (s : State) (n : Nat) : State := s.setMe { s.me with rndctr := s.me.rndctr + w64 n }

/-! ## Waiting for a translation (07 R144, R147) -/

/-- Access bits of a fault-queue entry (R146): R, W, X, VER, ENG. (Mark: DEDUCED, unsafe, log 103) -/
def accBits (rd wr ex ver eng : Bool) : Byte :=
  BitVec.ofNat 8 (b2n rd + 2 * b2n wr + 4 * b2n ex + 8 * b2n ver + 16 * b2n eng)

/-- A miss of the issuing context: its walk is queued at the cluster walker, and the context stalls with reason 2. A
core has at most 8 misses outstanding; a further one stalls at issue. -/
def State.missAt (s : State) (va : W64) (bits : Byte) (mis : Bool) : Out :=
  let cl := walkerOf s.core
  let k := s.clusterAt cl
  if k.walks.any (fun w => ! w.eng && decide (w.core = s.core ∧ w.ctx = s.ctx)) then s.wait 2
  else if (k.walks.filter (fun w => ! w.eng && decide (w.core = s.core))).length ≥ 8 then s.wait 2
  else
    let s1 := s.setCluster cl { k with
      walks := k.walks ++ [{ core := s.core, ctx := s.ctx, ten := s.tenOf s.core, va := va, bits := bits, pl := s.me.pl, mis := mis }] }
    (s1.countOn s.core 6 1).wait 2

/-- A miss of an access that is aligned, or may be misaligned anywhere. -/
def State.miss (s : State) (va : W64) (bits : Byte) : Out := s.missAt va bits false

/-- Enter a leaf into a TLB of `n` entries, the oldest replaced. (Mark: DESIGN CHOICE, safe, log 37) -/
def tlbFill (l : List TlbEnt) (t : TlbEnt) (n : Nat) : List TlbEnt :=
  if l.contains t then l else (if l.length < n then l else l.drop 1) ++ [t]

/-- Enter a leaf into a cluster's TLB (R143). -/
def State.clusterFill (s : State) (cl : Nat) (t : TlbEnt) : State :=
  s.setCluster cl { s.clusterAt cl with tlb := tlbFill (s.clusterAt cl).tlb t 2048 }

/-- A walk that a vector command or an engine of a core asked for. -/
def WalkReq.engIs (w : WalkReq) (c x ten : Nat) : Bool := w.eng && decide (w.core = c ∧ w.ctx = x ∧ w.ten = ten)

/-- The translation of a page for a vector command or an engine of a core, from the TLB entry that hits or from a walk that is
over; none while it is to be waited for (R144). (Mark: DESIGN CHOICE, unsafe, log 63) -/
def State.clientLeaf (s : State) (hit : Option TlbEnt) (c x ten pl : Nat) (va : W64) (wr : Bool) : Option WalkRes :=
  match hit with
  | some t => some (if permitted t.pte pl (decide (16 ≤ ten)) wr false then .leaf t else .fail 0x05)
  | none =>
    if (s.clusterAt (walkerOf c)).walks.any (fun w => w.engIs c x ten && w.finished && decide (bitsAt w.va 16 39 = bitsAt va 16 39)) then
      some (s.walk ten va pl wr false)
    else none

/-- Such a miss joins the walks of its cluster. (Mark: DESIGN CHOICE, unsafe, log 63) -/
def State.engMiss (s : State) (c x ten pl : Nat) (va : W64) (wr : Bool) : State :=
  let cl := walkerOf c
  let k := s.clusterAt cl
  if k.walks.any (fun w => w.engIs c x ten && decide (bitsAt w.va 16 39 = bitsAt va 16 39)) then s
  else
    let w : WalkReq := { core := c, ctx := x, ten := ten, va := va, bits := accBits (! wr) wr false false false, pl := pl, eng := true }
    (s.setCluster cl { k with walks := k.walks ++ [w] }).countOn c 6 1

/-- The outcomes of its walks have been looked at. -/
def State.engSettled (s : State) (c x ten : Nat) : State :=
  let k := s.clusterAt (walkerOf c)
  if k.walks.any (fun w => w.engIs c x ten && w.finished) then
    s.setCluster (walkerOf c) { k with walks := k.walks.filter (fun w => ! (w.engIs c x ten && w.finished)) }
  else s

/-! ## The message-queue window (03 R60) -/

/-- MQSTAT. -/
def Core.mqstat (k : Core) : W64 :=
  w64 (k.injq.length + 2 ^ 8 * k.recvq.length + 2 ^ 16 * (k.rhead % 64) + 2 ^ 24 * b2n (! k.overflow.isEmpty)
    + 2 ^ 25 * b2n k.rej)

/-- A byte of window 15: the build area is write-only, receive slots are read-only, then MQSTAT; anything else in the
window reads 0 (log 9). -/
def Core.mqByte (k : Core) (o : Nat) : Byte :=
  if 0x1000 ≤ o ∧ o < 0x2000 then
    let slot := (o - 0x1000) / 64
    match (indexed 0 k.recvq).find? (fun p => (k.rhead + p.1) % 64 == slot) with
    | some p => nth p.2.bytes 0 (o % 64)
    | none => 0
  else if 0x2000 ≤ o ∧ o < 0x2008 then BitVec.ofNat 8 (k.mqstat.toNat / 2 ^ (8 * (o - 0x2000)))
  else 0

/-- A store to window 15: the build area takes it, MQSTAT.REJ clears by a 1, and anything else is ignored. -/
def Core.mqStore (k : Core) (o : Nat) (bytes : List Byte) : Core :=
  if o + bytes.length ≤ 64 then
    { k with build := (upTo 0 64).map (fun i =>
        if o ≤ i ∧ i < o + bytes.length then nth bytes 0 (i - o) else nth k.build 0 i) }
  else if 0x2000 ≤ o ∧ o < 0x2008 then
    if bitOn (w64 (ofLeBytes bytes * 2 ^ (8 * (o - 0x2000)))) 25 then { k with rej := false } else k
  else k

/-! ## Packets (02 R29 to R34; 03 R58) -/

/-- C: tacks of the calendar's cycle (02 R27); 8 under the boot schedule (05 R91). -/
def State.cycleC (s : State) : Nat := if s.fabric.boot then 8 else max 1 (s.podN / 8)
/-- The module's number: MODID, or its port under the boot schedule (05 R91). -/
def State.ownNumber (s : State) : Nat := if s.fabric.boot then bitsAt s.fabric.fpod 32 6 else s.modid
/-- The die of the direct slot's spar from this module to module `m` (02 R27). -/
def State.dieTo (s : State) (m : Nat) : Nat :=
  Nat.xor s.ownNumber m / s.cycleC / 2 % 4

/-- A packet enters the send queue of the die that owns its direct spar. Its sequence is given when it is assigned. -/
def State.sendPacket (s : State) (p : Packet) : State :=
  let d := s.dieTo p.dst.toNat
  { s with fabric := { s.fabric with sendq := Tab.set s.fabric.sendq d (Tab.get s.fabric.sendq [] d ++
    [{ pkt := { p with len := BitVec.ofNat 6 (min 33 ((143 + p.body.bytes.length) / 128)) }, seqd := false, expiries := 0 }]) } }

/-- A request packet of a core's context to module `m`. (Mark: DESIGN CHOICE, safe, log 4) -/
def State.request (s : State) (m stream : Nat) (b : Body) : Packet :=
  { src := BitVec.ofNat 6 s.modid, dst := BitVec.ofNat 6 m, ten := BitVec.ofNat 4 (s.tenOf s.core),
    stream := BitVec.ofNat 3 stream,
    body := { b with core := s.core, ctx := s.ctx, ctxid := s.ctxidOf s.core, pl := s.me.pl } }

/-- The fault record of a packet that never took a sequence (02 R47). -/
def noseqRecord (m stream : Nat) : W64 := w64 (m * 2 ^ 32 + stream * 2 ^ 38 + 2 ^ 41)

/-- A store to another module, with what a write through an alias window there takes from its issuer: the rounding mode, the
enabled flags and the draws (11 R217, R219). -/
def State.storeBody (s : State) (va v : W64) (nb : Nat) : Body :=
  { op := .st, va := va, nb := nb, val := v, sel := s.me.rm, reg := BitVec.ofNat 5 s.me.en, cmp := s.me.pc,
    seed := s.jobseedOf s.core, base := s.me.rndctr, lcore := s.lcoreOf s.core }

/-- The draws that such a store reserves at issue: one for each element in mode SR. (Mark: DEDUCED, unsafe, log 87) -/
def State.reserveFar (s : State) (va : W64) (nb : Nat) : State :=
  if windowVa va && decide (s.me.rm = 6) then s.advanceRnd (nb / 4) else s

/-- A posted operation to module `m`: sent, or reported asynchronously where the module is unreachable (02 R46, R47). -/
def State.post (s : State) (m stream : Nat) (b : Body) : State :=
  if s.reachable m then (s.sendPacket (s.request m stream b)).countOn s.core 9 1
  else s.postAsync s.core s.ctx 0x08 (noseqRecord m stream)

/-! ## Split-phase requests (03 R59) -/

/-- Requests of a context that have no reply yet. -/
def Ctx.outstanding (x : Ctx) : Nat := (x.pends.filter (fun p => p.answer.isNone && decide (p.place ≠ .vec))).length
/-- Requests of a core's contexts that have no reply yet. -/
def Core.outstanding (k : Core) : Nat := (k.ctxs.map (fun p => p.2.outstanding)).foldl (· + ·) 0

/-- Retire a split-phase request of the issuing context: its register is pending until the reply. At the limits of 8 a
context and 32 a core it stalls at issue. A request to another module leaves as a packet. -/
def State.splitPhase (s : State) (p : Pend) (op : Body) : Out :=
  match p.place with
  | .remote m =>
    if ! s.reachable m then .next (s.trap 0x08 p.va)
    else if s.me.outstanding ≥ 8 ∨ s.myCore.outstanding ≥ 32 then s.wait 1
    else
      let s1 := ((s.sendPacket (s.request m 0 op)).countOn s.core 9 1).countOn s.core 8 1
      .next (s1.setMe { s1.me with pends := s1.me.pends ++ [p] }).retire
  | _ =>
    if s.me.outstanding ≥ 8 ∨ s.myCore.outstanding ≥ 32 then s.wait 1
    else
      let s1 := s.countOn s.core 8 1
      .next (s1.setMe { s1.me with pends := s1.me.pends ++ [p] }).retire

/-- A register is pending in the scoreboard of a context. -/
def Ctx.pending (x : Ctx) (r : BitVec 5) : Bool :=
  decide (r ≠ 0) && x.pends.any (fun p => decide (p.reg = r) && ! p.keep && p.answer.isNone
    && (decide (r.toNat < 24) || p.ui == x.ui))

/-- An instruction must wait for a pending register it names. -/
def Ctx.scoreboardWaits (x : Ctx) (i : Instr) : Bool := (xregs i).any x.pending

end Sys2Proof.Machine
end

