-- ==== Sys2Proof/Machine/Float.lean ====
section
/-! DEFINITION. Scalar floating point (14 R259 to R261). -/

namespace Sys2Proof.Machine

open Sys2Proof

/-- The format mod[0] selects. -/
def scalarFmt (p : BitVec 1) : Fmt := if p = 0 then fp32 else fp64
/-- An operand: FP32 ignores bits [63:32] (12 R231). -/
def fpIn (p : BitVec 1) (v : W64) : Nat := if p = 0 then v.toNat % 2 ^ 32 else v.toNat

/-- Deliver a scalar FP result (R260): the flags are ORed into STATUS.FLAGS; if one of them is enabled, FP_EXC is taken
with the raised flags and x[d] stays; RNDCTR keeps the draws reserved at issue. -/
def State.fpDone (s : State) (d : BitVec 5) (r : Nat × Nat) (draws : Nat) : Out :=
  let s1 := (if draws = 0 then s else s.advanceRnd draws).orFlags r.2
  if Nat.land r.2 s.me.en ≠ 0 then .next (s1.trap 0x15 (w64 r.2)) else s1.done d (w64 r.1)

/-- The mode of a rounding code: DYN reads STATUS.RM at issue. -/
def State.mode (s : State) (r : BitVec 3) : Nat := resolveMode r.toNat s.me.rm
/-- The draw an instruction takes in a mode: one in SR, whether or not the result is exact. -/
def State.drawIn (s : State) (mode : Nat) : Nat := if mode = 6 then nth (s.draws 1) 0 0 else 0
/-- How many draws a mode consumes for one element. -/
def drawCount (mode : Nat) : Nat := if mode = 6 then 1 else 0

/-- A two-operand operation that rounds. -/
def State.fp2 (s : State) (i : Instr) (d a b : BitVec 5) (r : BitVec 3) (p : BitVec 1)
    (f : Fmt → Nat → Nat → Nat → Nat → Nat × Nat) : Out :=
  whenWf i s
    (let m := s.mode r
     s.fpDone d (f (scalarFmt p) m (s.drawIn m) (fpIn p (s.rd a)) (fpIn p (s.rd b))) (drawCount m))

/-- FADD. -/
def execFadd (d a b : BitVec 5) (r : BitVec 3) (p : BitVec 1) (s : State) : Out :=
  s.fp2 (.fadd d a b r p) d a b r p Fmt.add
/-- FSUB. -/
def execFsub (d a b : BitVec 5) (r : BitVec 3) (p : BitVec 1) (s : State) : Out :=
  s.fp2 (.fsub d a b r p) d a b r p Fmt.sub
/-- FMUL. -/
def execFmul (d a b : BitVec 5) (r : BitVec 3) (p : BitVec 1) (s : State) : Out :=
  s.fp2 (.fmul d a b r p) d a b r p Fmt.mul
/-- FDIV. -/
def execFdiv (d a b : BitVec 5) (r : BitVec 3) (p : BitVec 1) (s : State) : Out :=
  s.fp2 (.fdiv d a b r p) d a b r p Fmt.div
/-- FSQRT. -/
def execFsqrt (d a : BitVec 5) (r : BitVec 3) (p : BitVec 1) (s : State) : Out :=
  whenWf (.fsqrt d a r p) s
    (let m := s.mode r
     s.fpDone d ((scalarFmt p).sqrt m (s.drawIn m) (fpIn p (s.rd a))) (drawCount m))
/-- FFMA: x[d] is the third operand. -/
def execFfma (d a b : BitVec 5) (r : BitVec 3) (p : BitVec 1) (s : State) : Out :=
  whenWf (.ffma d a b r p) s
    (let m := s.mode r
     s.fpDone d ((scalarFmt p).fma m (s.drawIn m) (fpIn p (s.rd a)) (fpIn p (s.rd b)) (fpIn p (s.rd d))) (drawCount m))
/-- FMIN. -/
def execFmin (d a b : BitVec 5) (p : BitVec 1) (s : State) : Out :=
  s.fpDone d ((scalarFmt p).minMax true (fpIn p (s.rd a)) (fpIn p (s.rd b))) 0
/-- FMAX. -/
def execFmax (d a b : BitVec 5) (p : BitVec 1) (s : State) : Out :=
  s.fpDone d ((scalarFmt p).minMax false (fpIn p (s.rd a)) (fpIn p (s.rd b))) 0
/-- FCMP: 1 or 0 as a 64-bit integer. -/
def execFcmp (d a b : BitVec 5) (c : BitVec 2) (p : BitVec 1) (s : State) : Out :=
  let r := (scalarFmt p).cmp c.toNat (fpIn p (s.rd a)) (fpIn p (s.rd b))
  s.fpDone d (b2n r.1, r.2) 0

/-- The value of an FCVT source: 0 f32, 1 f64, 2 i64, 3 n64. -/
def cvtSource (t : Nat) (v : W64) : Num :=
  match t with
  | 0 => fp32.decode (v.toNat % 2 ^ 32)
  | 1 => fp64.decode v.toNat
  | 2 => ofInt true 64 v.toNat
  | _ => ofInt false 64 v.toNat
/-- The result of an FCVT destination type. -/
def cvtTarget (t mode draw : Nat) (v : Num) : Nat × Nat :=
  match t with
  | 0 => fp32.encode mode draw false v
  | 1 => fp64.encode mode draw false v
  | 2 => toInt true 64 mode draw v
  | _ => toInt false 64 mode draw v
/-- FCVT (R261). -/
def execFcvt (d a : BitVec 5) (t src : BitVec 2) (r : BitVec 3) (s : State) : Out :=
  whenWf (.fcvt d a t src r) s
    (let m := s.mode r
     s.fpDone d (cvtTarget t.toNat m (s.drawIn m) (cvtSource src.toNat (s.rd a))) (drawCount m))

end Sys2Proof.Machine
end

