-- ==== Sys2Proof/Machine/Integer.lean ====
section
/-! DEFINITION. Integer arithmetic and logic (14 R257, R258), MOVW (12 R237), branches and jumps (14 R265, R266). -/

namespace Sys2Proof.Machine

open Sys2Proof

/-- An RR instruction: both sources are read before the destination is written; nothing traps. -/
def State.rr (s : State) (d a b : BitVec 5) (f : W64 → W64 → W64) : Out := s.done d (f (s.rd a) (s.rd b))

/-- An RR instruction of one source. -/
def State.r1 (s : State) (d a : BitVec 5) (f : W64 → W64) : Out := s.done d (f (s.rd a))

/-- 1 or 0. -/
def bit64 (b : Bool) : W64 := if b then 1 else 0

/-- Shift counts are bits [5:0] of the second source. -/
def shAmt (v : W64) : Nat := v.toNat % 64

/-- Bits [127:64] of the signed product. -/
def mulHigh (x y : W64) : W64 := ((x.signExtend 128 * y.signExtend 128) >>> 64).setWidth 64
/-- Bits [127:64] of the natural product. -/
def mulHighN (x y : W64) : W64 := ((x.setWidth 128 * y.setWidth 128) >>> 64).setWidth 64
/-- Signed division truncated toward zero; all ones for a zero divisor; −2^63 ÷ −1 is −2^63. -/
def divS (x y : W64) : W64 := if y = 0 then BitVec.allOnes 64 else x.sdiv y
/-- Natural division; all ones for a zero divisor. -/
def divN (x y : W64) : W64 := if y = 0 then BitVec.allOnes 64 else x / y
/-- Signed remainder, with the sign of the dividend; the dividend for a zero divisor. -/
def remS (x y : W64) : W64 := if y = 0 then x else x.srem y
/-- Natural remainder; the dividend for a zero divisor. -/
def remN (x y : W64) : W64 := if y = 0 then x else x % y
/-- Rotate left by a count below 64. -/
def rotl (x : W64) (n : Nat) : W64 := if n = 0 then x else x <<< n ||| x >>> (64 - n)
/-- Count of leading zeros. -/
def clz (x : W64) : Nat := if x = 0 then 64 else 63 - Nat.log2 x.toNat
/-- Count of trailing zeros: `n` bits from bit `i`. -/
def ctzFrom (x : W64) (i n : Nat) : Nat :=
  match n with
  | 0 => i
  | k + 1 => if x.getLsbD i then i else ctzFrom x (i + 1) k
/-- Count of one bits. -/
def popc (x : W64) : Nat := ((upTo 0 64).filter (fun i => x.getLsbD i)).length
/-- 2^n − 1 as a word. -/
def ones (n : Nat) : W64 := w64 (2 ^ n - 1)
/-- Signed addition clamped to the range of 64 bits. -/
def addSat (x y : W64) : W64 :=
  let v := x.toInt + y.toInt
  if v > 2 ^ 63 - 1 then w64 (2 ^ 63 - 1) else if v < -2 ^ 63 then w64 (2 ^ 63) else x + y
/-- Insert the low `len` bits of `a` into `d` at `p`; bits beyond bit 63 are lost. -/
def insBits (d a : W64) (p len : Nat) : W64 := (d &&& ~~~(ones len <<< p)) ||| ((a &&& ones len) <<< p)

/-- ADD. -/
def execAdd (d a b : BitVec 5) (s : State) : Out := s.rr d a b (· + ·)
/-- SUB. -/
def execSub (d a b : BitVec 5) (s : State) : Out := s.rr d a b (· - ·)
/-- MUL. -/
def execMul (d a b : BitVec 5) (s : State) : Out := s.rr d a b (· * ·)
/-- MULH. -/
def execMulh (d a b : BitVec 5) (s : State) : Out := s.rr d a b mulHigh
/-- MULHN. -/
def execMulhn (d a b : BitVec 5) (s : State) : Out := s.rr d a b mulHighN
/-- DIV. -/
def execDiv (d a b : BitVec 5) (s : State) : Out := s.rr d a b divS
/-- DIVN. -/
def execDivn (d a b : BitVec 5) (s : State) : Out := s.rr d a b divN
/-- REM. -/
def execRem (d a b : BitVec 5) (s : State) : Out := s.rr d a b remS
/-- REMN. -/
def execRemn (d a b : BitVec 5) (s : State) : Out := s.rr d a b remN
/-- AND. -/
def execAnd (d a b : BitVec 5) (s : State) : Out := s.rr d a b (· &&& ·)
/-- OR. -/
def execOr (d a b : BitVec 5) (s : State) : Out := s.rr d a b (· ||| ·)
/-- XOR. -/
def execXor (d a b : BitVec 5) (s : State) : Out := s.rr d a b (· ^^^ ·)
/-- ANDN. -/
def execAndn (d a b : BitVec 5) (s : State) : Out := s.rr d a b (fun x y => x &&& ~~~y)
/-- SHL. -/
def execShl (d a b : BitVec 5) (s : State) : Out := s.rr d a b (fun x y => x <<< shAmt y)
/-- SHR. -/
def execShr (d a b : BitVec 5) (s : State) : Out := s.rr d a b (fun x y => x >>> shAmt y)
/-- SHRA. -/
def execShra (d a b : BitVec 5) (s : State) : Out := s.rr d a b (fun x y => x.sshiftRight (shAmt y))
/-- ROTL. -/
def execRotl (d a b : BitVec 5) (s : State) : Out := s.rr d a b (fun x y => rotl x (shAmt y))
/-- MIN. -/
def execMin (d a b : BitVec 5) (s : State) : Out := s.rr d a b (fun x y => if x.slt y then x else y)
/-- MAX. -/
def execMax (d a b : BitVec 5) (s : State) : Out := s.rr d a b (fun x y => if x.slt y then y else x)
/-- MINN. -/
def execMinn (d a b : BitVec 5) (s : State) : Out := s.rr d a b (fun x y => if x.ult y then x else y)
/-- MAXN. -/
def execMaxn (d a b : BitVec 5) (s : State) : Out := s.rr d a b (fun x y => if x.ult y then y else x)
/-- SLT. -/
def execSlt (d a b : BitVec 5) (s : State) : Out := s.rr d a b (fun x y => bit64 (x.slt y))
/-- SLTN. -/
def execSltn (d a b : BitVec 5) (s : State) : Out := s.rr d a b (fun x y => bit64 (x.ult y))
/-- SEL. -/
def execSel (d a b c : BitVec 5) (s : State) : Out := s.done d (if s.rd c ≠ 0 then s.rd a else s.rd b)
/-- CLZ. -/
def execClz (d a : BitVec 5) (s : State) : Out := s.r1 d a (fun x => w64 (clz x))
/-- CTZ. -/
def execCtz (d a : BitVec 5) (s : State) : Out := s.r1 d a (fun x => w64 (ctzFrom x 0 64))
/-- POPC. -/
def execPopc (d a : BitVec 5) (s : State) : Out := s.r1 d a (fun x => w64 (popc x))
/-- EXT: the field holds len − 1. -/
def execExt (d a b : BitVec 5) (l : BitVec 6) (s : State) : Out :=
  s.rr d a b (fun x y => (x >>> shAmt y) &&& ones (l.toNat + 1))
/-- INS: x[d] is also a source; the field holds len − 1. -/
def execIns (d a b : BitVec 5) (l : BitVec 6) (s : State) : Out :=
  s.done d (insBits (s.rd d) (s.rd a) (shAmt (s.rd b)) (l.toNat + 1))
/-- ADDS. -/
def execAdds (d a b : BitVec 5) (s : State) : Out := s.rr d a b addSat

/-- ADDI. -/
def execAddi (d a : BitVec 5) (i : BitVec 16) (s : State) : Out := s.r1 d a (· + sext i)
/-- ANDI. -/
def execAndi (d a : BitVec 5) (i : BitVec 16) (s : State) : Out := s.r1 d a (· &&& zext i)
/-- ORI. -/
def execOri (d a : BitVec 5) (i : BitVec 16) (s : State) : Out := s.r1 d a (· ||| zext i)
/-- XORI. -/
def execXori (d a : BitVec 5) (i : BitVec 16) (s : State) : Out := s.r1 d a (· ^^^ zext i)
/-- The shift that SHI selects: 0 SHL, 1 SHR, 2 SHRA, 3 ROTL. -/
def shiftBy (k : BitVec 2) (n : Nat) (x : W64) : W64 :=
  match k.toNat with
  | 0 => x <<< n
  | 1 => x >>> n
  | 2 => x.sshiftRight n
  | _ => rotl x n
/-- SHI. -/
def execShi (d a : BitVec 5) (k : BitVec 2) (n : BitVec 6) (s : State) : Out := s.r1 d a (shiftBy k n.toNat)
/-- SLTI. -/
def execSlti (d a : BitVec 5) (i : BitVec 16) (s : State) : Out := s.r1 d a (fun x => bit64 (x.slt (sext i)))
/-- SLTNI: sign-extended, then compared as a natural number. -/
def execSltni (d a : BitVec 5) (i : BitVec 16) (s : State) : Out := s.r1 d a (fun x => bit64 (x.ult (sext i)))
/-- MOVW with keep = 0: every other lane 0. -/
def execLit (d : BitVec 5) (l : BitVec 2) (i : BitVec 16) (s : State) : Out := s.done d (zext i <<< (16 * l.toNat))
/-- MOVW with keep = 1: the other lanes kept. -/
def execLitk (d : BitVec 5) (l : BitVec 2) (i : BitVec 16) (s : State) : Out :=
  s.done d ((s.rd d &&& ~~~((0xFFFF : W64) <<< (16 * l.toNat))) ||| (zext i <<< (16 * l.toNat)))

/-! ## Branches and jumps -/

/-- Retire an instruction that transfers control to `t`. -/
def State.retireTo (s : State) (t : W64) : State := (s.countOn s.core 2 1).goto t

/-- A transfer to `t`: a target that is no multiple of 4 traps MISALIGNED at the transferring instruction and changes
nothing (12 R232). -/
def State.jump (s : State) (t : W64) : Out :=
  if t.toNat % 4 ≠ 0 then .next (s.trap 0x03 t) else .next (s.retireTo t)

/-- A conditional branch: to pc + 4 × offset if the condition holds, else to the next instruction. -/
def State.branch (s : State) (taken : Bool) (o : BitVec 16) : Out :=
  if taken then s.jump (s.me.pc + sext o * 4) else .next s.retire

/-- BEQ. -/
def execBeq (a b : BitVec 5) (o : BitVec 16) (s : State) : Out := s.branch (s.rd a == s.rd b) o
/-- BNE. -/
def execBne (a b : BitVec 5) (o : BitVec 16) (s : State) : Out := s.branch (s.rd a != s.rd b) o
/-- BLT. -/
def execBlt (a b : BitVec 5) (o : BitVec 16) (s : State) : Out := s.branch ((s.rd a).slt (s.rd b)) o
/-- BGE. -/
def execBge (a b : BitVec 5) (o : BitVec 16) (s : State) : Out := s.branch (! (s.rd a).slt (s.rd b)) o
/-- BLTN. -/
def execBltn (a b : BitVec 5) (o : BitVec 16) (s : State) : Out := s.branch ((s.rd a).ult (s.rd b)) o
/-- BGEN. -/
def execBgen (a b : BitVec 5) (o : BitVec 16) (s : State) : Out := s.branch (! (s.rd a).ult (s.rd b)) o

/-- A jump that links: the target is computed first; MISALIGNED leaves x[d] unchanged. -/
def State.link (s : State) (d : BitVec 5) (t : W64) : Out :=
  if t.toNat % 4 ≠ 0 then .next (s.trap 0x03 t) else .next ((s.wr d (s.me.pc + 4)).retireTo t)

/-- JAL. -/
def execJal (d : BitVec 5) (o : BitVec 21) (s : State) : Out := s.link d (s.me.pc + sext o * 4)
/-- JALR. -/
def execJalr (d a : BitVec 5) (i : BitVec 16) (s : State) : Out := s.link d (s.rd a + sext i)

end Sys2Proof.Machine
end

