-- ==== Sys2Proof/Machine/Traps.lean ====
section
/-! DEFINITION. Traps: TRAP, TRET and UIRET (14 R267; 09 R174, R175, R182), the taking of asynchronous causes, chain
messages and user interrupts at boundaries (09 R173, R178, R182), the handler chain's answers (R178) and the watchdog
(R180). -/

namespace Sys2Proof.Machine

open Sys2Proof

/-- The context in whose name a turn goes on. -/
def State.at (s : State) (c x : Nat) : State := { s with core := c, ctx := x }

/-- A word that decodes as no instruction traps ILLEGAL_INSN with TVAL = the word (12 R233). -/
def execIllegalInsnWord (w : BitVec 32) (s : State) : Out := .next (s.trap 0x01 (zext w))

/-- TRAP: TVAL = the immediate, zero-extended. -/
def execTrap (i : BitVec 15) (s : State) : Out := .next (s.trap 0x14 (zext i))

/-- UIRET: pops the head entry, clears UI and goes to UIADDR; with UI = 0 it is illegal. -/
def execUiret (s : State) : Out :=
  let x := s.me
  if ! x.ui then s.illegal (encode64 .uiret)
  else if x.uiaddr.toNat % 4 ≠ 0 then .next (s.trap 0x03 x.uiaddr)
  else .next ((s.setMe { x with uiq := x.uiq.drop 1, status := putBits x.status 1 1 0 }).retireTo x.uiaddr)

/-! ## Boundaries -/

/-- The context stands at an instruction boundary: live, not stopped, and in no wait. -/
def Ctx.boundary (x : Ctx) : Bool := x.live && ! x.stopped && decide (x.stall = 0) && x.due.isEmpty

/-- The order in which pending asynchronous causes are taken (R173). (Mark: DEDUCED, unsafe, log 92) -/
def asyncOrder : List Byte := [0x18, 0x0E, 0x0F, 0x08, 0x11, 0x19]

/-- A pending cause may be taken: IE = 1, and PREEMPT also at PL 0 whatever IE is (R172); never in a handler. -/
def Ctx.takes (x : Ctx) (a : AsyncCause) : Bool :=
  ! x.tr && (x.ie || (decide (a.cause = 0x19) && decide (x.pl = 0)))

/-- The place of a cause in that order: a posted operation's failure at another module is reported with its own code in
place of PEER_UNREACHABLE (03 R58). -/
def asyncPlace (c : Byte) : Byte := if asyncOrder.contains c then c else 0x08

/-- Reports of one flow are pending in ascending SEQ (R47). (Mark: DEDUCED, unsafe, log 84) -/
def insertReport (a : AsyncCause) (l : List AsyncCause) : List AsyncCause :=
  match l with
  | [] => [a]
  | b :: r =>
    if asyncPlace b.cause = 0x08 ∧ b.val.toNat / 2 ^ 32 = a.val.toNat / 2 ^ 32 ∧ a.val.toNat % 2 ^ 32 < b.val.toNat % 2 ^ 32
    then a :: b :: r else b :: insertReport a r

/-- A report reaches a context, or the control context of its core where that has halted (02 R47).
(Mark: DEDUCED, unsafe, log 84) -/
def State.reportAt (s : State) (c x : Nat) (a : AsyncCause) : State :=
  let y := if (s.ctxAt c x).live then x else 0
  let k := s.ctxAt c y
  if k.live then s.setCtx c y { k with asyncs := insertReport a k.asyncs } else s

/-- The first pending cause of a code that may be taken, and the causes that stay. -/
def takeCode (x : Ctx) (code : Byte) (l : List AsyncCause) : Option (AsyncCause × List AsyncCause) :=
  match l with
  | [] => none
  | a :: r =>
    if asyncPlace a.cause = code && x.takes a then some (a, r)
    else match takeCode x code r with
      | some (b, r') => some (b, a :: r')
      | none => none

/-- The cause to take at this boundary, in the order of R173. -/
def Ctx.nextAsync (x : Ctx) (order : List Byte) : Option (AsyncCause × List AsyncCause) :=
  match order with
  | [] => none
  | c :: r =>
    match takeCode x c x.asyncs with
    | some p => some p
    | none => x.nextAsync r

/-- The wait of WFI, and of a request that a Cleat has or may have performed: neither can be withdrawn. The stall reason
that a sample shows is the code modulo 16. -/
def stWfi : Nat := 31
/-- The wait for a Cleat's reply to an integer add. -/
def stCleat : Nat := 47
/-- The wait for a graph engine, which stops a walk itself at an object boundary (19 R352). -/
def stGraph : Nat := 63
/-- The wait for a vector memory command, which drains with the vector queue (09 R183). -/
def stVec : Nat := 18
/-- The same, while the receiver of a GSEND has parked (19 R355). -/
def stGsend : Nat := 26

/-- PREEMPT is pending and may be taken. -/
def Ctx.preempted (x : Ctx) : Bool := x.asyncs.any (fun a => decide (a.cause = 0x19) && x.takes a)

/-- A context may take an asynchronous cause now. A pending PREEMPT stops it until its split-phase loads have completed,
and withdraws a wait that has had no effect, which makes a boundary (09 R183); one that has been granted what it waits for
completes first (08 R158). -/
def Ctx.asyncReady (x : Ctx) : Option (AsyncCause × List AsyncCause) :=
  if ! x.live || x.stopped || ! x.due.isEmpty then none
  else match x.nextAsync asyncOrder with
    | some (a, r) =>
      if (if x.preempted then decide (x.outstanding = 0 ∧ x.stall < 16) && x.grant.isNone else x.boundary) then some (a, r) else none
    | none => none

/-- Keep the first `n` VPOPQ reservations of a context. -/
def keepResv (c x n : Nat) (l : List (Nat × Nat)) : List (Nat × Nat) :=
  match l with
  | [] => []
  | r :: t =>
    if r.1 = c ∧ r.2 = x then
      match n with
      | 0 => keepResv c x 0 t
      | k + 1 => r :: keepResv c x k t
    else r :: keepResv c x n t

/-- A VPOPQ in a queue. -/
def isPop (i : Instr) : Bool := match i with
  | .vpopq .. => true
  | _ => false

/-- A VFENCE in a queue. -/
def isFence (i : Instr) : Bool := match i with
  | .vfence _ => true
  | _ => false

/-- How many VPOPQ commands of a context are queued. -/
def Core.pops (k : Core) (x : Nat) : Nat := (k.vq.filter (fun m => isPop m.insn && m.ctx == x)).length

/-- Everything a waiting instruction left behind is withdrawn, so that it executes again from its first step (08 R158,
07 R148). (Mark: DEDUCED, unsafe, log 92; DEDUCED, unsafe, log 115) -/
def State.withdraw (s : State) (c x : Nat) : State :=
  let k := s.ctxAt c x
  let s1 := s.setCtx c x { k with pends := k.pends.filter (fun p => ! p.keep), parked := none, stall := 0, due := [], grant := none, retryAt := none }
  let s2 := s1.setCore c { s1.coreAt c with vq := (s1.coreAt c).vq.filter (fun m =>
    ! (m.ctx == x && (m.parked.isSome || isFence m.insn))) }
  { s2 with
    octets := match Tab.find s.octets (octetOf c) with
      | some o => Tab.set s.octets (octetOf c) { o with resv := keepResv c x ((s.coreAt c).pops x) o.resv }
      | none => s.octets,
    waiters := s.waiters.filter (fun w => ! (w.remote.isNone && decide (w.core = c ∧ w.ctx = x))),
    contFlight := s.contFlight.filter (fun r => ! (r.remote.isNone && decide (r.core = c ∧ r.ctx = x))),
    bf := Tab.mapV s.bf (fun _ l => bfForget (fun d y => decide (d = c ∧ y = x)) l),
    clusters := match Tab.find s.clusters (walkerOf c) with
      | some cl => Tab.set s.clusters (walkerOf c)
          { cl with walks := cl.walks.filter (fun w => ! decide (w.core = c ∧ w.ctx = x)) }
      | none => s.clusters }

/-- Take the pending asynchronous cause of the issuing context, if one may be taken: TADDR is the next instruction. -/
def State.takeAsync (s : State) : Option State :=
  match s.me.asyncReady with
  | none => none
  | some (a, r) =>
    let s1 := if s.me.preempted then s.withdraw s.core s.ctx else s
    let s2 := s1.setMe { s1.me with asyncs := r, heirless := decide (a.cause = 0x11) || s1.me.heirless }
    some (s2.takeTrap a.cause.toNat a.val s2.me.pc true)

/-- ASYNC_CAUSE_TAKE. -/
def execAsyncCauseTake (core ctx : Nat) (s : State) : Out :=
  match (s.at core ctx).takeAsync with
  | some t => .next t
  | none => .next s

/-! ## The handler chain -/

/-- A context of the core is serving the inbox head. (Mark: DEDUCED, unsafe, log 90) -/
def Core.serving (k : Core) : Bool := k.ctxs.any (fun p => p.2.live && p.2.tr && ! p.2.stopped && bitOn p.2.tcause 9)

/-- Take the inbox head in a context at a boundary with IE = 1 and TR = 0, the control context first (R178): TCAUSE =
FCAUSE | ASYNC | CHAIN. -/
def State.takeChain (s : State) : Option State :=
  let k := s.myCore
  let x := s.me
  match k.inbox with
  | [] => none
  | m :: _ =>
    let ready := fun (y : Ctx) => y.boundary && ! y.tr && y.ie
    if k.serving || ! ready x || (x.kind ≠ .control && k.ctxs.any (fun p => decide (p.2.kind = .control) && ready p.2)) then none
    else
      let s1 := s.setMe { x with tstatus := x.status, taddr := x.pc, tval := 0,
                                 tcause := w64 (m.fcause.toNat + 0x300), status := handlerStatus x.status,
                                 trSince := s.now }
      some (if k.tvec = 0 then s1.handlerFault m.fcause.toNat 0 x.pc else s1.setMe { s1.me with pc := k.tvec })

/-- TRAP_MESSAGE_TAKE: in a live context of the core, the control context first. -/
def execTrapMessageTake (core : Nat) (s : State) : Out :=
  match (s.coreAt core).ctxs.findSome? (fun p => (s.at core p.1).takeChain) with
  | some t => .next t
  | none => .next s

/-- TRAP_MESSAGE_FORWARD: the oldest message of the inbox that has waited unserved for 64 µs. -/
def execTrapMessageForward (core : Nat) (s : State) : Out :=
  let k := s.coreAt core
  match (indexed 0 (k.inbox.take 4)).find? (fun p => (decide (p.1 ≠ 0) || ! k.serving) && decide (p.2.since + 128000 ≤ s.now)) with
  | none => .next s
  | some (i, m) => .next ((s.setCore core (k.popMsg i s.now)).forwardMsg m)

/-- The answer to the inbox head (R178): 0 kills the origin's CTXID, 1 restarts the origin's handler at TVEC.
(Mark: DEDUCED, unsafe, log 90) -/
def State.chreply (s : State) (c : Nat) (v : W64) : State :=
  let k := s.coreAt c
  match k.inbox with
  | [] => s
  | m :: _ =>
    let s1 := s.setCore c (k.popMsg 0 s.now)
    match bitsAt v 0 2 with
    | 0 => if m.ten < 16 then s1.injectKill m.ten m.ctxid m.origin 0x1A false else s1
    | 1 =>
      let o := s1.ctxAt m.origin m.octx
      if o.stopped then
        s1.setCtx m.origin m.octx { o with pc := (s1.coreAt m.origin).tvec, stopped := false, stall := 0,
                                           status := putBits o.status 0 1 1, trSince := s.now }
      else s1
    | _ => s

/-- CHREPLY_WRITE. (Mark: DEDUCED, unsafe, log 90; DESIGN CHOICE, safe, log 91) -/
def execChreplyWrite (core ctx : Nat) (v : BitVec 64) (s : State) : Out :=
  if (s.ctxAt core ctx).live && decide ((s.ctxAt core ctx).pl ≥ 1) then .next (s.chreply core v) else .next s

/-- A context is stopped while its core's thread is being saved or restored by another context. -/
def Core.rests (k : Core) (x : Nat) : Bool := match k.saving with
  | some (_, h) => h != x
  | none => false

/-- WATCHDOG: TR = 1 for 2^20 clk is a handler-code fault (R180); time stopped does not count. -/
def execWatchdog (core ctx : Nat) (s : State) : Out :=
  let x := s.ctxAt core ctx
  if x.live && x.tr && ! x.stopped && ! (s.coreAt core).rests ctx && decide (s.now ≥ x.trSince + 2 ^ 20) then
    .next ((s.at core ctx).handlerFault 0x1B 0 x.pc)
  else .next s

/-! ## User interrupts -/

/-- The entry conditions of R182. -/
def Ctx.uiReady (x : Ctx) : Bool :=
  x.live && ! x.stopped && x.uie && ! x.ui && ! x.tr && decide (x.uivec ≠ 0) && ! x.uiq.isEmpty && x.asyncs.isEmpty

/-- Enter the user-interrupt handler at a boundary. -/
def State.takeUi (s : State) : Option State :=
  let x := s.me
  if x.uiReady && x.boundary then
    some (s.setMe { x with uiaddr := x.pc, status := putBits x.status 1 1 1, pc := x.uivec })
  else none

/-- USER_INTERRUPT_TAKE. -/
def execUserInterruptTake (core ctx : Nat) (s : State) : Out :=
  match (s.at core ctx).takeUi with
  | some t => .next t
  | none => .next s

end Sys2Proof.Machine
end

