-- ==== Sys2Proof/Machine/Versions.lean ====
section
/-! DEFINITION. Versioned words (07 R149; 08 R155 to R159; 14 R264) with the promises that hold creations back
(10 R197), and what a fence of each scope performs (08 R160). -/

namespace Sys2Proof.Machine

open Sys2Proof

/-! ## What has been performed -/

/-- The context's stores have left its queue and its cluster's port buffer: performed at module scope. -/
def State.performModule (s : State) (c x : Nat) : State :=
  let s1 := s.drainQueue c x
  if isArray c then s1.drainPort (clusterOf c) else s1

/-- A packet of the context to another module is queued or unacknowledged. -/
def State.outward (s : State) (c x : Nat) : Bool :=
  let mine := fun (p : Packet) => decide (p.src.toNat = s.modid ∧ p.kind = 0 ∧ p.body.core = c ∧ p.body.ctx = x)
    && p.stream != 1
  s.fabric.unacked.any (fun u => mine u.pkt) || s.fabric.sendq.any (fun q => q.2.any (fun e => mine e.pkt))

/-- A message of the context has not been enqueued at its destination (R165): one to a core of this module, or to any. -/
def State.sending (s : State) (c x : Nat) (far : Bool) : Bool :=
  (s.coreAt c).injq.any (fun m => decide (m.ctx = x ∧ m.owner = (s.coreAt c).thread) && (far || decide (m.node = s.modid)))

/-- Every earlier access of the context is performed at system scope, but for its buffered stores (R159). -/
def State.settledSystem (s : State) (c x : Nat) : Bool :=
  decide ((s.ctxAt c x).outstanding = 0) && (s.ctxAt c x).amodReply.isEmpty && ! s.outward c x && ! s.sending c x true

/-! ## Groups and the estate table -/

/-- The holder group of a context (19 R371): its thread's group at level DLEV; the root for a continuation. -/
def State.groupOf (s : State) (c x : Nat) : W32 :=
  match s.launchOf c with
  | none => 0
  | some l =>
    match (s.ctxAt c x).kind with
    | .continuation => l.group 8 0
    | _ => l.group (s.ctxAt c x).dlev.toNat (s.lcoreOf c)

/-- The groups that a context is a member of: its thread's group at every level, and the root. -/
def State.groupsOf (s : State) (c x : Nat) : List W32 :=
  match s.launchOf c with
  | none => []
  | some l =>
    match (s.ctxAt c x).kind with
    | .continuation => [l.group 8 0]
    | _ => (upTo 0 l.nlev).map (fun i => l.group i (s.lcoreOf c)) ++ [l.group 8 0]

/-- The groups of a context as a request carries them. -/
def State.groupBytes (s : State) (c x : Nat) : List Byte := (s.groupsOf c x).flatMap (fun g => leBytes 4 g.toNat)

/-- The entries of a die's estate table. -/
def State.estatesAt (s : State) (die : Nat) : List Estate := Tab.get s.estates [] die
/-- Replace a die's estate table. -/
def State.setEstates (s : State) (die : Nat) (l : List Estate) : State :=
  { s with estates := Tab.set s.estates die l }
/-- The entry of a kind at a home. -/
def State.estateAt (s : State) (kind home : Nat) : Option Estate :=
  (s.estatesAt (keyDie home)).find? (fun e => decide (e.kind = kind ∧ e.home = home))
/-- Free the entry of a kind at a home. -/
def State.freeEstate (s : State) (kind home : Nat) : State :=
  s.setEstates (keyDie home) ((s.estatesAt (keyDie home)).filter (fun e => ! decide (e.kind = kind ∧ e.home = home)))
/-- Change the entry of a kind at a home. -/
def State.updEstate (s : State) (kind home : Nat) (f : Estate → Estate) : State :=
  s.setEstates (keyDie home)
    ((s.estatesAt (keyDie home)).map (fun e => if e.kind = kind ∧ e.home = home then f e else e))

/-! ## The version unit (R156) -/

/-- a is later than b, modulo 2^32. -/
def ahead (a b : W32) : Bool := decide (1 ≤ (a - b).toNat ∧ (a - b).toNat ≤ 2 ^ 31 - 1)

/-- CUR of the word whose header is at a key. -/
def State.verCur (s : State) (h : Nat) : W32 := BitVec.ofNat 32 (s.peekLe h 4)
/-- FLOOR of a word. -/
def State.verFloor (s : State) (h : Nat) : W32 := BitVec.ofNat 32 (s.peekLe (h + 4) 4)
/-- Key of the slot of version v of a word of depth d. -/
def verSlot (h d : Nat) (v : W32) : Nat := h + 65536 * (1 + v.toNat % d)
/-- The header of the word that holds page offset `o`. -/
def verHeader (frame o : Nat) : Nat := frame * 65536 + o / 8 * 8

/-- A creation, if the slot holds no retained version: the new state. Bytes go to offset `o` of the word, the others
are copied from the current version, in one step. -/
def State.verCreate (s : State) (h d o : Nat) (bytes : List Byte) : Option State :=
  let v := s.verCur h + 1
  if ahead (s.verFloor h) (v - BitVec.ofNat 32 d) then
    let old := s.peekN (verSlot h d (s.verCur h)) 8
    let new := (upTo 0 8).map (fun i => if o ≤ i ∧ i < o + bytes.length then nth bytes 0 (i - o) else nth old 0 i)
    some ((s.pokeN (verSlot h d v) new).pokeLe h 4 v.toNat)
  else none

/-- A version read: none while it waits, else the value or VRETIRED. -/
def State.verRead (s : State) (h d : Nat) (v : W32) : Option (Option W64) :=
  if ahead v (s.verCur h) then none
  else if ahead (s.verFloor h) v || decide ((s.verCur h - v).toNat ≥ d) then some none
  else some (some (w64 (s.peekLe (verSlot h d v) 8)))

/-- The current version, as a plain LD reads it. -/
def State.verPlain (s : State) (h d : Nat) : List Byte := s.peekN (verSlot h d (s.verCur h)) 8

/-- A floor raise: FLOOR never falls and never passes CUR + 1. -/
def State.verRaise (s : State) (h : Nat) (f : W32) : State :=
  let g := if ahead f (s.verCur h + 1) then s.verCur h + 1 else f
  if ahead g (s.verFloor h) then s.pokeLe (h + 4) 4 g.toNat else s

/-- The promise held on a word. -/
def State.promiseAt (s : State) (h : Nat) : Option Estate :=
  match s.estateAt 3 h with
  | some e => if e.state = 1 then some e else none
  | none => none

/-- A creation by a member of groups may go on: no promise is held on the word, or one of its groups holds it.
(Mark: DEDUCED, unsafe, log 56) -/
def State.mayCreate (s : State) (h : Nat) (ctxid : W32) (groups : List W32) : Bool :=
  match s.promiseAt h with
  | none => true
  | some e => decide (e.ctxid = ctxid) && groups.contains e.holder

/-- A creation fulfils the promise on the word. (Mark: DEDUCED, unsafe, log 56) -/
def State.fulfil (s : State) (h : Nat) : State := if (s.promiseAt h).isSome then s.freeEstate 3 h else s

/-! ## Waiters (R157) -/

/-- Key of the flow that a packet arrives in. -/
def rxKey (p : Packet) : Nat := p.src.toNat * 128 + p.ten.toNat * 8 + p.stream.toNat

/-- Receive state of the flow of a packet. -/
def State.rxOf (s : State) (p : Packet) : RxFlow := Tab.get s.fabric.rx RxFlow.reset (rxKey p)

/-- Change the receive state of a flow. -/
def State.setRx (s : State) (key : Nat) (r : RxFlow) : State :=
  { s with fabric := { s.fabric with rx := Tab.set s.fabric.rx key r } }

/-- The base passes completed sequences; `n` bounds them. -/
def RxFlow.advance (r : RxFlow) (n : Nat) : RxFlow :=
  match n with
  | 0 => r
  | k + 1 =>
    if r.done.contains r.base then RxFlow.advance { r with base := r.base + 1, done := r.done.filter (fun q => q != r.base) } k
    else r

/-- A sequence is complete; one that was complete stays so. -/
def RxFlow.complete (r : RxFlow) (seq : W32) : RxFlow :=
  if r.done.contains seq ∨ 2 ^ 31 ≤ (seq - r.base).toNat then r
  else
    let r1 := { r with done := seq :: r.done, held := r.held.filter (fun q => q.seq != seq) }
    r1.advance (r1.done.length + 1)

/-- The sequence of a packet is complete (02 R35). -/
def State.completeSeq (s : State) (p : Packet) : State := s.setRx (rxKey p) ((s.rxOf p).complete p.seq)

/-- The reply to a request of another module: it goes back on stream 1 and names the request. -/
def State.replyTo (s : State) (p : Packet) (op : BodyOp) (v : W64) : Packet :=
  { src := BitVec.ofNat 6 s.ownNumber, dst := p.src, ten := p.ten, stream := 1,
    body := { op := op, val := v, sel := p.stream.toNat, cmp := w64 p.seq.toNat, core := p.body.core,
              ctx := p.body.ctx, reg := p.body.reg, ctxid := p.body.ctxid, va := p.body.va } }

/-- A request that must not be executed twice (02 R34): its reply is cached. -/
def onceOnly : BodyOp → Bool
  | .amo | .red | .redf | .sendMsg | .stv | .estate | .cont | .graphOpen | .graphObject | .graphFinish => true
  | _ => false

/-- A reply to a request of another module leaves, and its reply-cache entry is filled where there is one (02 R36). -/
def State.replyOnly (s : State) (p r : Packet) : State :=
  let s1 := s.sendPacket r
  if onceOnly p.body.op && r.body.op != .retry then
    { s1 with fabric := { s1.fabric with cache := s1.fabric.cache ++ [(rxKey p, p.seq, r)] } }
  else s1

/-- A request of another module is answered: it has been delivered, and the sequence that it holds is complete
(02 R30, R35). -/
def State.reply (s : State) (p r : Packet) : State := (s.replyOnly p r).completeSeq p

/-- A waiter is answered: its context is granted the value, or its module receives the reply. -/
def State.answer (s : State) (w : Waiter) (v : W64) : State :=
  match w.remote with
  | some p => s.reply p (s.replyTo p .reply v)
  | none =>
    let x := s.ctxAt w.core w.ctx
    if x.live then s.setCtx w.core w.ctx { x with grant := some v } else s

/-- Group IDs as a request carries them, 4 bytes each. (Mark: DEDUCED, unsafe, log 56) -/
def groupsIn (l : List Byte) (n : Nat) : List W32 :=
  match n with
  | 0 => []
  | k + 1 => if l.length < 4 then [] else BitVec.ofNat 32 (recNat l 0 4) :: groupsIn (l.drop 4) k

/-- The CTXID and the groups in whose name a waiter creates. -/
def State.waiterGroup (s : State) (w : Waiter) : W32 × List W32 :=
  match w.remote with
  | some p => (p.body.ctxid, groupsIn p.body.bytes 9)
  | none => (s.ctxidOf w.core, s.groupsOf w.core w.ctx)

/-- The void creation of a heirless promise, which no context issued (10 R205). -/
def voidCore : Nat := 0xFFFF

/-- Serve one waiter of a word if its condition holds. The state carries whether an earlier creation is still waiting
on the floor, and the waiters kept so far. -/
def serveOne (h : Nat) (acc : State × Bool × List Waiter) (w : Waiter) : State × Bool × List Waiter :=
  let (s, blocked, kept) := acc
  if w.key ≠ h then (s, blocked, kept ++ [w])
  else
    let d := (nth w.bytes 0 1).toNat
    match w.kind with
    | .readV v =>
      match s.verRead h d v with
      | some (some r) => (s.answer w r, blocked, kept)
      | some none => match w.remote with
        | some p => (s.reply p (s.replyTo p .replyFault 9), blocked, kept)
        | none => (s, blocked, kept ++ [w])
      | none => (s, blocked, kept ++ [w])
    | .lock => (s, blocked, kept ++ [w])
    | .counter _ => (s, blocked, kept ++ [w])
    | .reduction _ => (s, blocked, kept ++ [w])
    | _ =>
      let g := s.waiterGroup w
      let may := decide (w.kind = .create ∨ w.core = voidCore) || s.mayCreate h g.1 g.2
      if ! may then (s, blocked, kept ++ [w])
      else match (if blocked then none else s.verCreate h d (nth w.bytes 0 0).toNat (w.bytes.drop 2)) with
        | some t =>
          let t1 := if w.core = voidCore then t else t.fulfil h
          (t1.answer w (zext (t1.verCur h)), blocked, kept)
        | none => (s, true, kept ++ [{ w with kind := .create }])

/-- Serve the waiters of a word in arrival order until none can go on. -/
def State.serve (s : State) (h n : Nat) : State :=
  match n with
  | 0 => s
  | k + 1 =>
    let (t, _, kept) := s.waiters.foldl (serveOne h) (s, false, [])
    let t1 := { t with waiters := kept }
    if kept.length = s.waiters.length then t1 else t1.serve h k

/-- Serve a word's waiters. -/
def State.serveWord (s : State) (h : Nat) : State :=
  if s.waiters.any (fun w => w.key == h) then s.serve h (s.waiters.length + 1) else s

/-- A creation must wait behind creations that already wait on the word. -/
def State.creationsWait (s : State) (h : Nat) : Bool :=
  s.waiters.any (fun w => decide (w.key = h) && decide (w.kind = .create))

/-- A waiter is held by a version unit, and not by a Cleat. -/
def WaitKind.versions : WaitKind → Bool
  | .create | .readV _ | .heldBack => true
  | _ => false

/-- The version units of a stack hold 4,096 waiters between them. -/
def State.unitsFull (s : State) (h : Nat) : Bool :=
  decide ((s.waiters.filter (fun w => decide (w.key / 2 ^ 36 = h / 2 ^ 36) && w.kind.versions)).length ≥ 4096)

/-- The issuing context waits at a version unit, with stall reason 6. A request that finds the units full is refused;
the clk of the refusal is kept, and the request is sent again 64 clk later. -/
def State.verWait (s : State) (h : Nat) (kind : WaitKind) (bytes : List Byte) : Out :=
  if s.waiters.any (fun w => w.remote.isNone && decide (w.core = s.core ∧ w.ctx = s.ctx)) then s.wait 6
  else match s.me.retryAt with
    | some _ => s.wait 6
    | none =>
      if s.unitsFull h then
        .next (s.setMe { s.me with stall := 6, retryAt := some s.now })
      else
        let w : Waiter :=
          { kind := kind, key := h, core := s.core, ctx := s.ctx, since := s.now, remote := none, bytes := bytes }
        { s with waiters := s.waiters ++ [w] }.wait 6

/-- VERSION_UNIT_RETRY: 64 clk after the refusal the context sends its request again. -/
def execVersionUnitRetry (core ctx : Nat) (s : State) : Out :=
  let x := s.ctxAt core ctx
  match x.retryAt with
  | some t => if s.now ≥ t + 64 then .next (s.setCtx core ctx { x with retryAt := none }) else .next s
  | none => .next s

end Sys2Proof.Machine
end

