-- ==== Sys2Proof/Machine/Monitor.lean ====
section
/-! DEFINITION. What only the monitor writes: tenant configuration (03 R54; 04 R67; 07 R142; 10 R194), page tables,
frame attributes and attestation, through the monitor calls of 05 R84 to R89, and the resident handler (09 R185). -/

namespace Sys2Proof.Machine

open Sys2Proof

/-! ## Tenant configuration: each write answers the new state, or none where it is discarded -/

/-- The tenant has live contexts: on a core, or of a suspended thread. -/
def State.tenantLive (s : State) (t : Nat) : Bool :=
  s.cores.any (fun p => match p.2.thread with
    | some (u, _, _) => decide (u = t) && p.2.anyLive
    | none => false)
  || s.launches.any (fun l => decide (l.ten = t) && ! l.saved.isEmpty)

/-- The other tenants. -/
def otherTenants (t : Nat) : List Nat := (upTo 0 16).filter (fun u => u != t)

/-- Two enabled rectangles overlap. -/
def rectOverlap (a b : W64) : Bool :=
  bitOn a 16 && bitOn b 16
    && decide (bitsAt a 0 4 ≤ bitsAt b 8 4 ∧ bitsAt b 0 4 ≤ bitsAt a 8 4)
    && decide (bitsAt a 4 4 ≤ bitsAt b 12 4 ∧ bitsAt b 4 4 ≤ bitsAt a 12 4)

/-- Kill every launch of a tenant that has threads. -/
def State.killTenant (s : State) (t : Nat) : State :=
  (s.launches.filter (fun l => decide (l.ten = t ∧ (l.state ≠ .queued ∨ l.placedAt.isSome)))).foldl (fun u l =>
    match (s.cores.find? (fun p => s.holdsThread t l.ctxid p.1)) with
    | some p => u.injectKill t l.ctxid p.1 0x1A false
    | none => u.injectKill t l.ctxid (16 * u.killStart t l.ctxid monitorCore) 0x1A false) s

/-- TRECT (03 R54). -/
def State.writeTrect (s : State) (t : Nat) (v : W64) : Option State :=
  let n := s.tenantAt t
  let w := w64 (v.toNat % 2 ^ 17)
  if (bitOn w 16 && (otherTenants t).any (fun u => rectOverlap w (s.tenantAt u).trect))
      || decide (bitsAt w 8 4 < bitsAt w 0 4 ∨ bitsAt w 12 4 < bitsAt w 4 4)
      || (bitOn n.trect 16 && decide (bitsAt w 0 16 ≠ bitsAt n.trect 0 16)) then none
  else if bitOn n.trect 16 && ! bitOn w 16 && s.tenantLive t then
    some ((s.setTenant t { n with trectNew := some w }).killTenant t)
  else some (s.setTenant t { n with trect := w, trectNew := none })

/-- BASE and COUNT of TECR. -/
def tecrBase (v : W64) : Nat := bitsAt v 0 12
/-- COUNT of TECR. -/
def tecrCount (v : W64) : Nat := bitsAt v 16 13

/-- Two ranges [a, a+n) and [b, b+m) meet. -/
def meet (a n b m : Nat) : Bool := decide (0 < n ∧ 0 < m ∧ a < b + m ∧ b < a + n)

/-- TECR (04 R67). -/
def State.writeTecr (s : State) (t : Nat) (v : W64) : Option State :=
  let w := w64 (tecrBase v + tecrCount v * 2 ^ 16)
  if tecrBase v + tecrCount v > 4096
      || (otherTenants t).any (fun u =>
        meet (tecrBase v) (tecrCount v) (tecrBase (s.tenantAt u).tecr) (tecrCount (s.tenantAt u).tecr))
      || s.tenantLive t then none
  else some (s.setTenant t { s.tenantAt t with tecr := w })

/-- TSUBCFG (04 R67): bits [15:13] are reserved. -/
def State.writeTsubcfg (s : State) (t : Nat) (v : W64) : Option State :=
  if bitsAt v 0 9 > 256 ∨ bitsAt v 16 5 > 16 then none
  else some (s.setTenant t { s.tenantAt t with tsubcfg := w64 (bitsAt v 0 13 + bitsAt v 16 5 * 2 ^ 16) })

/-- TESTR (10 R194). -/
def State.writeTestr (s : State) (t : Nat) (v : W64) : Option State :=
  let b := bitsAt v 0 8
  let n := bitsAt v 8 9
  if b + n > 256
      || (otherTenants t).any (fun u =>
        meet b n (bitsAt (s.tenantAt u).testr 0 8) (bitsAt (s.tenantAt u).testr 8 9))
      || s.estates.any (fun d => d.2.any (fun e => e.ten == t)) then none
  else some (s.setTenant t { s.tenantAt t with testr := w64 (v.toNat % 2 ^ 17) })

/-- Two HBM windows share a frame (07 R142). -/
def winOverlap (a b : W64) : Bool :=
  decide (Nat.land (bitsAt a 40 8) (bitsAt b 40 8) ≠ 0) && meet (bitsAt a 0 20) (bitsAt a 20 20) (bitsAt b 0 20) (bitsAt b 20 20)

/-- The valid entries of the table in a frame, with their indices: V is in an entry's first byte, and a byte that memory
does not list is 0. -/
def State.entries (s : State) (f : Nat) : List (Nat × W64) :=
  (s.mem.filterMap (fun c => if c.1 / 65536 = f ∧ c.1 % 8 = 0 then some (c.1 % 65536 / 8, w64 (s.peekLe c.1 8)) else none)).filter
    (fun p => pteV p.2)

/-- The valid leaves of a table tree: VA, level, entry. -/
def State.leaves (s : State) (root : Nat) : List (Nat × Nat × W64) :=
  (s.entries root).flatMap (fun (i, e0) => (s.entries (pteFrame e0)).flatMap (fun (j, e1) =>
    if pteLeaf e1 then [(i * 2 ^ 42 + j * 2 ^ 29, 1, e1)]
    else (s.entries (pteFrame e1)).map (fun (k, e2) => (i * 2 ^ 42 + j * 2 ^ 29 + k * 2 ^ 16, 3, e2))))

/-- Every frame a leaf maps. -/
def mappedFrames (level : Nat) (e : W64) : List Nat :=
  if level = 1 then upTo (pteFrame e) 8192 else upTo (pteFrame e) (vdDepth (pteVD e) + 1)

/-- The root table of a tenant, or of the firmware table for 16 and above. (Mark: DEDUCED, unsafe, log 44) -/
def State.rootOf (s : State) (t : Nat) : Nat :=
  if 16 ≤ t then bitsAt s.fwroot 16 36 else bitsAt (s.tenantAt t).ptbase 16 36

/-- TFWIN (07 R142). (Mark: DEDUCED, unsafe, log 44) -/
def State.writeTfwin (s : State) (t : Nat) (v : W64) : Option State :=
  let w := w64 (v.toNat % 2 ^ 48)
  if bitsAt w 0 20 + bitsAt w 20 20 > 2 ^ 20
      || (otherTenants t).any (fun u => winOverlap w (s.tenantAt u).tfwin)
      || (bitOn w 40 && meet (bitsAt w 0 20) (bitsAt w 20 20) 0 4096)
      || (s.leaves (s.rootOf t)).any (fun l => (mappedFrames l.2.1 l.2.2).any (fun f => ! inWindow w f)) then none
  else some (s.setTenant t { s.tenantAt t with tfwin := w })

/-- A monitor-space write: a discarded one sets MCERR.CFG (14 R271). -/
def State.orMcerr (s : State) (r : Option State) : State :=
  match r with
  | some t => t
  | none => { s with mcerr := true }

/-- TRECT_WRITE. -/
def execTrectWrite (t : BitVec 4) (v : BitVec 64) (s : State) : Out := .next (s.orMcerr (s.writeTrect t.toNat v))
/-- TECR_WRITE. -/
def execTecrWrite (t : BitVec 4) (v : BitVec 64) (s : State) : Out := .next (s.orMcerr (s.writeTecr t.toNat v))
/-- TSUBCFG_WRITE. -/
def execTsubcfgWrite (t : BitVec 4) (v : BitVec 64) (s : State) : Out := .next (s.orMcerr (s.writeTsubcfg t.toNat v))
/-- TESTR_WRITE. -/
def execTestrWrite (t : BitVec 4) (v : BitVec 64) (s : State) : Out := .next (s.orMcerr (s.writeTestr t.toNat v))
/-- TFWIN_WRITE. -/
def execTfwinWrite (t : BitVec 4) (v : BitVec 64) (s : State) : Out := .next (s.orMcerr (s.writeTfwin t.toNat v))

/-! ## Tenant memory, page by page -/

/-- Physical keys of `n` bytes from a tenant's VA, translated at PL 1; none where a page is not mapped so. -/
def State.tenKeys (s : State) (ten : Nat) (va : W64) (wr : Bool) (n fuel : Nat) : Option (List (Nat × Nat)) :=
  match fuel with
  | 0 => none
  | k + 1 =>
    if n = 0 then some []
    else
      let m := min n (65536 - va.toNat % 65536)
      match s.translate ten va wr with
      | none => none
      | some pa =>
        match s.tenKeys ten (va + w64 m) wr (n - m) k with
        | none => none
        | some r => some ((pa, m) :: r)

/-- Read a tenant's memory. -/
def State.tenRead (s : State) (ten : Nat) (va : W64) (n : Nat) : Option (List Byte) :=
  match s.tenKeys ten va false n (n / 65536 + 2) with
  | none => none
  | some l => some (l.flatMap (fun p => s.peekN p.1 p.2))

/-- Write a tenant's memory: all of it or nothing. -/
def State.tenWrite (s : State) (ten : Nat) (va : W64) (bytes : List Byte) : Option State :=
  match s.tenKeys ten va true bytes.length (bytes.length / 65536 + 2) with
  | none => none
  | some l => some (l.foldl (fun acc p => (acc.1.pokeN p.1 (acc.2.take p.2), acc.2.drop p.2)) (s, bytes)).1

/-! ## Page tables (05 R85, R86) -/

/-- Remove a tenant's entries for `n` pages from a page from every TLB and instruction cache (07 R120, R143). -/
def State.tlbInvalidate (s : State) (ten page n : Nat) : State :=
  let hit := fun (t : TlbEnt) => decide (t.ten = ten) &&
    (if t.level = 1 then decide (t.page / 8192 * 8192 < page + n ∧ page < t.page / 8192 * 8192 + 8192) else decide (page ≤ t.page ∧ t.page < page + n))
  let pg := fun (p : Nat × Nat × List Byte) => decide (p.1 = ten ∧ page ≤ p.2.1 / 1024 ∧ p.2.1 / 1024 < page + n)
  { s with cores := Tab.mapV s.cores (fun _ k => { k with tlb := k.tlb.filter (fun t => ! hit t),
                                                          icache := k.icache.filter (fun p => ! pg p) }),
           clusters := Tab.mapV s.clusters (fun _ k => { k with tlb := k.tlb.filter (fun t => ! hit t) }) }

/-- The VA range of the resident handler's segment: it is reserved in every tenant's space (09 R185). -/
def State.handlerRange (s : State) (va : Nat) (pages : Nat) : Bool :=
  decide (s.prevec ≠ 0) && meet (va / 65536) pages (s.prevec.toNat % 2 ^ 55 / 65536) ((Config.handlerLen + 65535) / 65536)

/-- Key of the entry for a VA in the table at a level, creating the tables above it from the pool; none where the pool
is empty. -/
def State.tableEntry (s : State) (root va level : Nat) : Option (State × Nat) :=
  let k0 := root * 65536 + 8 * (va / 2 ^ 42 % 8192)
  let down := fun (u : State) (k : Nat) =>
    let e := w64 (u.peekLe k 8)
    if pteV e then some (u, pteFrame e)
    else match u.pool with
      | [] => none
      | f :: r => some (({ u with pool := r }.zero (f * 65536) 65536).pokeLe k 8 (f * 65536 + 1), f)
  match down s k0 with
  | none => none
  | some (s1, f1) =>
    let k1 := f1 * 65536 + 8 * (va / 2 ^ 29 % 8192)
    if level = 1 then some (s1, k1)
    else match down s1 k1 with
      | none => none
      | some (s2, f2) => some (s2, f2 * 65536 + 8 * (va / 2 ^ 16 % 8192))

/-- A valid leaf stands where the table that would hold a VA's entry at level 3 is needed (log 43).
(Mark: DESIGN CHOICE, unsafe, log 43) -/
def State.leafAbove (s : State) (root va level : Nat) : Bool :=
  let e0 := w64 (s.peekLe (root * 65536 + 8 * (va / 2 ^ 42 % 8192)) 8)
  let e1 := w64 (s.peekLe (pteFrame e0 * 65536 + 8 * (va / 2 ^ 29 % 8192)) 8)
  pteV e0 && (pteLeaf e0 || (decide (level = 3) && pteV e1 && pteLeaf e1))

/-- Write a leaf: the old leaf is invalidated first if it was valid. -/
def State.writeLeaf (s : State) (ten k va level : Nat) (e : W64) : State :=
  let old := w64 (s.peekLe k 8)
  let s1 := if pteV old then s.tlbInvalidate ten (va / 65536) (if level = 1 then 8192 else 1) else s
  s1.pokeLe k 8 e.toNat

/-- Status codes of a monitor call. -/
def mOK : Nat := 0
/-- DENIED. -/
def mDENIED : Nat := 1
/-- BADARG. -/
def mBADARG : Nat := 2
/-- ATTR. -/
def mATTR : Nat := 3
/-- BADSIG. -/
def mBADSIG : Nat := 4
/-- NOMEM. -/
def mNOMEM : Nat := 5

/-- MAPPTE: status, RES0, and the state.
(Mark: DESIGN CHOICE, unsafe, log 43; DEDUCED, unsafe, log 45; DEDUCED, unsafe, log 132) -/
def State.mapPte (s : State) (ten : Nat) (va pte : W64) (level : Nat) : Nat × W64 × State :=
  let a := va.toNat
  let size := if level = 1 then 2 ^ 29 else 65536
  let fs := if pteV pte then mappedFrames level pte else []
  let fw := decide (16 ≤ ten)
  if ¬ (level = 1 ∨ level = 3) ∨ a % size ≠ 0 ∨ a ≥ 2 ^ 55 then (mBADARG, 0, s)
  else if pteV pte && (! pteLeaf pte || pteBad (if level = 1 then 1 else 2) fw pte) then (mBADARG, 0, s)
  else if fs.any (fun f => if fw then (upTo 0 16).any (fun t => inWindow (s.tenantAt t).tfwin f)
      else ! inWindow (s.tenantAt ten).tfwin f) then (mDENIED, 0, s)
  else if ! fw && s.handlerRange a (size / 65536) then (mDENIED, 0, s)
  else if pteX pte && fs.any (fun f => ! bitOn (Tab.get s.attr 0 f) 6) then (mDENIED, 0, s)
  else if pteW pte && fs.any (fun f => bitOn (Tab.get s.attr 0 f) 6) then (mDENIED, 0, s)
  else if fs.any (s.kindDiffers pte) then (mATTR, 0, s)
  else if s.leafAbove (s.rootOf ten) a level then (mBADARG, 0, s)
  else match s.tableEntry (s.rootOf ten) a level with
    | none => (mNOMEM, 0, s)
    | some (s1, k) => (mOK, w64 (s1.peekLe k 8), s1.writeLeaf ten k a level pte)

/-- The roots of the seventeen tables, each once. (Mark: DEDUCED, unsafe, log 44) -/
def State.roots (s : State) : List Nat := ((upTo 0 17).map s.rootOf).eraseDups

/-- A valid PTE maps a frame. (Mark: DEDUCED, unsafe, log 44) -/
def State.frameMapped (s : State) (f : Nat) : Bool :=
  s.roots.any (fun r => (s.leaves r).any (fun l => (mappedFrames l.2.1 l.2.2).contains f))

/-- A frame is made to read 0, with what port buffers hold for it. -/
def State.zeroFrame (s : State) (f : Nat) : State :=
  { (s.zero (f * 65536) 65536) with
    clusters := Tab.mapV s.clusters (fun _ k => { k with port := k.port.filter (fun l => decide (l.line / 1024 ≠ f)) }) }

/-- FRATTR: a reserved bit of the record is BADARG (R84), and the measured mark is cleared whatever ARG1 holds. A frame
allocated with VD ≠ 0 is zeroed (07 R149). (Mark: DEDUCED, unsafe, log 42; DEDUCED, unsafe, log 132) -/
def State.frAttr (s : State) (f : Nat) (v : W64) : Nat × State :=
  if f ≥ 2 ^ 36 ∨ v.toNat / 2 ^ 7 ≠ 0 then (mBADARG, s)
  else if s.frameMapped f then (mDENIED, s)
  else
    let s1 := if v.toNat % 4 = 0 then s else s.zeroFrame f
    (mOK, { s1 with attr := Tab.set s.attr f (BitVec.ofNat 16 (v.toNat % 64)) })

/-! ## Containers and attestation (05 R87 to R89) -/

/-- A container's header is valid for a segment index (step 1 of R89): magic, version, zero reserved fields, and ranges
that fit SIZE, lie after the table and do not overlap. (Mark: DEDUCED, unsafe, log 132) -/
def containerOk (c : List Byte) (size i : Nat) : Bool :=
  let n := recNat c 6 2
  let off := fun j => recNat c (512 + 448 * j + 24) 8
  let len := fun j => recNat c (512 + 448 * j + 16) 8
  let ty := recNat c (512 + 448 * i) 2
  let va := recNat c (512 + 448 * i + 8) 8
  recNat c 0 4 == 0x4E435244 && recNat c 4 2 == 1 && decide (1 ≤ n ∧ n ≤ 64 ∧ i < n) && decide (size % 64 = 0)
    && recNat c 16 48 == 0 && recNat c 448 64 == 0
    && (upTo 0 n).all (fun j => recNat c (512 + 448 * j + 2) 6 == 0 && decide (off j % 64 = 0)
      && decide (1 ≤ len j ∧ len j ≤ 2 ^ 32) && decide (512 + 448 * n ≤ off j ∧ off j + len j ≤ size)
      && (upTo 0 j).all (fun k => ! meet (off j) (len j) (off k) (len k)))
    && decide (1 ≤ ty ∧ ty ≤ 4) && decide (va % (if ty = 1 then 65536 else 64) = 0)

/-- The signer's key is accepted (R88): the vendor's, or for tenants an operator's. -/
def keyAccepted (modulus : List Byte) (vendorOnly : Bool) : Bool :=
  sha256 modulus == Config.vendorKeyHash || (! vendorOnly && Config.operatorKeyHashes.contains (sha256 modulus))

/-- An attestation record takes an entry. -/
def Attest.extend (a : Attest) (entry : List Byte) : Attest :=
  { chain := sha256 (a.chain ++ entry), log := a.log ++ [entry] }

/-- The record of a tenant, or the firmware's. -/
def State.attestOf (s : State) (ten : Nat) : Attest := if 16 ≤ ten then s.fwAttest else (s.tenantAt ten).attest
/-- Replace a record. -/
def State.setAttest (s : State) (ten : Nat) (a : Attest) : State :=
  if 16 ≤ ten then { s with fwAttest := a } else s.setTenant ten { s.tenantAt ten with attest := a }

/-- Mark the pages of a CODE segment measured: X set and W cleared in their leaves. (Mark: DEDUCED, unsafe, log 19) -/
def State.markCode (s : State) (ten va n : Nat) : State :=
  match n with
  | 0 => s
  | k + 1 =>
    let t := s.markCode ten (va + 65536) k
    match t.walk ten (w64 va) 1 false false, t.tableEntry (t.rootOf ten) va 3 with
    | .leaf e, some (u, key) =>
      if e.level = 3 then
        ({ u with attr := (mappedFrames 3 e.pte).foldl (fun a f =>
            Tab.set a f (putBits (Tab.get a (0 : W16) f) 6 1 1)) u.attr }).writeLeaf ten key va 3
          (putBits (putBits e.pte 2 1 1) 1 1 0)
      else
        match u.tableEntry (u.rootOf ten) va 1 with
        | some (u1, key1) =>
          let f1 := pteFrame e.pte + va / 65536 % 8192
          ({ u1 with attr := Tab.set u1.attr f1 (putBits (Tab.get u1.attr (0 : W16) f1) 6 1 1) }).writeLeaf ten key1
            (va / 2 ^ 29 * 2 ^ 29) 1 (putBits (putBits e.pte 2 1 1) 1 1 0)
        | none => u
    | _, _ => t

/-- The steps of R89 in order, for segment `i` of a container whose segment bytes stand at LOADVA.
(Mark: DEDUCED, unsafe, log 19) -/
def State.verifySegment (s : State) (ten : Nat) (c : List Byte) (i : Nat) : Nat × State :=
  let e := sliceBytes c (512 + 448 * i) 448
  let modulus := sliceBytes c 64 384
  if ! containerOk c (recNat c 8 8) i then (mBADARG, s)
  else if ! keyAccepted modulus (decide (16 ≤ ten)) then (mBADSIG, s)
  else if ! rsaVerify modulus (e.take 64) (sliceBytes e 64 384) then (mBADSIG, s)
  else match s.tenRead ten (w64 (recNat e 8 8)) (recNat e 16 8) with
    | none => (mBADSIG, s)
    | some bytes =>
      if sha256 bytes != sliceBytes e 32 32 then (mBADSIG, s)
      else if (s.attestOf ten).log.length ≥ 1024 then (mNOMEM, s)
      else
        let entry := sliceBytes e 0 2 ++ sliceBytes e 8 16 ++ sliceBytes e 32 32 ++ sha256 modulus
        let s1 := s.setAttest ten ((s.attestOf ten).extend entry)
        (mOK, if recNat e 0 2 = 1 then s1.markCode ten (recNat e 8 8) ((recNat e 16 8 + 65535) / 65536) else s1)

/-- SEGLOAD: the header and the segment table are read from the tenant's memory, and the segment is verified.
(Mark: DEDUCED, unsafe, log 19) -/
def State.segLoad (s : State) (ten : Nat) (va : W64) (i : Nat) : Nat × State :=
  match s.tenRead ten va 512 with
  | none => (mBADARG, s)
  | some h =>
    match s.tenRead ten va (512 + 448 * recNat h 6 2) with
    | none => (mBADARG, s)
    | some c => s.verifySegment ten c i

/-- QUOTE: status, RES0, state. (Mark: DEDUCED, unsafe, log 132) -/
def State.quote (s : State) (ten : Nat) (nonce out : W64) : Nat × W64 × State :=
  let a := s.attestOf ten
  match s.tenRead ten nonce 32 with
  | none => (mBADARG, 0, s)
  | some n =>
    let body := a.chain ++ sha256 n ++ leBytes 4 a.log.length ++ leBytes 2 (if ten < 16 then ten else 0xFFFF)
      ++ List.replicate 58 0
    let q := body ++ sliceBytes (Config.identitySign body) 0 384
    if out.toNat % 64 ≠ 0 then (mBADARG, 0, s)
    else match s.tenWrite ten out q with
      | none => (mBADARG, 0, s)
      | some t => (mOK, w64 a.log.length, t)

/-- TENCFG. (Mark: DEDUCED, unsafe, log 132) -/
def State.tenCfg (s : State) (ten which : Nat) (v : W64) : Nat × State :=
  if 16 ≤ ten ∨ which > 4 then (mBADARG, s)
  else
    let r := match which with
      | 0 => s.writeTrect ten v
      | 1 => s.writeTecr ten v
      | 2 => s.writeTsubcfg ten v
      | 3 => s.writeTestr ten v
      | _ => s.writeTfwin ten v
    match r with
    | some t => (mOK, t)
    | none => (mDENIED, { s with mcerr := true })

/-! ## The calls (05 R84) -/

/-- The head entry of a service core's ring that software has produced. -/
def State.ringHead (s : State) (v r : Nat) : Option (List Byte) :=
  let m := s.mboxAt v r
  if m.head = m.tail then none else some (sliceBytes (Tab.get m.ents [] (m.head.toNat % 64)) 0 64)

/-- The consumer of a ring advances HEAD. -/
def State.ringPop (s : State) (v r : Nat) : State :=
  let m := s.mboxAt v r
  s.setMbox v r { m with head := m.head + 1, stamps := m.stamps.drop 1 }

/-- The monitor completes the head of ring 3: STATUS, RES0, RES1 and DONE are written and HEAD advances.
(Mark: DEDUCED, unsafe, log 19) -/
def State.monDone (s : State) (v status : Nat) (res0 : W64) : State :=
  let m := s.mboxAt v 3
  let i := m.head.toNat % 64
  let e := sliceBytes (Tab.get m.ents [] i) 0 64
  let hd := putBits (BitVec.ofNat 64 (recNat e 0 8)) 8 1 1
  let e1 := leBytes 8 hd.toNat ++ sliceBytes e 8 4 ++ leBytes 2 status ++ sliceBytes e 14 34 ++ leBytes 8 res0.toNat
    ++ leBytes 8 0
  s.setMbox v 3 { m with ents := Tab.set m.ents i e1, head := m.head + 1, stamps := m.stamps.drop 1 }

/-- The head of a service core's ring 3 arrived before the heads of the others (05 R84). -/
def State.monFirst (s : State) (v : Nat) : Bool :=
  (upTo 0 16).all (fun w => (s.ringHead w 3).isNone || decide (nth (s.mboxAt v 3).stamps 0 0 ≤ nth (s.mboxAt w 3).stamps 0 0))

/-- A monitor call of a function, taken from the head of a service core's ring 3. A reserved TYPE is discarded with a
record in the die's log; a malformed entry or an unknown function completes BADARG. `f` answers status, RES0, state
from the tenant and the arguments. (Mark: DEDUCED, unsafe, log 19; DEDUCED, unsafe, log 131) -/
def State.monCall (s : State) (v func : Nat) (f : Nat → (Nat → W64) → Nat × W64 × State) : Out :=
  match s.ringHead v 3 with
  | none => .next s
  | some e =>
    let ten := recNat e 10 2
    if ! s.monFirst v then .next s
    else if recNat e 0 1 ≠ 0x20 then .next { s.ringPop v 3 with dieLog := s.dieLog ++ [(v / 4, e)] }
    else if recNat e 0 8 / 2 ^ 9 % 2 ^ 7 ≠ 0 ∨ recNat e 0 8 / 2 ^ 29 % 8 ≠ 0 ∨ recNat e 14 2 ≠ 0 ∨ recNat e 8 2 = 0
        ∨ recNat e 8 2 > 5 ∨ (ten ≥ 16 ∧ ten ≠ 0xFFFF) then .next (s.monDone v mBADARG 0)
    else if recNat e 8 2 ≠ func then .next s
    else
      let (st, r, t) := f (min ten 16) (fun i => w64 (recNat e (16 + 8 * i) 8))
      .next (t.monDone v st r)

/-- MAPPTE. -/
def execMappte (svc : BitVec 4) (s : State) : Out :=
  s.monCall svc.toNat 1 (fun ten arg => s.mapPte ten (arg 0) (arg 1) (arg 2).toNat)
/-- FRATTR. -/
def execFrattr (svc : BitVec 4) (s : State) : Out :=
  s.monCall svc.toNat 2 (fun _ arg => let (st, t) := s.frAttr (arg 0).toNat (arg 1)
                                      (st, 0, t))
/-- SEGLOAD. -/
def execSegload (svc : BitVec 4) (s : State) : Out :=
  s.monCall svc.toNat 3 (fun ten arg => let (st, t) := s.segLoad ten (arg 0) (arg 1).toNat
                                        (st, 0, t))
/-- QUOTE. -/
def execQuote (svc : BitVec 4) (s : State) : Out :=
  s.monCall svc.toNat 4 (fun ten arg => s.quote ten (arg 0) (arg 1))
/-- TENCFG. -/
def execTencfg (svc : BitVec 4) (s : State) : Out :=
  s.monCall svc.toNat 5 (fun ten arg => let (st, t) := s.tenCfg ten (arg 0).toNat (arg 1)
                                        (st, 0, t))

/-! ## The resident handler (09 R185) -/

/-- Map `n` pages of the handler's segment with X = 1, W = 0, U = 0. (Mark: DESIGN CHOICE, unsafe, log 43) -/
def State.mapHandler (s : State) (ten va f n : Nat) : State :=
  match n with
  | 0 => s
  | k + 1 =>
    let t := s.mapHandler ten (va + 65536) (f + 1) k
    if t.leafAbove (t.rootOf ten) va 3 then t
    else match t.tableEntry (t.rootOf ten) va 3 with
    | none => t
    | some (u, key) => u.writeLeaf ten key va 3 (w64 (f * 65536 + 1 + 4 + 1024))

/-- The monitor maps the resident handler in a tenant's tables and extends its attestation record. -/
def State.installHandler (s : State) (ten : Nat) : State :=
  if s.prevec = 0 ∨ ¬ (s.tenantAt ten).vf then s
  else
    let va := s.prevec.toNat % 2 ^ 55 / 65536 * 65536
    let entry := leBytes 2 1 ++ leBytes 8 va ++ leBytes 8 Config.handlerLen ++ sliceBytes Config.handlerMeas 0 32
      ++ sliceBytes Config.vendorKeyHash 0 32
    let s1 := s.mapHandler ten va Config.handlerFrame ((Config.handlerLen + 65535) / 65536)
    s1.setAttest ten ((s1.attestOf ten).extend entry)

/-- PREVEC is written by a service core; the handler is mapped at the new VA for every enabled tenant. -/
def State.writePrevec (s : State) (v : W64) : State :=
  let w := putBits v 0 2 0
  if w = s.prevec then s else (upTo 0 16).foldl State.installHandler { s with prevec := w }

/-- PREVEC_WRITE. -/
def execPrevecWrite (v : BitVec 64) (s : State) : Out := .next (s.writePrevec v)

end Sys2Proof.Machine
end

