-- ==== Sys2Proof/Machine/Fabric.lean ====
section
/-! DEFINITION. The tack fabric (02): tacks and the calendar, link replay, lock, the assignment of packets and relay,
end-to-end timers, and the re-rig. What a delivered packet does is in Machine/Remote.lean. -/

namespace Sys2Proof.Machine

open Sys2Proof

/-! ## Tacks and the calendar (02 R25 to R27; 05 R91) -/

/-- Change the fabric. -/
def State.setFabric (s : State) (f : Fabric) : State := { s with fabric := f }
/-- clk of pod time on die 0. -/
def State.podClk0 (s : State) : Nat := s.podScaled 0 / 32768 % 2 ^ 65
/-- J: the absolute tack number. (Mark: DEDUCED, unsafe, log 94) -/
def State.tack (s : State) : Nat := s.podClk0 / 8192
/-- clk within the tack. -/
def State.tackClk (s : State) : Nat := s.podClk0 % 8192
/-- n, m and C in force: the boot schedule runs the calendar of n = 64 with port numbers. (Mark: DEDUCED, unsafe, log 94) -/
def State.calendar (s : State) : Nat × Nat × Nat :=
  if s.fabric.boot then (64, s.ownNumber, 8) else (s.podN, s.modid, s.cycleC)
/-- Offset carried by a spar in a tack. (Mark: DEDUCED, unsafe, log 94) -/
def sparOffset (n c spar j : Nat) : Nat := if n = 0 then 0 else (spar * c + j % c) % n
/-- The clk of pod time at which what leaves a spar now reaches the switch: the transmit schedule is ahead by the measured
delay (R25). -/
def State.sparClk (s : State) (spar : Nat) : Nat := s.podClk0 + Tab.get s.fabric.delays 0 spar
/-- The tack in which what leaves a spar now reaches the switch. (Mark: DEDUCED, unsafe, log 94) -/
def State.sparTack (s : State) (spar : Nat) : Nat := s.sparClk spar / 8192
/-- Flits that still fit in the payload window of a spar; under the boot schedule packets start between clk 512 and 7,935.
(Mark: DEDUCED, unsafe, log 94) -/
def State.windowFlits (s : State) (spar : Nat) : Nat :=
  let t := s.sparClk spar % 8192
  if s.fabric.boot then (if t < 512 ∨ 7936 ≤ t then 0 else (7936 - t) * 67222 / 7936)
  else if t < 256 then 0 else min 67221 ((8192 - t) * 67222 / 7936)
/-- The smallest J ≥ j with J mod c = r. -/
def nextResidue (j c r : Nat) : Nat := j + (r + c - j % c) % c

/-! ## Links (R21, R22) -/

/-- Key of link state. -/
def linkKey (spar peer : Nat) : Nat := spar * 64 + peer
/-- Key of a die's allowance at a peer. -/
def allowKey (peer die : Nat) : Nat := peer * 4 + die
/-- Key of a flow towards a destination or from a source. -/
def flowKey (m ten stream : Nat) : Nat := m * 128 + ten * 8 + stream
/-- LSEQ of a flit. -/
def flitLseq (f : List Byte) : BitVec 12 := BitVec.ofNat 12 (recNat f 0 4)
/-- ASEQ of a flit. -/
def flitAseq (f : List Byte) : BitVec 12 := BitVec.ofNat 12 (recNat f 0 4 / 2 ^ 12)
/-- KIND of a flit. -/
def flitKind (f : List Byte) : Nat := recNat f 0 4 / 2 ^ 24 % 4
/-- NAK of a flit. -/
def flitNak (f : List Byte) : Bool := decide (recNat f 0 4 / 2 ^ 26 % 2 = 1)
/-- A flit: its first word, 128 bytes of payload, and the CRC. -/
def mkFlit (lseq aseq : BitVec 12) (kind : Nat) (nak : Bool) (payload : List Byte) : List Byte :=
  let b := leBytes 4 (lseq.toNat + aseq.toNat * 2 ^ 12 + kind * 2 ^ 24 + b2n nak * 2 ^ 26) ++ sliceBytes payload 0 128
  b ++ leBytes 4 (crc32c b).toNat

/-- Link state of a pair. -/
def State.linkOf (s : State) (k : Nat) : Link := Tab.get s.fabric.links Link.reset k
/-- Change the link state of a pair. -/
def State.setLink (s : State) (k : Nat) (l : Link) : State := s.setFabric { s.fabric with links := Tab.set s.fabric.links k l }

/-- A flit leaves. A packet flit takes the next link sequence and stays in the replay buffer; an idle or control flit bears
that of the packet flit before it, since it is never replayed. (Mark: DEDUCED, unsafe, log 112) -/
def State.sendFlit (s : State) (spar peer kind : Nat) (payload : List Byte) : State :=
  let k := linkKey spar peer
  let l := s.linkOf k
  let packet := decide (kind = 1 ∨ kind = 2)
  let flit := mkFlit (if packet then l.lseq else l.lseq - 1) l.aseq kind l.nak payload
  let s1 := if packet then s.setLink k { l with lseq := l.lseq + 1, replay := l.replay ++ [flit] } else s
  s1.setFabric { s1.fabric with flits := s1.fabric.flits ++ [(spar, peer, flit)] }

/-- The replay buffer of a link is sent again, with the link's present ASEQ and NAK. -/
def State.resendFlits (s : State) (spar peer : Nat) : State :=
  let k := linkKey spar peer
  let l := s.linkOf k
  let again := l.replay.map (fun q => mkFlit (flitLseq q) l.aseq (flitKind q) l.nak (sliceBytes q 4 128))
  let s1 := s.setLink k { l with replay := again, resend := false }
  s1.setFabric { s1.fabric with flits := s1.fabric.flits ++ again.map (fun q => (spar, peer, q)) }

/-- Packet flits of a spar that no ASEQ covers: the replay buffer holds 2,048. -/
def State.replayRoom (s : State) (spar : Nat) : Nat :=
  2048 - ((s.fabric.links.filter (fun e => decide (e.1 / 64 = spar))).map (fun e => e.2.replay.length)).foldl (· + ·) 0

/-- The transmitters are lit: neither dark nor in relock (R43). -/
def State.lit (s : State) : Bool := decide (s.fabric.rig < 4)

/-- A spar reaches a peer in this tack, in its payload window. -/
def State.connected (s : State) (spar peer : Nat) : Bool :=
  let (n, m, c) := s.calendar
  s.lit && decide (m ≠ peer ∧ sparOffset n c spar (s.sparTack spar) = Nat.xor m peer ∧ 0 < s.windowFlits spar)

/-- Packets may leave: pod time is locked; under the boot schedule stream 5 alone travels, locked or not (R24; 05 R91). -/
def State.trafficOn (s : State) (stream : BitVec 3) : Bool := if s.fabric.boot then stream == 5 else s.fabric.lock

/-! ## Pod time (R23, R24) -/

/-- The parent of a module in the time tree: its highest set bit cleared. -/
def parentOf (m : Nat) : Nat := if m = 0 then 0 else m - 2 ^ Nat.log2 m

/-- A completed exchange with the parent that shows an offset, in 2^-16 ns (R24). -/
def Fabric.exchange (f : Fabric) (off : Int) (now : Nat) : Fabric :=
  let good := if off.natAbs ≤ 2 * 65536 then f.good + 1 else 0
  { f with good := good, lastExch := now,
           lock := if off.natAbs > 8 * 65536 then false else if good ≥ 16 then true else f.lock }

/-- The servo steers the counter of every die. (Mark: DESIGN CHOICE, safe, log 118) -/
def State.steer (s : State) (step : Int) : State :=
  let off := fun (d : Nat) =>
    ((Tab.get s.podOff 0 d).toNat * 65536 + (Tab.get s.podFrac 0 d).toNat + (step % (2 ^ 80 : Int)).toNat) % 2 ^ 80
  { s with podOff := (upTo 0 4).map (fun d => (d, BitVec.ofNat 64 (off d / 65536))),
           podFrac := (upTo 0 4).map (fun d => (d, BitVec.ofNat 16 (off d))) }

/-- A timing flit arrives (R23): with the stamps of this module's own last one it completes an exchange, which shows the
offset from the peer and the delay of the path. The offset from the parent steers the counter, and the delay tracks the
drift of the spar. (Mark: DEDUCED, unsafe, log 119) -/
def State.timing (s : State) (spar peer left : Nat) (got : Option Nat) : State :=
  let k := linkKey spar peer
  let l := s.linkOf k
  let here := s.podScaled (spar / 2)
  let s1 := s.setLink k { l with arr := some here }
  match got, l.depOld with
  | some back, some out =>
    let there : Int := here - left
    let home : Int := back - out
    let f := s1.fabric
    let drifted := min 400 (Config.driftedDelay (Tab.get f.delays 0 spar) ((there + home) / 2))
    let s2 := s1.setFabric { f with delays := Tab.set f.delays spar drifted }
    let m := s.calendar.2.1
    if m ≠ 0 ∧ peer = parentOf m then
      let off := (there - home) / 2
      (s2.setFabric (s2.fabric.exchange off s.now)).steer (Config.servoStep off)
    else s2
  | _, _ => s1

/-! ## Allowances (R33) -/

/-- Allowance left at a peer on a die. (Mark: DESIGN CHOICE, unsafe, log 107) -/
def State.allowance (s : State) (peer die : Nat) : Nat := Tab.get s.fabric.allow s.fabric.firstGrant (allowKey peer die)

/-- The running total of a peer's control flit credits this module's allowance there. -/
def Fabric.credit (f : Fabric) (k : Nat) (total : W32) : Fabric :=
  let more := (total - Tab.get f.gotTotal 0 k).toNat
  { f with gotTotal := Tab.set f.gotTotal k total, allow := Tab.set f.allow k (Tab.get f.allow f.firstGrant k + more) }

/-- Units are returned to a peer, but for those withheld since its grant was lowered. (Mark: DESIGN CHOICE, unsafe, log 107) -/
def Fabric.giveBack (f : Fabric) (k units : Nat) : Fabric :=
  let kept := min units (Tab.get f.withheld 0 k)
  { f with withheld := Tab.set f.withheld k (Tab.get f.withheld 0 k - kept),
           retTotal := Tab.set f.retTotal k (Tab.get f.retTotal 0 k + BitVec.ofNat 32 (units - kept)) }

/-- FGRANT takes effect at a tack boundary: a raised grant returns the difference to every peer, a lowered one withholds it
from what comes back. (Mark: DESIGN CHOICE, unsafe, log 107) -/
def State.regrant (s : State) : State :=
  let f := s.fabric
  let v := f.fgrant.toNat
  let keys := (upTo 0 (4 * s.podN)).filter (fun k => k / 4 != s.modid)
  let g := keys.foldl (fun (g : Fabric) k =>
    if f.granted ≤ v then g.giveBack k (v - f.granted)
    else { g with withheld := Tab.set g.withheld k (Tab.get g.withheld 0 k + (f.granted - v)) }) f
  if v = f.granted then s else s.setFabric { g with granted := v }

/-! ## Payload windows (R22, R23, R25, R33) -/

/-- Every spar's delay is measured in loopback: half the round trip (R25). (Mark: DESIGN CHOICE, safe, log 118) -/
def State.measureAll (s : State) : State :=
  s.setFabric { s.fabric with delays := (upTo 0 8).map (fun i => (i, min 400 (Config.roundTrip i s.now / 2))) }

/-- The payload window of a spar opens: in loopback its delay is measured again; otherwise the timing flit leaves, with the
total of units returned to the peer on that die, and what was not covered is sent first. (Mark: DEDUCED, unsafe, log 119) -/
def State.openSpar (s : State) (spar : Nat) : State :=
  let (n, m, c) := s.calendar
  let k := sparOffset n c spar s.tack
  let f := s.fabric
  if n = 0 ∨ ! s.lit then s
  else if k = 0 then s.setFabric { f with delays := Tab.set f.delays spar (min 400 (Config.roundTrip spar s.now / 2)) }
  else
    let peer := Nat.xor m k
    let l := s.linkOf (linkKey spar peer)
    let left := s.podScaled (spar / 2)
    let s1 := s.setLink (linkKey spar peer) { l with dep := some left, depOld := l.dep }
    let s2 := s1.sendFlit spar peer 3 (Config.controlPayload left l.arr (Tab.get f.retTotal 0 (allowKey peer (spar / 2))))
    if l.replay.isEmpty || ! (f.lock || f.boot) then s2 else s2.resendFlits spar peer

/-- TACK_BOUNDARY: what is not covered is to be sent again (R22), a grant takes effect (R33), a relock that is not complete
at FSWTIME sets LATE (R45), and the payload windows of the tack open. -/
def execTackBoundary (s : State) : Out :=
  let f := s.fabric
  let s1 := (s.setFabric { f with
    links := Tab.mapV f.links (fun _ l => { l with resend := l.resend || ! l.replay.isEmpty }),
    late := f.late || (decide (f.rig = 5) && decide (s.tack ≥ f.fswtime.toNat / 4096)) }).regrant
  if f.opened = some s.tack then .next s1
  else
    let s2 := (upTo 0 8).foldl State.openSpar s1
    .next (s2.setFabric { s2.fabric with opened := some s.tack })

/-- LOCK_TIMEOUT: 64 calendar cycles without an exchange; the grandmaster has no parent. -/
def execLockTimeout (s : State) : Out :=
  let f := s.fabric
  if s.modid ≠ 0 ∧ s.now ≥ f.lastExch + 64 * s.cycleC * 8192 then .next (s.setFabric { f with lock := false, good := 0 })
  else .next s

/-- REFERENCE_PLL_LOCK_LOSS. -/
def execReferencePllLockLoss (s : State) : Out :=
  let f := s.fabric
  .next (s.setFabric { f with pllLock := false, lock := if s.modid = 0 ∧ s.podN ≠ 0 then false else f.lock })

/-- GRANDMASTER_RELOCK: the first after a loss marks the PLL's lock regained; one 16 tacks later sets LOCK (R24).
(Mark: DEDUCED, unsafe, log 120) -/
def execGrandmasterRelock (s : State) : Out :=
  let f := s.fabric
  if ! f.pllLock then .next (s.setFabric { f with pllLock := true, pllSince := s.now })
  else if s.modid = 0 ∧ s.podN ≠ 0 ∧ s.now ≥ f.pllSince + 16 * 8192 then .next (s.setFabric { f with lock := true })
  else .next s

/-! ## Reports of lost packets (R46, R47) -/

/-- TVAL of an asynchronous report. (Mark: DEDUCED, unsafe, log 95) -/
def lostRecord (p : Packet) (noseq : Bool) : W64 :=
  w64 ((if noseq then 0 else p.seq.toNat) + p.dst.toNat * 2 ^ 32 + p.stream.toNat * 2 ^ 38 + b2n noseq * 2 ^ 41)

/-- An operation that its issuer awaits a reply for. (Mark: DEDUCED, unsafe, log 104) -/
def awaitsReply : BodyOp → Bool
  | .ld | .amo | .redf | .ldv | .verq | .reclaim | .cont | .estate => true
  | _ => false

/-- A request that its instruction waits for: a version read, a creation or a floor raise (08 R157, R159), a contribution to
a reduction, and an operation on an estate but for a read (code 7), whose record is written before it ends (19 R367, R373,
R376). (Mark: DEDUCED, unsafe, log 55; DEDUCED, unsafe, log 104) -/
def waitsHere (b : Body) : Bool := match b.op with
  | .ldv | .stv | .reclaim | .redf => true
  | .estate => b.sel != 7
  | _ => false

/-- The first pending request of a context for a register and address. -/
def findPend (x : Ctx) (p : Packet) : Option (Nat × Pend) :=
  findAt (fun q => decide (q.reg = p.body.reg ∧ q.va = p.body.va) && q.answer.isNone) x.pends

/-- The thread that issued a packet, where its core still holds it, or holds it suspended; the launch has ended
otherwise. -/
def State.issuer (s : State) (p : Packet) : Option (Nat × W32 × Nat) :=
  let k := s.coreAt p.body.core
  let mine := fun (t : Nat) (i : W32) => decide (BitVec.ofNat 4 t = p.ten ∧ i = p.body.ctxid)
  match k.thread with
  | some (t, i, l) => if mine t i then some (t, i, l)
      else (k.slots.find? (fun z => mine z.2.ten z.2.ctxid)).map (fun z => (z.2.ten, z.2.ctxid, z.2.lcore))
  | none => (k.slots.find? (fun z => mine z.2.ten z.2.ctxid)).map (fun z => (z.2.ten, z.2.ctxid, z.2.lcore))

/-- The request of the context that a packet carries, while it waits: its index. -/
def State.pendIn (s : State) (p : Packet) : Option (Nat × Pend) :=
  if s.ctxidOf p.body.core = p.body.ctxid then findPend (s.ctxAt p.body.core p.body.ctx) p else none

/-- A cause becomes due precisely at a request of a context. (Mark: DEDUCED, unsafe, log 84) -/
def State.failPend (s : State) (p : Packet) (cause : Byte) : State :=
  let x := s.ctxAt p.body.core p.body.ctx
  match s.pendIn p with
  | some (i, q) =>
    s.setCtx p.body.core p.body.ctx { x with pends := dropNth x.pends i, due := x.due ++ [(cause, q.va, q.pc)] }
  | none => s

/-- A request waits no more. -/
def State.dropPend (s : State) (p : Packet) : State :=
  let x := s.ctxAt p.body.core p.body.ctx
  match s.pendIn p with
  | some (i, _) => s.setCtx p.body.core p.body.ctx { x with pends := dropNth x.pends i }
  | none => s

/-- The answer to a request that its context waits for at the instruction itself. -/
def State.grantPend (s : State) (p : Packet) (v : Ctx → W64) : State :=
  let x := s.ctxAt p.body.core p.body.ctx
  match s.pendIn p with
  | some (i, _) => s.setCtx p.body.core p.body.ctx { x with pends := dropNth x.pends i, grant := some (v x) }
  | none => s

/-- A report for a posted operation: to its context, to the control context where that has halted, and to the error log
where the launch has ended; while the thread is suspended it is held back. (Mark: DEDUCED, unsafe, log 84) -/
def State.postReport (s : State) (p : Packet) (cause : Byte) (v : W64) : State :=
  let c := p.body.core
  match s.issuer p with
  | some o =>
    if s.threadCore o = some c then s.reportAt c p.body.ctx { cause := cause, val := v }
    else s.asyncTo o p.body.ctx cause.toNat v
  | none =>
    if isArray c then s.setFabric { s.fabric with log := s.fabric.log ++ [leBytes 8 v.toNat] }
    else s.postAsync c p.body.ctx cause.toNat v

/-- A queued message is the one that a packet carries. -/
def OutMsg.isOf (m : OutMsg) (p : Packet) : Bool := match m.owner with
  | some o => o.2.1 == p.body.ctxid
  | none => p.body.ctxid == 0

/-- A message to another module leaves the head of its injection queue. -/
def State.popSent (s : State) (p : Packet) : State :=
  let c := p.body.core
  let k := s.coreAt c
  match k.injq with
  | m :: r => if m.sent && m.isOf p then s.setCore c { k with injq := r, rejAt := none } else s
  | [] => s

/-- What a lost posted operation leaves behind is cleared: the register of an STV keeps its value. -/
def State.clearLost (s : State) (p : Packet) : State :=
  match p.body.op with
  | .stv => s.grantPend p (fun x => x.rd p.body.reg)
  | .sendMsg => s.popSent p
  | _ => s

/-- A request of a copy is answered: with bytes' arrival handled apart, a cause keeps the lowest offset not performed. -/
def CopyCmd.answered (c : CopyCmd) (off : Nat) (cause : Option Byte) : CopyCmd :=
  let c1 := { c with out := c.out.filter (fun o => o != off) }
  match cause, c.bad with
  | none, _ => c1
  | some b, none => { c1 with bad := some (off, b) }
  | some b, some (o, q) => { c1 with bad := if off < o then some (off, b) else some (o, q) }

/-- Change the command in progress of a tag. -/
def State.updCopy (s : State) (c : Nat) (tag : BitVec 16) (f : CopyCmd → CopyCmd) : State :=
  let k := s.coreAt c
  s.setCore c { k with copies := k.copies.map (fun m => if m.tag = tag ∧ m.state = 1 then f m else m) }

/-- An operation fails with a cause and is reported to its issuer: precisely to a waiting request, else asynchronously.
Copy and graph chunks are reported by their engines. (Mark: DEDUCED, unsafe, log 84) -/
def State.reportFail (s : State) (p : Packet) (noseq : Bool) (cause : Byte) : State :=
  match p.body.op with
  | .copyChunk =>
    s.updCopy p.body.core (BitVec.ofNat 16 p.body.sel) (fun c => c.answered p.body.cmp.toNat (some cause))
  | .graphOpen | .graphObject | .graphFinish =>
    { s with walks := s.walks.map (fun w =>
        if w.core = p.body.core ∧ w.ctx = p.body.ctx then { w with err := some (.gf 8 (w64 (recNat w.desc 56 8))), waiting := none } else w) }
  | op => if awaitsReply op then s.failPend p cause else (s.clearLost p).postReport p cause (lostRecord p noseq)

/-- A lost packet is reported (R47). A reply, an acknowledgement, a marker and fabric control have no issuing context: they
go to the fabric error log. (Mark: DEDUCED, unsafe, log 84; DEDUCED, unsafe, log 111) -/
def State.reportLost (s : State) (p : Packet) (noseq : Bool) : State :=
  if p.kind = 0 ∧ p.stream ≠ 1 ∧ (p.stream ≠ 5 ∨ p.body.op = .graphOpen) then s.reportFail p noseq 0x08
  else s.setFabric { s.fabric with log := s.fabric.log ++ [leBytes 8 (lostRecord p noseq).toNat] }

/-! ## Assignment (R31, R32) and relay (R33) -/

/-- Streams of the ordered class. -/
def ordered (p : Packet) : Bool := p.stream == 0 || p.stream == 1 || p.stream == 4 || p.stream == 5

/-- Packets sent and not acknowledged that meet a condition, those waiting to be sent again among them. -/
def State.unackedOf (s : State) (f : Packet → Bool) : Nat :=
  (s.fabric.unacked.filter (fun u => f u.pkt)).length
    + (s.fabric.sendq.map (fun q => (q.2.filter (fun e => e.seqd && f e.pkt)).length)).foldl (· + ·) 0

/-- A peer through which a packet may be relayed now: the lowest eligible spar.
(Mark: DESIGN CHOICE, unsafe, log 107; DEDUCED, unsafe, log 109) -/
def State.relayVia (s : State) (p : Packet) : Option (Nat × Nat) :=
  let (n, m, c) := s.calendar
  let d := p.dst.toNat
  let ord := s.unackedOf (fun u => ordered u && u.dst == p.dst)
  if s.fabric.boot ∨ c ≤ 1 ∨ p.rly then none
  else (upTo 0 8).findSome? (fun spar =>
    let j := s.sparTack spar
    let dd := nextResidue j c (Nat.xor m d % c)
    let q := Nat.xor m (sparOffset n c spar j)
    if q ≠ d ∧ q ≠ m ∧ nextResidue (j + 1) c (Nat.xor q d % c) < dd ∧ p.len.toNat ≤ s.windowFlits spar
        ∧ p.len.toNat ≤ s.replayRoom spar ∧ p.len.toNat ≤ s.allowance q (spar / 2) ∧ (¬ ordered p ∨ ord < 1024)
    then some (q, spar) else none)

/-- A packet may leave as the fabric stands: traffic runs (R24), and in a re-rig only what has been sent before, answers
and markers do (R43). (Mark: DEDUCED, unsafe, log 121) -/
def State.openTo (s : State) (q : Queued) : Bool :=
  let p := q.pkt
  s.trafficOn p.stream
    && (decide (s.fabric.rig = 0) || (decide (s.fabric.rig ≤ 3) && (q.seqd || p.kind == 1 || p.kind == 2 || p.stream == 1)))

/-- The limits on unacknowledged packets hold (R34). (Mark: DEDUCED, unsafe, log 111) -/
def State.withinLimits (s : State) (q : Queued) : Bool :=
  let p := q.pkt
  q.seqd || decide (s.unackedOf (fun u => u.dst == p.dst && u.ten == p.ten && u.stream == p.stream) < 4096
    ∧ (! onceOnly p.body.op ∨ s.unackedOf (fun u => u.dst == p.dst && onceOnly u.body.op) < 64))

/-- A packet at the head of a die's send queue may leave. That replies and acknowledgements still leave from DRAIN to ARMED
is the model's reading of R43: without them no packet already sent, and no marker, would be acknowledged.
(Mark: DEDUCED, unsafe, log 121) -/
def State.maySend (s : State) (q : Queued) : Bool := s.openTo q && s.withinLimits q

/-- The first packet of a send queue that the fabric is open to, and the queue without it. (Mark: DEDUCED, unsafe, log 121) -/
def State.headOf (s : State) (l : List Queued) : Option (Queued × List Queued) :=
  match l with
  | [] => none
  | q :: r => if s.openTo q then some (q, r) else (s.headOf r).map (fun e => (e.1, q :: e.2))

/-- The packet's end-to-end timer: 2C tacks, 16 tacks under the boot schedule. (Mark: DEDUCED, unsafe, log 111) -/
def State.timer (s : State) : Nat := if s.fabric.boot then 131072 else 2 * s.cycleC * 8192

/-- Spars that connect this module to a peer in the current tack. -/
def State.sparsTo (s : State) (peer : Nat) : List Nat :=
  let (n, m, c) := s.calendar
  (upTo 0 8).filter (fun spar => decide (sparOffset n c spar (s.sparTack spar) = Nat.xor m peer))

/-- The spar that a packet sent direct takes: whole packets are dealt to the spars of the peer in turn (R28). -/
def State.dealtSpar (s : State) (peer : Nat) : Nat :=
  let l := s.sparsTo peer
  nth l 0 (Tab.get s.fabric.dealt 0 peer % max 1 l.length)

/-- A packet may leave on its direct slot now: its spar reaches the destination, and it fits in what remains of the payload
window and in the replay buffer (R31, R22). -/
def State.directNow (s : State) (p : Packet) : Bool :=
  let d := p.dst.toNat
  ! (s.sparsTo d).isEmpty
    && decide (p.len.toNat ≤ s.windowFlits (s.dealtSpar d) ∧ p.len.toNat ≤ s.replayRoom (s.dealtSpar d))

/-- A packet has been sent direct to a peer. -/
def State.deal (s : State) (peer : Nat) : State :=
  s.setFabric { s.fabric with dealt := Tab.set s.fabric.dealt peer (Tab.get s.fabric.dealt 0 peer + 1) }

/-- The header of a packet (R29). -/
def packetHeader (p : Packet) : Nat :=
  p.src.toNat + p.dst.toNat * 2 ^ 6 + p.ten.toNat * 2 ^ 12 + p.stream.toNat * 2 ^ 16 + b2n p.rly * 2 ^ 19
    + p.len.toNat * 2 ^ 20 + p.rsv.toNat * 2 ^ 26 + p.seq.toNat * 2 ^ 32 + p.kind.toNat * 2 ^ 64 + p.spec.toNat * 2 ^ 72

/-- The payload of a packet's flits: its header, its body, zeros to the end of the last flit. -/
def packetBytes (p : Packet) : List Byte := leBytes 16 (packetHeader p) ++ Config.bodyBytes p.body

/-- The packet in the payload of its flits. -/
def packetOf (b : List Byte) : Packet :=
  let h := recNat b 0 16
  { src := BitVec.ofNat 6 h, dst := BitVec.ofNat 6 (h / 2 ^ 6), ten := BitVec.ofNat 4 (h / 2 ^ 12), stream := BitVec.ofNat 3 (h / 2 ^ 16),
    rly := decide (h / 2 ^ 19 % 2 = 1), len := BitVec.ofNat 6 (h / 2 ^ 20), rsv := BitVec.ofNat 6 (h / 2 ^ 26),
    seq := BitVec.ofNat 32 (h / 2 ^ 32), kind := BitVec.ofNat 8 (h / 2 ^ 64), spec := BitVec.ofNat 56 (h / 2 ^ 72),
    body := Config.bodyOf (b.drop 16) }

/-- The flits of a packet leave for a peer, and the packet stands among those sent. -/
def State.sendFlits (s : State) (spar peer : Nat) (p : Packet) : State :=
  let b := packetBytes p
  let s1 := (upTo 0 p.len.toNat).foldl (fun (u : State) i =>
    u.sendFlit spar peer (if i = 0 then 1 else 2) (sliceBytes b (128 * i) 128)) s
  s1.setFabric { s1.fabric with sent := s1.fabric.sent ++ [(spar, p)] }

/-- A packet leaves on a spar for a peer: a new one takes the next sequence of its flow, and all but acknowledgements start
their timer. -/
def State.launchPacket (s : State) (q : Queued) (spar peer : Nat) (relayed : Bool) : State :=
  let f := s.fabric
  let k := flowKey q.pkt.dst.toNat q.pkt.ten.toNat q.pkt.stream.toNat
  let seq := Tab.get f.nextSeq 0 k
  let ack := q.pkt.kind == 1
  let p := { q.pkt with seq := if q.seqd || ack then q.pkt.seq else seq, rly := relayed }
  let s1 : State := if q.pkt.body.op = .chunk then
      { s with boot := { s.boot with lastSent := Tab.set s.boot.lastSent q.pkt.dst.toNat q.pkt.body.sel } }
    else s
  (s1.setFabric { f with
    nextSeq := if q.seqd || ack then f.nextSeq else Tab.set f.nextSeq k (seq + 1),
    usedFlows := if ack || f.usedFlows.contains k then f.usedFlows else f.usedFlows ++ [k],
    unacked := if ack then f.unacked
      else f.unacked ++ [{ pkt := { p with rly := false }, deadline := s.now + s.timer, expiries := q.expiries, stopped := q.quiet }]
    }).sendFlits spar peer p

/-- PACKET_ASSIGN: the head of a die's send queue is sent direct, relayed, or held; a destination that the calendar no
longer reaches is reported. -/
def execPacketAssign (die : BitVec 2) (s : State) : Out :=
  let d := die.toNat
  let n := s.calendar.1
  let put := fun (r : List Queued) => s.setFabric { s.fabric with sendq := Tab.set s.fabric.sendq d r }
  match Tab.get s.fabric.sendq [] d with
  | [] => .next s
  | h :: r0 =>
    if s.fabric.rig = 0 ∧ h.pkt.dst.toNat ≥ n then .next ((put r0).reportLost h.pkt (! h.seqd))
    else match s.headOf (h :: r0) with
      | none => .next s
      | some (q, r) =>
        if ! s.withinLimits q then .next s
        else if s.directNow q.pkt then
          .next (((put r).launchPacket q (s.dealtSpar q.pkt.dst.toNat) q.pkt.dst.toNat false).deal q.pkt.dst.toNat)
        else match s.relayVia q.pkt with
          | none => .next s
          | some (peer, spar) =>
            let k := allowKey peer (spar / 2)
            let t := (put r).launchPacket q spar peer true
            .next (t.setFabric { t.fabric with allow := Tab.set t.fabric.allow k (s.allowance peer (spar / 2) - q.pkt.len.toNat) })

/-- RELAY_FORWARD: a packet held here as relay leaves on its direct slot; its units go back to its source once its last
flit is covered on that spar (R33). (Mark: DEDUCED, unsafe, log 109) -/
def execRelayForward (die : BitVec 2) (idx : Nat) (s : State) : Out :=
  match (indexed 0 s.fabric.relayed).find? (fun e => decide (e.1 = idx ∧ e.2.1 = die.toNat)) with
  | none => .next s
  | some (i, d, p) =>
    if p.dst.toNat < s.calendar.1 ∧ s.directNow p ∧ s.fabric.lock ∧ s.lit then
      let spar := s.dealtSpar p.dst.toNat
      let t := ((s.setFabric { s.fabric with relayed := dropNth s.fabric.relayed i }).sendFlits spar p.dst.toNat
        { p with rly := false }).deal p.dst.toNat
      let k := linkKey spar p.dst.toNat
      .next (t.setFabric { t.fabric with
        returns := t.fabric.returns ++ [(k, (t.linkOf k).lseq - 1, allowKey p.src.toNat d, p.len.toNat)] })
    else .next s

/-! ## Timers (R34) -/

/-- The record of an undeliverable packet (04 R83, TYPE 0x04). -/
def State.undeliverable (s : State) (p : Packet) : State :=
  s.mbPut 0 0 4 (leBytes 4 p.seq.toNat ++ leBytes 1 p.src.toNat ++ leBytes 1 p.dst.toNat ++ leBytes 1 p.ten.toNat
    ++ leBytes 1 p.stream.toNat ++ leBytes 4 p.body.ctxid.toNat ++ leBytes 2 p.body.core ++ leBytes 1 8 ++ leBytes 1 0
    ++ leBytes 8 (s.podTime 0).toNat ++ leBytes 16 (packetHeader p))

/-- END_TO_END_TIMER: an expired packet is queued again; after the eighth expiry it is undeliverable.
(Mark: DEDUCED, unsafe, log 111) -/
def execEndToEndTimer (idx : Nat) (s : State) : Out :=
  match (indexed 0 s.fabric.unacked).find? (fun e => e.1 == idx) with
  | none => .next s
  | some (i, u) =>
    if u.stopped || decide (s.now < u.deadline) then .next s
    else
      let s1 := s.setFabric { s.fabric with unacked := dropNth s.fabric.unacked i }
      let d := s1.dieTo u.pkt.dst.toNat
      let q := Tab.get s1.fabric.sendq [] d
      if u.expiries + 1 < 8 then
        let again : Queued := { pkt := u.pkt, seqd := true, expiries := u.expiries + 1 }
        .next (s1.setFabric { s1.fabric with sendq := Tab.set s1.fabric.sendq d (again :: q) })
      else
        let s2 := (s1.undeliverable u.pkt).reportLost u.pkt false
        if ordered u.pkt then
          let gone : Packet := { u.pkt with kind := 4, body := { } }
          let notice : Queued := { pkt := gone, seqd := true, expiries := 0 }
          .next (s2.setFabric { s2.fabric with sendq := Tab.set s2.fabric.sendq d (Tab.get s2.fabric.sendq [] d ++ [notice]) })
        else .next s2

/-! ## Re-rig (R43 to R45) -/

/-- A command the table does not allow is ignored and sets FSTAT.ERR. -/
def State.rigErr (s : State) : State := s.setFabric { s.fabric with err := true }

/-- CMD 1: a drain marker goes out as the next sequence of every flow used under this calendar. -/
def State.beginDrain (s : State) : State :=
  if s.fabric.rig ≠ 0 then s.rigErr
  else
    let used := s.fabric.usedFlows
    let s1 := s.setFabric { s.fabric with rig := if used.isEmpty then 2 else 1, markers := used, drains := s.fabric.drains + 1 }
    used.foldl (fun u k =>
      let b : Body := { sel := s1.fabric.drains }
      u.sendPacket { src := BitVec.ofNat 6 u.ownNumber, dst := BitVec.ofNat 6 (k / 128), ten := BitVec.ofNat 4 (k / 8),
                     stream := BitVec.ofNat 3 k, kind := 2, body := b }) s1

/-- CMD 2. -/
def State.armRig (s : State) : State :=
  let f := s.fabric
  if f.rig = 2 ∧ f.fswtime.toNat / 4096 ≥ f.fdarkt.toNat / 4096 + 6 ∧ f.fdarkt.toNat / 4096 > s.tack then
    s.setFabric { f with rig := 3 }
  else s.rigErr

/-- CMD 3: markers that have not been sent are dropped. -/
def State.abandonRig (s : State) : State :=
  let f := s.fabric
  if 1 ≤ f.rig ∧ f.rig ≤ 3 then
    s.setFabric { f with rig := 0, markers := [],
                         sendq := Tab.mapV f.sendq (fun _ q => q.filter (fun e => e.seqd || e.pkt.kind != 2)) }
  else s.rigErr

/-- FCTL (R40). -/
def State.fctl (s : State) (cmd : Nat) : State :=
  match cmd with
  | 1 => s.beginDrain
  | 2 => s.armRig
  | 3 => s.abandonRig
  | _ => s

/-- BEGIN_DRAIN. -/
def execBeginDrain (s : State) : Out := .next s.beginDrain
/-- ARM. -/
def execArm (s : State) : Out := .next s.armRig
/-- ABANDON. -/
def execAbandon (s : State) : Out := .next s.abandonRig

/-- GO_DARK: at the boundary of tack FDARKT.TACK. (Mark: DEDUCED, unsafe, log 122) -/
def execGoDark (s : State) : Out :=
  if s.fabric.rig = 3 ∧ s.tack ≥ s.fabric.fdarkt.toNat / 4096 ∧ s.tackClk = 0 then .next (s.setFabric { s.fabric with rig := 4 })
  else .next s

/-- RELOCK_START: at the end of the dark tack; relock takes 40,000 clk. (Mark: DEDUCED, unsafe, log 122) -/
def execRelockStart (s : State) : Out :=
  if s.fabric.rig = 4 ∧ s.tack ≥ s.fabric.fdarkt.toNat / 4096 + 1 ∧ s.tackClk = 0 then
    .next (s.setFabric { s.fabric with rig := 5, relockAt := some (s.now + 40000) })
  else .next s

/-- RELOCK_COMPLETE: every spar has been calibrated in loopback, its delay measured (R25). -/
def execRelockComplete (s : State) : Out :=
  match s.fabric.relockAt with
  | some t =>
    if s.fabric.rig = 5 ∧ s.now ≥ t then .next (s.setFabric { s.fabric with rig := 6, relockAt := none }).measureAll else .next s
  | none => .next s

/-- CALENDAR_SWITCH: at a tack boundary FNEXT goes to FPOD, EPOCH counts, unreachable allowances are discarded, and packets
whose destination is no longer reachable are reported. Module 0 of the new calendar sets LOCK. A peer stays reachable, and
keeps its allowance, where the new calendar reaches its number, and a peer new to the calendar begins with the grant in
force. (Mark: DESIGN CHOICE, unsafe, log 107; DEDUCED, unsafe, log 122; DESIGN CHOICE, unsafe, log 123) -/
def execCalendarSwitch (s : State) : Out :=
  let f := s.fabric
  if f.rig ≠ 6 ∨ s.tack < f.fswtime.toNat / 4096 ∨ s.tackClk ≠ 0 then .next s
  else
    let m := bitsAt f.fnext 0 6
    let nlog := bitsAt f.fnext 8 3
    let n := if nlog = 0 then 0 else 2 ^ nlog
    let fpod := putBits (putBits (putBits f.fpod 0 6 m) 8 3 nlog) 16 16 (bitsAt f.fpod 16 16 + 1)
    let stays := fun (k : Nat) => decide (k / 4 < n ∧ k / 4 < s.podN)
    let keep := fun {α : Type} (t : Tab α) => t.filter (fun e => stays e.1)
    let lost := f.sendq.flatMap (fun q => q.2.filter (fun e => decide (e.pkt.dst.toNat ≥ n)))
    let held := ((upTo 0 (4 * min n s.podN)).map (fun k => (k, Tab.get f.allow f.firstGrant k)))
    let s1 := s.setFabric { f with
      fpod := fpod, rig := 0, boot := false, usedFlows := [], markers := [],
      lock := if m = 0 ∧ n ≠ 0 then true else f.lock,
      allow := held, firstGrant := f.granted, gotTotal := keep f.gotTotal, retTotal := keep f.retTotal,
      withheld := keep f.withheld, returns := f.returns.filter (fun e => stays e.2.2.1),
      sendq := Tab.mapV f.sendq (fun _ q => q.filter (fun e => decide (e.pkt.dst.toNat < n))) }
    .next (lost.foldl (fun u q => u.reportLost q.pkt (! q.seqd)) s1)

end Sys2Proof.Machine
end

