-- ==== Sys2Proof/Machine/Power.lean ====
section
/-! DEFINITION. Power states (01 R12 to R18) and the resets that concern the whole module (R19). -/

namespace Sys2Proof.Machine

open Sys2Proof

/-! ## Selection (R14, R16) -/

/-- Exit latency in µs of A2, A3 and A4. -/
def exitUs (a : Nat) : Nat := match a with
  | 2 => 20 | 3 => 200 | 4 => 5000 | _ => 0

/-- E: the least tolerance of DLTOL and of the enabled tenants. -/
def State.tolerance (s : State) : Nat :=
  ((upTo 0 16).filter (fun t => (s.tenantAt t).vf)).foldl (fun e t => min e (s.tenantAt t).tltol.toNat) s.power.dltol.toNat

/-- PSTATE.TGT: the deepest state the tolerance allows; A4 only outside a pod. -/
def State.powerTarget (s : State) : Nat :=
  let e := s.tolerance
  if e ≥ 5000 ∧ s.podN = 0 then 4 else if e ≥ 200 then 3 else if e ≥ 20 then 2 else 0

/-- The module runs: it is in A0 and neither leaves it nor wakes. (Mark: DEDUCED, unsafe, log 29) -/
def State.awake (s : State) : Bool := decide (s.power.cur < 2) && s.power.waking.isNone

/-- A wake event: an entry is cancelled, and the module returns to A0 within the exit latency. -/
def State.wake (s : State) : State :=
  let p := s.power
  if p.waking.isSome then s
  else
    let a := match p.entering with
      | some a => a
      | none => p.cur
    if a < 2 then s
    else { s with power := { p with entering := none, waking := some (s.now + exitUs a * 2000) } }

/-- The tolerances have changed: the next selection counts its dwell from now, and a tolerance below the current
state's exit latency wakes the module. (Mark: DEDUCED, unsafe, log 106) -/
def State.reselect (s : State) : State :=
  let s1 := { s with power := { s.power with dwell := s.now } }
  let a := match s.power.entering with
    | some a => a
    | none => s.power.cur
  if 2 ≤ a ∧ s1.tolerance < exitUs a then s1.wake else s1

/-- DLTOL_WRITE: bits [31:24] are reserved; as every write of a BAR, a wake event.
(Mark: DESIGN CHOICE, safe, log 91; DEDUCED, unsafe, log 106) -/
def execDltolWrite (v : BitVec 32) (s : State) : Out :=
  let s1 := s.wake
  .next { s1 with power := { s1.power with dltol := v.setWidth 24 } }.reselect

/-- TLTOL_WRITE: as every write of a BAR, a wake event. (Mark: DEDUCED, unsafe, log 106) -/
def execTltolWrite (t : BitVec 4) (v : BitVec 32) (s : State) : Out :=
  .next (s.wake.setTenant t.toNat { s.tenantAt t.toNat with tltol := v.setWidth 24 }).reselect

/-! ## Gating and sleep (R13, R16, R17) -/

/-- The cluster has no live context and no engine command in flight. -/
def State.clusterIdle (s : State) (cl : Nat) : Bool :=
  (upTo (cl * 16) 16).all (fun c =>
    let k := s.coreAt c
    ! k.anyLive && k.vq.isEmpty && k.mqueue.isEmpty && k.copies.all (fun m => m.state != 1))
  && (s.clusterAt cl).run.isNone && (s.clusterAt cl).wbload.isNone

/-- The last work of a cluster may have ended now. -/
def State.ended (s : State) (cl : Nat) : State := s.setCluster cl { s.clusterAt cl with busyAt := s.now }

/-- CLUSTER_CLOCK_GATE. -/
def execClusterClockGate (cluster : BitVec 8) (s : State) : Out :=
  let cl := cluster.toNat
  let k := s.clusterAt cl
  if s.clusterIdle cl && k.gatedAt.isNone && decide (s.now ≥ k.busyAt + 64) then
    .next (s.setCluster cl { k with gatedAt := some s.now })
  else .next s

/-- A1_EXIT: the cluster has received work. -/
def execA1Exit (cluster : BitVec 8) (s : State) : Out :=
  let cl := cluster.toNat
  if (s.clusterAt cl).gatedAt.isSome && ! s.clusterIdle cl then
    .next (s.setCluster cl { s.clusterAt cl with gatedAt := none })
  else .next s

/-- Every cluster has been in A1, with nothing pending, for a dwell of the state's exit latency.
(Mark: DEDUCED, unsafe, log 29) -/
def State.maySleep (s : State) (a : Nat) : Bool :=
  (upTo 0 256).all (fun c => s.clusterIdle c && (match (s.clusterAt c).gatedAt with
    | some t => decide (s.now ≥ max t s.power.dwell + exitUs a * 2000)
    | none => false))
  && (upTo 0 16).all (fun t => (s.tenantAt t).pages.all (fun p => p.2.queue.isEmpty))
  && s.launches.all (fun l => decide (l.state = .suspended))
  && s.fabric.unacked.isEmpty && s.fabric.sendq.all (fun q => q.2.isEmpty) && s.fabric.staged.isEmpty
  && s.fabric.rx.all (fun r => r.2.held.isEmpty) && s.parkedRemote.isEmpty && s.waiters.all (fun w => w.remote.isNone)

/-- SLEEP_ENTRY: the module begins to enter the deepest qualifying state, and at the next such event is in it.
(Mark: DEDUCED, unsafe, log 29) -/
def execSleepEntry (s : State) : Out :=
  let p := s.power
  match p.entering with
  | some a => .next { s with power := { p with entering := none, cur := a, dwell := s.now } }
  | none =>
    let a := s.powerTarget
    if p.waking.isNone && decide (p.cur < a) && s.maySleep a then .next { s with power := { p with entering := some a } }
    else .next s

/-- WAKE_EXIT_COMPLETE. (Mark: DEDUCED, unsafe, log 29) -/
def execWakeExitComplete (s : State) : Out :=
  match s.power.waking with
  | some _ => .next { s with power := { s.power with cur := 0, waking := none, entering := none, dwell := s.now } }
  | none => .next s

/-- POWER_LIMITER_INTERVAL: `watts` is the power measured; the limiter is active above PLIM (R12). Idle clk change no
result. -/
def execPowerLimiterInterval (watts : Nat) (s : State) : Out :=
  .next { s with power := { s.power with lim := decide (watts > s.power.plim) } }

/-! ## Resets (R13, R19; 05 R90) -/

/-- POWER_REMOVAL: A5. -/
def execPowerRemoval (s : State) : Out := .next { s with power := { s.power with off := true } }

end Sys2Proof.Machine
end

