-- ==== Sys2Proof/Machine/Launch.lean ====
section
/-! DEFINITION. Launch records (06 R96 to R98), the layout of threads on cores (R101, R102), and how a launch enters
Halyard (R103, R109; 04 R71, R388). -/

namespace Sys2Proof.Machine

open Sys2Proof

/-! ## Records -/

/-- PRIO of a record. -/
def Launch.recPrio (l : Launch) : Nat := recNat l.record 0 8 / 16 % 8
/-- MW. -/
def Launch.mw (l : Launch) : Nat := recNat l.record 0 8 / 2 ^ 16 % 32
/-- MH. -/
def Launch.mh (l : Launch) : Nat := recNat l.record 0 8 / 2 ^ 24 % 32
/-- ENTRY. -/
def Launch.entry (l : Launch) : W64 := w64 (recNat l.record 8 8)
/-- PARTW. -/
def Launch.partw (l : Launch) : W64 := w64 (recNat l.record 24 8)
/-- MODMASK. -/
def Launch.modmask (l : Launch) : W64 := w64 (recNat l.record 32 8)
/-- OVFBASE. -/
def Launch.ovfbase (l : Launch) : W64 := w64 (recNat l.record 40 8)
/-- SPILLB. -/
def Launch.spillb (l : Launch) : W64 := w64 (recNat l.record 48 8)
/-- ARG i. -/
def Launch.arg (l : Launch) (i : Nat) : W64 := w64 (recNat l.record (128 + 8 * i) 8)

/-- How many cores a DOM unit has; a pod holds up to 64 modules (00 R1). -/
def unitCores (dom : Nat) : Nat := match dom with
  | 0 => 1 | 1 => 2 | 2 => 8 | 3 => 16 | 4 => 256 | 5 => 1024 | 6 => 4096 | _ => 262144

/-- The least scope that covers a domain. -/
def leastScope (dom : Nat) : Nat := match dom with
  | 0 => 0 | 1 => 1 | 2 => 1 | 3 => 1 | 7 => 3 | _ => 2

/-- How many bits of a word are set. -/
def popCount {w : Nat} (v : BitVec w) : Nat := ((upTo 0 w).filter (fun i => v.getLsbD i)).length

/-- A CTRSEL code is reserved (R117). -/
def badCode (c : Nat) : Bool := decide ((0x0C ≤ c ∧ c ≤ 0x0F) ∨ 0x20 ≤ c)

/-- A level descriptor breaks a rule of R98 that concerns itself or the level inside it. -/
def Launch.badLevel (l : Launch) (i : Nat) : Bool :=
  let inner := decide (i + 1 < l.nlev)
  decide (l.level i / 2 ^ 20 % 16 ≠ 0 ∨ l.level i / 2 ^ 29 ≠ 0 ∨ l.count i = 0)
  || (inner && decide (l.dom i ≤ l.dom (i + 1)))
  || (inner && decide (l.count (i + 1) > unitCores (l.dom i) / unitCores (l.dom (i + 1))))
  || decide (l.dom i = 6 ∧ l.countProd 0 (i + 1) ≠ popCount l.modmask)
  || decide (l.scope i < leastScope (l.dom i))
  || (inner && decide (l.scope i < l.scope (i + 1)))

/-- The record is malformed (R98; PARTW under 07 R121). (Mark: DEDUCED, unsafe, log 20) -/
def Launch.malformed (l : Launch) : Bool :=
  let w := recNat l.record 0 8
  decide (w / 2 ^ 7 % 2 ≠ 0 ∨ w / 2 ^ 12 % 16 ≠ 0 ∨ w / 2 ^ 21 % 8 ≠ 0 ∨ w / 2 ^ 29 ≠ 0)
  || decide (l.nlev = 0 ∨ l.nlev > 8 ∨ l.vwt = 0 ∨ l.mw = 0 ∨ l.mh = 0)
  || decide (l.entry.toNat % 4 ≠ 0 ∨ l.ovfbase.toNat % 65536 ≠ 0 ∨ l.spillb.toNat % 65536 ≠ 0)
  || decide (l.partw.toNat / 32 ≠ 0 ∨ bitsAt l.partw 2 3 > 4)
  || (upTo l.nlev (8 - l.nlev)).any (fun i => l.level i != 0)
  || decide (l.dom (l.nlev - 1) ≠ 0)
  || (upTo 0 l.nlev).any l.badLevel
  || decide (l.dom 0 = 7 ∧ l.count 0 ≠ 1)
  || decide (l.dom 0 ≤ 5 ∧ l.modmask ≠ 0)
  || (upTo 56 8).any (fun i => badCode (recNat l.record i 1))

/-! ## Placement -/

/-- The clusters of a module in placement order: die, quadrant, y, x (R102). -/
def placementOrder : List Nat :=
  (upTo 0 256).map (fun i =>
    i / 64 * 64 + ((i / 16 % 4) / 2 * 4 + i / 4 % 4) * 8 + (i / 16 % 4) % 2 * 4 + i % 4)

/-- The sub-mesh at an origin, in placement order. -/
def meshAt (o mw mh : Nat) : List Nat :=
  placementOrder.filter (fun c => decide (gridX o ≤ gridX c ∧ gridX c < gridX o + mw ∧ gridY o ≤ gridY c
    ∧ gridY c < gridY o + mh))

/-- The modules that take part, ascending. (Mark: DESIGN CHOICE, unsafe, log 25) -/
def State.modsOf (s : State) (l : Launch) : List Nat :=
  if l.modmask = 0 then [s.modid] else (upTo 0 64).filter (fun m => bitOn l.modmask m)

/-- A request of a module comes from the launch that a CTXID names here: only the modules of that launch share it with this
one (06 R100). (Mark: DESIGN CHOICE, unsafe, log 97) -/
def State.spans (s : State) (ten : Nat) (ctxid : W32) (m : Nat) : Bool :=
  m == s.ownNumber || (match s.launchBy ten ctxid with
    | some l => (s.modsOf l).contains m
    | none => false)

/-- The alignment of the origin and of both dimensions that DOM[0] asks for (R101). -/
def Launch.align (l : Launch) : Nat := if l.dom 0 = 4 then 4 else if l.dom 0 ≥ 5 then 8 else 1

/-- An origin fits in the tenant's rectangle and meets the alignments. -/
def State.originFits (s : State) (l : Launch) (o : Nat) : Bool :=
  let r := (s.tenantAt l.ten).trect
  let a := l.align
  bitOn r 16
    && decide (bitsAt r 0 4 ≤ gridX o ∧ gridX o + l.mw ≤ bitsAt r 8 4 + 1 ∧ bitsAt r 4 4 ≤ gridY o
      ∧ gridY o + l.mh ≤ bitsAt r 12 4 + 1)
    && decide (gridX o % a = 0 ∧ gridY o % a = 0 ∧ l.mw % a = 0 ∧ l.mh % a = 0)

/-- The DOM unit of a core of a module. -/
def unitOf (dom : Nat) (p : Nat × Nat) : Nat :=
  let (m, c) := p
  match dom with
  | 0 => m * 4096 + c
  | 1 => m * 4096 + c / 2
  | 2 => m * 4096 + c / 8
  | 3 => m * 4096 + c / 16
  | 4 => m * 4096 + quadrantOf (c / 16)
  | 5 => m * 4096 + c / 1024
  | 6 => m
  | _ => 0

/-- Threads of one group at a level. -/
def Launch.groupSize (l : Launch) (i : Nat) : Nat := l.countProd (i + 1) (l.nlev - i - 1)

/-- The cursor of R102 over the cores in placement order: `prev` is the core before, `lc` the next thread, `firsts` the
unit of each level's group. Answers the threads with their cores, or none where the launch is rejected. -/
def Launch.cursor (l : Launch) (cores : List (Nat × Nat)) (prev : Option (Nat × Nat)) (lc : Nat) (firsts : List Nat) :
    Option (List (Nat × Nat × Nat)) :=
  if lc = l.threads then some []
  else match cores with
    | [] => none
    | p :: r =>
      let first := fun (i : Nat) => match prev with
        | none => true
        | some q => unitOf (l.dom i) q != unitOf (l.dom i) p
      let starts := fun (i : Nat) => decide (lc % l.groupSize i = 0)
      if (upTo 0 l.nlev).any (fun i => starts i && ! first i) then l.cursor r (some p) lc firsts
      else
        let f := (upTo 0 l.nlev).map (fun i => if starts i then unitOf (l.dom i) p else nth firsts 0 i)
        if (upTo 0 l.nlev).any (fun i => unitOf (l.dom i) p != nth f 0 i) then none
        else (l.cursor r (some p) (lc + 1) f).map (fun t => (lc, p.1, p.2) :: t)

/-- Where the threads of a launch lie at an origin: (LCORE, module, core). (Mark: DESIGN CHOICE, unsafe, log 25) -/
def State.layout (s : State) (l : Launch) (o : Nat) : Option (List (Nat × Nat × Nat)) :=
  let cs := (meshAt o l.mw l.mh).flatMap (fun c => upTo (c * 16) 16)
  l.cursor ((s.modsOf l).flatMap (fun m => cs.map (fun c => (m, c)))) none 0 []

/-- The first origin that fits, whatever is occupied. -/
def State.firstFit (s : State) (l : Launch) : Option Nat := (upTo 0 256).find? (s.originFits l)

/-- The launch is rejected at dispatch (R102). -/
def State.rejects (s : State) (l : Launch) : Bool :=
  (s.modsOf l).any (fun m => m != s.modid && ! s.reachable m)
  || (match s.firstFit l with
    | none => true
    | some o => (s.layout l o).isNone)

/-- The clusters that a launch holds on this module: none where it has no part in it. (Mark: DESIGN CHOICE, unsafe, log 25) -/
def State.meshHere (s : State) (l : Launch) (o : Nat) : List Nat := if (s.modsOf l).contains s.modid then meshAt o l.mw l.mh else []

/-- The clusters of this module that a launch holds. -/
def State.clustersOf (s : State) (l : Launch) : List Nat :=
  match l.state with
  | .placed => s.meshHere l l.origin
  | .victim => s.meshHere l l.origin
  | _ => []

/-- The clusters of this module that are held or halted. -/
def State.occupied (s : State) (c : Nat) : Bool :=
  (s.clusterAt c).halted || s.launches.any (fun l => (s.clustersOf l).contains c)

/-! ## Rank (R103) -/

/-- clk in one ageing interval. (Mark: DEDUCED, unsafe, log 110) -/
def State.age (s : State) : Nat := s.ageus.toNat * 2000

/-- The effective level of a head of a priority that has been dispatchable since a clk. (Mark: DEDUCED, unsafe, log 110) -/
def State.level (s : State) (prio since : Nat) : Nat := min 7 (prio + (s.now - since) / s.age)

/-- Insert into a list by ascending `since`; equal ones keep their order. -/
def insertSince (a : Launch) (l : List Launch) : List Launch :=
  match l with
  | [] => [a]
  | b :: r => if a.since < b.since then a :: b :: r else b :: insertSince a r

/-- The order in which tenants are served at a level: the one served last while its share lasts, then ascending from
the next. -/
def State.tenantOrder (s : State) (lv : Nat) : List Nat :=
  match Tab.find s.lastTen lv with
  | none => upTo 0 16
  | some v =>
    let last := v % 16
    let after := (upTo (last + 1) 16).map (fun t => t % 16)
    if v / 16 < bitsAt (s.tenantAt last).hwt 0 4 then last :: after else after

/-! ## Entering Halyard -/

/-- A CTXID that no live launch holds and no kill still names (R100; 03 R62): the first from `i`. -/
def State.freeCtx (s : State) (i : W32) (n : Nat) : W32 :=
  match n with
  | 0 => i
  | k + 1 =>
    if i = 0 || s.launches.any (fun l => l.ctxid == i) || s.kills.any (fun l => l.ctxid == i) then s.freeCtx (i + 1) k
    else i

/-- The tenant's queued count (04 R388). -/
def State.queuedCount (s : State) (t : Nat) : Nat :=
  ((s.tenantAt t).pages.map (fun p => p.2.queue.length)).foldl (· + ·) 0
  + (s.counters.map (fun c => (c.2.trigs.filter (fun g => decide (g.ten = t ∧ g.action = 1))).length)).foldl (· + ·) 0
  + (s.launches.filter (fun l => decide (l.ten = t ∧ 16 ≤ l.queue ∧ l.state = .queued) && l.placedAt.isNone)).length

/-- The queued count equals DEPTH. -/
def State.depthFull (s : State) (t : Nat) : Bool := decide (s.queuedCount t ≥ bitsAt (s.tenantAt t).tsubcfg 0 9)

/-- A launch enters Halyard: STATUS 0 with the new CTXID, 3 MALFORMED or 4 REJECTED. -/
def State.enterLaunch (s : State) (ten : Nat) (recVa : W64) (record : List Byte) (prio : Nat) (sub : Option FromSub)
    (queue since : Nat) : Nat × W32 × State :=
  let id := s.freeCtx s.nextCtx (s.launches.length + s.kills.length + 2)
  let l : Launch :=
    { ten := ten, ctxid := id, record := record, recVa := recVa, prio := prio, sub := sub, queue := queue,
      state := .queued, since := since, origin := 0, placedAt := none, ended := none,
      faulted := false, held := false, saved := [], evicted := [], records := [], finished := [] }
  if l.malformed then (3, 0, s)
  else if s.rejects l then (4, 0, s)
  else (0, id, { s with launches := s.launches ++ [l], nextCtx := id + 1 })

end Sys2Proof.Machine
end

