-- ==== Sys2Proof/Machine/Counters.lean ====
section
/-! DEFINITION. Event counters with their triggers, gates and waits (04 R75 to R79; 19 R370), and the submission pages'
heads, MSI-X messages and completion records that they drive (04 R68, R71 to R74). -/

namespace Sys2Proof.Machine

open Sys2Proof

/-! ## MSI-X and TERR (R68) -/

/-- An entry of a tenant's MSI-X table. -/
def Tenant.msixAt (t : Tenant) (v : Nat) : Msix := Tab.get t.msix Msix.reset v

/-- Send a vector of a tenant's function, or set its pending bit while it is masked. -/
def State.msix (s : State) (t v : Nat) : State :=
  let n := s.tenantAt t
  let e := n.msixAt v
  if e.masked then s.setTenant t { n with msix := Tab.set n.msix v { e with pending := true } }
  else
    let s1 := s.setTenant t { n with msix := Tab.set n.msix v { e with pending := false } }
    { s1 with msixOut := s1.msixOut ++ [(t, v, e.addr, e.data)] }

/-- Set a TERR bit (0 POSTED, 1 CFG, 2 ECIDX, 3 ECSIZE): a bit that goes from 0 to 1 sends vector 0. -/
def State.setTerr (s : State) (t i : Nat) : State :=
  let n := s.tenantAt t
  if bitOn n.terr i then s else (s.setTenant t { n with terr := putBits n.terr i 1 1 }).msix t 0

/-- MSIX_VECTOR_UNMASK: the mask is cleared, and a pending message is sent; a write of a BAR is a wake event (01 R17). -/
def execMsixVectorUnmask (t : BitVec 4) (vec : BitVec 5) (s : State) : Out :=
  let n := s.tenantAt t.toNat
  let e := n.msixAt vec.toNat
  let s1 := s.setTenant t.toNat { n with msix := Tab.set n.msix vec.toNat { e with masked := false } }
  if ! n.vf || decide (vec.toNat ≥ 17) then .next s
  else if e.pending then .next (s1.msix t.toNat vec.toNat).wake else .next s1.wake

/-! ## The head of a submission page (R70, R71) -/

/-- KIND of a submission. -/
def Subm.kind (b : Subm) : Nat := recNat b.bytes 0 8 % 16
/-- A bit of a submission's first word. -/
def Subm.flag (b : Subm) (i : Nat) : Bool := decide (recNat b.bytes 0 8 / 2 ^ i % 2 = 1)
/-- PRIO. -/
def Subm.prio (b : Subm) : Nat := recNat b.bytes 0 8 / 16 % 8
/-- GIDX. -/
def Subm.gidx (b : Subm) : Nat := recNat b.bytes 0 8 / 2 ^ 16 % 4096
/-- A word of a submission. -/
def Subm.word (b : Subm) (i : Nat) : W64 := w64 (recNat b.bytes (8 * i) 8)

/-- The global index of a tenant's counter j, if it owns it. -/
def State.counterOf (s : State) (t j : Nat) : Option Nat :=
  let r := (s.tenantAt t).tecr
  if t < 16 ∧ j < tecrCount r then some (tecrBase r + j) else none

/-- The GATE condition of a submission; an index the tenant does not own gates nothing (it completes BADINDEX). -/
def State.gateOpen (s : State) (t : Nat) (b : Subm) : Bool :=
  ! b.flag 10 || (match s.counterOf t b.gidx with
    | some i => decide ((s.counterAt i).val.toNat ≥ (b.word 2).toNat)
    | none => true)

/-- A page's head becomes dispatchable once its GATE and ORD conditions hold, and stays so. -/
def State.refreshPage (s : State) (t : Nat) (p : Page) : Page :=
  match p.since, p.queue with
  | none, b :: _ => if s.gateOpen t b && (! b.flag 7 || p.running.isEmpty) then { p with since := some s.now } else p
  | _, _ => p

/-- Evaluate the gates of every waiting head of a tenant. -/
def State.refreshPages (s : State) (t : Nat) : State :=
  let n := s.tenantAt t
  s.setTenant t { n with pages := Tab.mapV n.pages (fun _ p => s.refreshPage t p) }

/-! ## Completion (R72 to R74) -/

/-- Entries of a completion ring: 2^LOG2N. -/
def Page.ring (p : Page) : Nat := 2 ^ bitsAt p.cqcfg 0 4

/-- A submission completes: its place is given back where CPL = 0; else the record is written as two posted writes,
CQTAIL increments, and INT sends the page's vector. -/
def State.complete (s : State) (t page : Nat) (seq : W32) (tag : W64) (cpl int : Bool) (status cause : Nat) (ctxid : W32) :
    State :=
  let n := s.tenantAt t
  let p := n.pageAt page
  if ! p.running.any (fun b => b.seq == seq) then s
  else
    let p1 := { p with running := p.running.filter (fun b => b.seq != seq) }
    if ! cpl then
      (s.setTenant t (n.setPage page { p1 with out := p1.out - 1 })).refreshPages t
    else
      let q := p.cqtail.toNat
      let a := hostKey ((p.cqbase.toNat + 32 * (q % p.ring)) % 2 ^ 64)
      let phase := 1 - q / p.ring % 2
      let s1 := (s.pokeN a (leBytes 8 tag.toNat ++ leBytes 1 status ++ leBytes 1 cause ++ leBytes 2 0
        ++ leBytes 4 ctxid.toNat ++ leBytes 8 (s.podTime 0).toNat)).pokeN (a + 24)
          (leBytes 4 seq.toNat ++ leBytes 4 (phase * 2 ^ 31))
      let s2 := s1.setTenant t ((s1.tenantAt t).setPage page { p1 with cqtail := p1.cqtail + 1 })
      (if int then s2.msix t (1 + page) else s2).refreshPages t

/-! ## Records that Halyard reads (R70, R79) -/

/-- An aligned 8-byte word of a tenant's space as an agent of the module reads it: paged memory (a versioned word at
its CUR), cluster memories and pools inside the tenant's rectangle. -/
def State.agentWord (s : State) (ten : Nat) (va : W64) : Option (List Byte) :=
  let node := bitsAt va 56 8
  let sp := bitsAt va 48 8
  if node ≠ 0 ∧ ¬ (node = 64 + s.modid) then none
  else if sp < 0x80 then
    match s.walk ten va 1 false false with
    | .leaf t =>
      if pteVD t.pte ≠ 0 then
        some (s.verPlain (verHeader (pteFrame t.pte) (bitsAt va 0 16)) (vdDepth (pteVD t.pte)))
      else some (s.peekN (t.pa va) 8)
    | _ => none
  else if sp = 0xFD then
    if bitsAt va 22 18 = 0 && s.inRect ten (bitsAt va 40 8) then some (s.peekN (cmemKey (bitsAt va 40 8) (bitsAt va 0 22)) 8)
    else none
  else if sp = 0xFE then
    let c := bitsAt va 36 12
    if bitsAt va 18 18 = 0 && s.inRect ten (clusterOf c) && ((s.coreAt c).poolCheck (bitsAt va 0 18) 8).isNone then
      some (s.peekN (poolKey c (bitsAt va 0 18)) 8)
    else none
  else none

/-- `n` words of a record. -/
def State.agentWords (s : State) (ten : Nat) (va : W64) (n : Nat) : Option (List Byte) :=
  match n with
  | 0 => some []
  | k + 1 =>
    match s.agentWord ten va, s.agentWords ten (va + 8) k with
    | some w, some r => some (w ++ r)
    | _, _ => none

/-! ## Adds, triggers and waits (R78, R79) -/

/-- The word that a device wait on a counter is listed under. -/
def counterKey (i : Nat) : Nat := 2 ^ 66 + i

/-- A trigger fires: a launch of its record at MAXPRIO, an MSI-X vector, or a user interrupt of source 4. A launch is a
wake event's cause as every trigger is (01 R17). (Mark: DEDUCED, unsafe, log 23) -/
def State.fire (s : State) (g : Trigger) : State :=
  let s1 := s.wake
  match g.action with
  | 1 =>
    match s1.agentWords g.ten g.arg 24 with
    | some r =>
      (s1.enterLaunch g.ten g.arg r (bitsAt (s1.tenantAt g.ten).tsubcfg 9 3) none (16 + g.core) s1.now).2.2
    | none => s1
  | 2 => s1.msix g.ten g.arg.toNat
  | _ => s1.uiTo (g.ten, g.ctxid, g.lcore) g.ctx 4 g.index

/-- A trigger goes ahead of another: a lower threshold, or an earlier arming at the same. -/
def Trigger.before (a b : Trigger) : Bool :=
  decide (a.thr.toNat < b.thr.toNat ∨ (a.thr = b.thr ∧ a.order < b.order))

/-- Fire the armed triggers of a counter that its value meets, in order; a counter has two slots. -/
def State.fireMet (s : State) (i n : Nat) : State :=
  match n with
  | 0 => s
  | k + 1 =>
    let c := s.counterAt i
    let met := c.trigs.filter (fun g => decide (c.val.toNat ≥ g.thr.toNat))
    match met.find? (fun g => met.all (fun h => ! h.before g)) with
    | none => s
    | some g =>
      ((s.setCounter i { c with trigs := c.trigs.filter (fun h => h.order != g.order) }).fire g).fireMet i k

/-- Evaluate the device waits on a counter. -/
def State.counterWaits (s : State) (i : Nat) : State :=
  let v := (s.counterAt i).val
  let met := fun (w : Waiter) => decide (w.key = counterKey i) && (match w.kind with
    | .counter thr => decide (v.toNat ≥ thr.toNat)
    | _ => false)
  let s1 := { s with waiters := s.waiters.filter (fun w => ! met w) }
  (s.waiters.filter met).foldl (fun u w => u.answer w v) s1

/-- The tenant that owns a counter. -/
def State.counterOwner (s : State) (i : Nat) : Option Nat :=
  (upTo 0 16).find? (fun t => decide (tecrBase (s.tenantAt t).tecr ≤ i
    ∧ i < tecrBase (s.tenantAt t).tecr + tecrCount (s.tenantAt t).tecr))

/-- An add, with the triggers, the gates and the waits evaluated in this order. -/
def State.counterAdd (s : State) (i : Nat) (v : W64) : State :=
  let c := s.counterAt i
  let s1 := (s.setCounter i { c with val := c.val + v }).fireMet i 2
  let s2 := match s1.counterOwner i with
    | some t => s1.refreshPages t
    | none => s1
  s2.counterWaits i

/-- Arm a trigger: 0 armed or fired at once, 5 NOSLOT. (Mark: DEDUCED, unsafe, log 52) -/
def State.arm (s : State) (i : Nat) (g : Trigger) : Nat × State :=
  let c := s.counterAt i
  let h := { g with order := s.trigOrder }
  let s1 := { s with trigOrder := s.trigOrder + 1 }
  if c.trigs.length ≥ 2 ∨ (g.action = 1 ∧ s.depthFull g.ten) then (5, s)
  else if c.val.toNat ≥ g.thr.toNat then (0, s1.fire h)
  else (0, s1.setCounter i { c with trigs := c.trigs ++ [h] })

/-- A counter is zeroed and its triggers disarmed. -/
def State.counterReset (s : State) (i : Nat) : State := s.setCounter i Counter.reset

end Sys2Proof.Machine
end

