-- ==== Sys2Proof/Machine/Host.lean ====
section
/-! DEFINITION. What the host does (04 R65 to R77): submissions and their dispatch, completion registers, counters,
enabling, disabling and resetting a virtual function; and a page's effect at the end of a launch is in
Machine/Halyard.lean. -/

namespace Sys2Proof.Machine

open Sys2Proof

/-! ## Submission (R69) -/

/-- Change a submission page. -/
def State.setPageOf (s : State) (t page : Nat) (p : Page) : State := s.setTenant t ((s.tenantAt t).setPage page p)

/-- The module completes a request of the host. -/
def State.answerHost (s : State) (space : RegSpace) (off : Nat) (status : CompStatus) (data : List Byte) : State :=
  { s with hostAnswers := s.hostAnswers ++ [{ space := space, off := off, status := status, data := data }] }

/-- SUBMISSION: Unsupported Request, Request Retry Status, or queued. The store is a wake event (01 R17). -/
def execSubmission (t page : BitVec 4) (off : BitVec 12) (bytes : List (BitVec 8)) (s : State) : Out :=
  let n := s.tenantAt t.toNat
  let p := n.pageAt page.toNat
  let done := fun (st : CompStatus) => s.wake.answerHost (.vf2 t) (4096 * page.toNat + off.toNat) st []
  if bytes.length ≠ 128 ∨ off ≠ 0 ∨ ¬ n.vf ∨ page.toNat ≥ bitsAt n.tsubcfg 16 5 ∨ ¬ bitOn p.cqcfg 4 then
    .next (done .unsupported)
  else if bitOn n.tsubcfg 12 || decide (p.out = p.ring) || s.depthFull t.toNat then
    .next ((done .retry).setPageOf t.toNat page.toNat { p with retry := true })
  else
    .next (((done .successful).setPageOf t.toNat page.toNat
      { p with queue := p.queue ++ [{ bytes := bytes, seq := p.accepted }], accepted := p.accepted + 1,
               out := p.out + 1 }).refreshPages t.toNat)

/-- SUBMISSION_PAGE_WRITE. -/
def execSubmissionPageWrite (t page : BitVec 4) (s : State) : Out :=
  if (s.tenantAt t.toNat).vf && decide (page.toNat < 16) then .next (s.wake.setTerr t.toNat 0) else .next s

/-! ## Dispatch (R70, R71) -/

/-- A submission is malformed: KIND, ACTION and VECTOR have reserved values too. (Mark: DEDUCED, unsafe, log 20) -/
def Subm.malformed (b : Subm) : Bool :=
  let k := b.kind
  let w0 := recNat b.bytes 0 8
  let p0 := (b.word 3).toNat
  let act := p0 / 2 ^ 12 % 4
  decide (k = 0 ∨ 5 ≤ k ∨ w0 / 2 ^ 11 % 32 ≠ 0 ∨ w0 / 2 ^ 28 ≠ 0)
  || (b.flag 9 && ! b.flag 8) || decide (recNat b.bytes 48 16 ≠ 0)
  || (decide (k ≠ 1) && decide (recNat b.bytes 64 64 ≠ 0))
  || (decide (k = 1) && decide (p0 % 64 ≠ 0 ∨ b.word 5 ≠ 0))
  || (decide (k = 2) && decide (p0 / 4096 ≠ 0 ∨ b.word 5 ≠ 0))
  || (decide (k = 3) && decide (act = 0 ∨ act = 3 ∨ p0 / 2 ^ 14 % 4 ≠ 0 ∨ p0 / 2 ^ 16 % 32 > 16 ∨ p0 / 2 ^ 21 ≠ 0
        ∨ (act = 1 ∧ (b.word 5).toNat % 64 ≠ 0) ∨ (act = 2 ∧ b.word 5 ≠ 0)))
  || (decide (k = 4) && decide (b.word 5 ≠ 0))

/-- The head of a page is taken for dispatch. -/
def State.takeHead (s : State) (t page : Nat) (b : Subm) : State :=
  let p := (s.tenantAt t).pageAt page
  (s.setPageOf t page { p with queue := p.queue.drop 1, running := p.running ++ [b], since := none }).refreshPages t

/-- A submission completes without a launch. -/
def State.finish (s : State) (t page : Nat) (b : Subm) (status : Nat) : State :=
  s.complete t page b.seq (b.word 1) (b.flag 8) (b.flag 9) status 0 0

/-- The dispatchable heads of the pages: tenant, page, effective level, clk since which each has been dispatchable. -/
def State.subHeads (s : State) : List (Nat × Nat × Nat × Nat) :=
  (upTo 0 16).flatMap (fun t =>
    let n := s.tenantAt t
    n.pages.filterMap (fun p => match p.2.queue, p.2.since with
      | b :: _, some z => some (t, p.1, s.level (min b.prio (bitsAt n.tsubcfg 9 3)) z, z)
      | _, _ => none))

/-- The head that Halyard dispatches next (R71; 06 R103): the highest effective level, then the tenants in their order, then
the longest wait. (Mark: DEDUCED, unsafe, log 110) -/
def State.chosenHead (s : State) : Option (Nat × Nat) :=
  let l := s.subHeads
  let lv : Nat := l.foldl (fun m h => max m h.2.2.1) 0
  let top := l.filter (fun (h : Nat × Nat × Nat × Nat) => decide (h.2.2.1 = lv))
  ((s.tenantOrder lv).find? (fun t => top.any (fun h => h.1 == t))).bind (fun t =>
    let own := top.filter (fun (h : Nat × Nat × Nat × Nat) => h.1 == t)
    (own.find? (fun h => own.all (fun (g : Nat × Nat × Nat × Nat) => decide (h.2.2.2 ≤ g.2.2.2)))).map (fun h => (t, h.2.1)))

/-- Dispatch the head of a page if it is the one chosen and of a kind: MALFORMED, BADINDEX for a gate's index, or its
own effect. A malformed record completes at dispatch of any kind. (Mark: DEDUCED, unsafe, log 20) -/
def State.dispatch (s : State) (t page kind : Nat) (f : State → Subm → Nat → State) : Out :=
  let p := (s.tenantAt t).pageAt page
  match p.queue, p.since with
  | b :: _, some since =>
    if ! s.awake || s.chosenHead != some (t, page) then .next s
    else
      let s1 := s.takeHead t page b
      if b.malformed then .next (s1.finish t page b 3)
      else if b.kind ≠ kind then .next s
      else if b.flag 10 && (s.counterOf t b.gidx).isNone then .next (s1.finish t page b 6)
      else .next (f s1 b since)
  | _, _ => .next s

/-- SUBMIT_LAUNCH: ARG0 to ARG7 of the submission replace the record's. A record that cannot be read is MALFORMED.
(Mark: DEDUCED, unsafe, log 110) -/
def execSubmitLaunch (t page : BitVec 4) (s : State) : Out :=
  s.dispatch t.toNat page.toNat 1 (fun u b since =>
    match u.agentWords t.toNat (b.word 3) 24 with
    | none => u.finish t.toNat page.toNat b 3
    | some r =>
      let prio := min b.prio (bitsAt (u.tenantAt t.toNat).tsubcfg 9 3)
      let sub : FromSub :=
        { page := page.toNat, tag := b.word 1, cpl := b.flag 8, int := b.flag 9, seq := b.seq }
      match u.enterLaunch t.toNat (b.word 3) (r.take 128 ++ sliceBytes b.bytes 64 64) prio (some sub) page.toNat since with
      | (0, _, v) => v
      | (st, _, v) => v.finish t.toNat page.toNat b st)

/-- SUBMIT_ECADD. -/
def execSubmitEcadd (t page : BitVec 4) (s : State) : Out :=
  s.dispatch t.toNat page.toNat 2 (fun u b _ =>
    match u.counterOf t.toNat (bitsAt (b.word 3) 0 12) with
    | none => u.finish t.toNat page.toNat b 6
    | some i => (u.counterAdd i (b.word 4)).finish t.toNat page.toNat b 0)

/-- SUBMIT_ECARM: a trigger that no context armed starts its launch from a queue of its own. (Mark: DEDUCED, unsafe, log 23) -/
def execSubmitEcarm (t page : BitVec 4) (s : State) : Out :=
  s.dispatch t.toNat page.toNat 3 (fun u b _ =>
    match u.counterOf t.toNat (bitsAt (b.word 3) 0 12) with
    | none => u.finish t.toNat page.toNat b 6
    | some i =>
      let act := bitsAt (b.word 3) 12 2
      let g : Trigger :=
        { thr := b.word 4, action := act, arg := if act = 1 then b.word 5 else w64 (bitsAt (b.word 3) 16 5), order := 0,
          ten := t.toNat, ctxid := 0, lcore := 0, core := 0xFFFF, ctx := 0, index := bitsAt (b.word 3) 0 12 }
      match u.arm i g with
      | (st, v) => v.finish t.toNat page.toNat b st)

/-- SUBMIT_NOP. -/
def execSubmitNop (t page : BitVec 4) (s : State) : Out :=
  s.dispatch t.toNat page.toNat 4 (fun u b _ => u.finish t.toNat page.toNat b 0)

/-! ## Completion-area registers (R72) -/

/-- CQHEAD_WRITE: a head that would pass TAIL is discarded. -/
def State.writeCqhead (s : State) (t page : Nat) (v : W64) : State :=
  let p := (s.tenantAt t).pageAt page
  let h : W32 := v.setWidth 32
  if ahead h p.cqtail then s.setTerr t 1
  else
    let used := min (h - p.cqhead).toNat p.out
    s.setPageOf t page { p with cqhead := h, out := if ahead h p.cqhead then p.out - used else p.out }

/-- CQHEAD_WRITE. -/
def execCqheadWrite (t page : BitVec 4) (v : BitVec 64) (s : State) : Out :=
  if (s.tenantAt t.toNat).vf then .next (s.wake.writeCqhead t.toNat page.toNat v) else .next s

/-- CQBASE and CQCFG: discarded while OUT ≠ 0 or with LOG2N outside 4 to 12, so EN clears only with OUT = 0.
(Mark: DEDUCED, unsafe, log 21) -/
def State.writeCqcfg (s : State) (t page : Nat) (base : Bool) (v : W64) : State :=
  let p := (s.tenantAt t).pageAt page
  if base then
    if p.out ≠ 0 then s.setTerr t 1 else s.setPageOf t page { p with cqbase := putBits v 0 12 0 }
  else if bitsAt v 0 4 < 4 ∨ bitsAt v 0 4 > 12 ∨ p.out ≠ 0 then s.setTerr t 1
  else s.setPageOf t page { p with cqcfg := w64 (bitsAt v 0 5) }

/-- CQCFG_WRITE. -/
def execCqcfgWrite (t page : BitVec 4) (base : Bool) (v : BitVec 64) (s : State) : Out :=
  if (s.tenantAt t.toNat).vf then .next (s.wake.writeCqcfg t.toNat page.toNat base v) else .next s

/-- ECINC_WRITE. -/
def execEcincWrite (t : BitVec 4) (j : BitVec 12) (v : BitVec 64) (s : State) : Out :=
  if ! (s.tenantAt t.toNat).vf then .next s
  else match s.counterOf t.toNat j.toNat with
    | none => .next (s.wake.setTerr t.toNat 2)
    | some i => .next (s.wake.counterAdd i v)

/-! ## Virtual functions (R65; 01 R19) -/

/-- What a reset of a tenant does: its queued submissions and queued launches are discarded, its contexts killed, its
counters zeroed with their triggers, its attestation record starts anew (05 R89), and every register of its BARs returns to its
reset value. (Mark: DEDUCED, unsafe, log 22) -/
def State.tenantReset (s : State) (t : Nat) : State :=
  let n := s.tenantAt t
  let r := Tenant.reset
  let s1 := s.setTenant t { n with tltol := r.tltol, terr := r.terr, pages := r.pages, msix := r.msix, attest := r.attest }
  let s2 := (upTo (tecrBase n.tecr) (tecrCount n.tecr)).foldl (fun u i => u.counterReset i) s1
  let s3 := { s2 with
    launches := s2.launches.filterMap (fun (l : Launch) =>
      if l.ten ≠ t then some l else if l.state = LaunchState.queued ∧ l.placedAt = none then none else some { l with sub := none }) }
  s3.killTenant t

/-- TENANT_RESET. -/
def execTenantReset (t : BitVec 4) (s : State) : Out :=
  if (s.tenantAt t.toNat).vf then .next (s.tenantReset t.toNat).reselect else .next s

/-- VF_ENABLE: the tenant's attestation record is reset and the resident handler mapped (05 R89; 09 R185). -/
def execVfEnable (t : BitVec 4) (s : State) : Out :=
  let n := s.tenantAt t.toNat
  if n.vf then .next s
  else .next ((s.setTenant t.toNat { n with vf := true, attest := .reset }).installHandler t.toNat).reselect

/-- VF_DISABLE. -/
def execVfDisable (t : BitVec 4) (s : State) : Out :=
  let n := s.tenantAt t.toNat
  if n.vf then
    let s1 := s.tenantReset t.toNat
    .next (s1.setTenant t.toNat { s1.tenantAt t.toNat with vf := false }).reselect
  else .next s

end Sys2Proof.Machine
end

