-- ==== Sys2Proof/Machine/Deaths.lean ====
section
/-! DEFINITION. Holdings at their Cleat (10 R193 to R197; 19 R373), the deaths of groups and conveyance (10 R198 to
R205), arrivals (R203) and heirless reports (R207); and TRET, after which the next report is delivered. -/

namespace Sys2Proof.Machine

open Sys2Proof

/-! ## Object headers (19 R343) -/

/-- FLAGS of the object header at a key. -/
def State.objFlags (s : State) (h : Nat) : Nat := s.peekLe h 2
/-- OVER of an object. -/
def State.objOver (s : State) (h : Nat) : W32 := BitVec.ofNat 32 (s.peekLe (h + 12) 4)
/-- A header write of HOLD, RELQ or conveyance: the flags change and OVER increments in one step (10 R202). -/
def State.headerWrite (s : State) (h flags : Nat) : State :=
  (s.pokeLe h 2 flags).pokeLe (h + 12) 4 (s.objOver h + 1).toNat
/-- FREE. -/
def oFREE : Nat := 1
/-- HELD. -/
def oHELD : Nat := 2
/-- BEREAVED. -/
def oBEREAVED : Nat := 4
/-- POISON. -/
def oPOISON : Nat := 8
/-- PINNED. -/
def oPINNED : Nat := 16
/-- A flag is set. -/
def hasFlag (f b : Nat) : Bool := decide (f / b % 2 = 1)
/-- Set a flag. -/
def setFlag (f b : Nat) : Nat := if hasFlag f b then f else f + b
/-- Clear a flag. -/
def clearFlag (f b : Nat) : Nat := if hasFlag f b then f - b else f

/-! ## Entries -/

/-- The next acquisition sequence of a die (10 R195): at most 64 in one ns, the next goes to the next ns. -/
def State.nextAcq (s : State) (die : Nat) : W64 × State :=
  let now := (s.podTime die).toNat
  let (ns, n) := Tab.get s.acq (0, 0) die
  let p := if ns < now then (now, 0) else if n + 1 < 64 then (ns, n + 1) else (ns + 1, 0)
  let q := if (Tab.find s.acq die).isNone then (now, 0) else p
  (w64 (q.2 + die * 64 + q.1 * 256), { s with acq := Tab.set s.acq die q })

/-- No free entry in the tenant's share on a die. -/
def State.estatesFull (s : State) (ten die : Nat) : Bool :=
  decide (((s.estatesAt die).filter (fun e => e.ten == ten)).length ≥ 256 * bitsAt (s.tenantAt ten).testr 8 9)

/-- Create an entry; none when the share is full. -/
def State.createEstate (s : State) (kind home ten : Nat) (ctxid group : W32) (ref : W64) (heir : W64) : Option State :=
  let die := keyDie home
  if s.estatesFull ten die then none
  else
    let (q, s1) := s.nextAcq die
    let e : Estate :=
      { ctxid := ctxid, holder := group, ref := w64 (ref.toNat % 2 ^ 56), kind := kind, state := 1, bereaved := false,
        seq := q, heir := heir.setWidth 32, heirctx := BitVec.ofNat 32 (heir.toNat / 2 ^ 32), ten := ten, home := home }
    some (s1.setEstates die (s1.estatesAt die ++ [e]))

/-! ## Locks (19 R373) -/

/-- The state a lock op finds, for a requester: 0 free, 1 held by its group, 2 orphaned, 3 held by another. -/
def State.lockState (s : State) (home : Nat) (ctxid group : W32) : Nat :=
  match s.estateAt 1 home with
  | none => 0
  | some e => if e.state = 2 then 2 else if e.ctxid = ctxid ∧ e.holder = group then 1 else 3

/-- An acquisition that need not wait: its status and the state after it. -/
def State.acquire (s : State) (home ten : Nat) (ctxid group : W32) (ref heir : W64) : Option (Nat × State) :=
  match s.lockState home ctxid group with
  | 0 => match s.createEstate 1 home ten ctxid group ref heir with
    | some t => some (0, t)
    | none => some (3, s)
  | 1 => match s.estateAt 1 home with
    | some e => some (b2n e.bereaved, s)
    | none => some (0, s)
  | 2 => some (2, s)
  | _ => none

/-- What a lock waiter asks for: tenant, CTXID, group, reference and heir. Its bytes are the heir specification, the
group, the tenant and the reference. -/
def State.lockAsk (s : State) (w : Waiter) : Nat × W32 × W32 × W64 × W64 :=
  let ctxid := match w.remote with
    | some p => p.body.ctxid
    | none => s.ctxidOf w.core
  (recNat w.bytes 12 2, ctxid, BitVec.ofNat 32 (recNat w.bytes 8 4), w64 (recNat w.bytes 16 8), w64 (recNat w.bytes 0 8))

/-- Serve the waiters of a lock in arrival order. -/
def serveLockOne (home : Nat) (acc : State × List Waiter) (w : Waiter) : State × List Waiter :=
  let (s, kept) := acc
  if w.key ≠ home ∨ w.kind ≠ .lock then (s, kept ++ [w])
  else
    let (ten, ctxid, group, ref, heir) := s.lockAsk w
    match s.acquire home ten ctxid group ref heir with
    | some (st, t) => (t.answer w (w64 st), kept)
    | none => (s, kept ++ [w])

/-- Evaluate the waiters of a lock after its state has changed. -/
def State.serveLock (s : State) (home : Nat) : State :=
  let (t, kept) := s.waiters.foldl (serveLockOne home) (s, [])
  { t with waiters := kept }

/-! ## Liveness of launches and groups (10 R200) -/

/-- The enclosing group; none for the root. -/
def Launch.parent (l : Launch) (g : W32) : Option W32 :=
  let lv := bitsAt g 24 4
  if lv ≥ 8 ∨ lv ≥ l.nlev then none
  else if lv = 0 then some (BitVec.ofNat 32 (8 * 2 ^ 24))
  else some (BitVec.ofNat 32 ((lv - 1) * 2 ^ 24 + bitsAt g 0 24 / l.count lv))

/-- The launch has the group. -/
def Launch.hasGroup (l : Launch) (g : W32) : Bool :=
  let lv := bitsAt g 24 4
  let ix := bitsAt g 0 24
  if lv = 8 then decide (ix = 0) else decide (lv < l.nlev ∧ ix < l.countProd 0 (lv + 1))

/-- A launch of a tenant is live: placed at least once, and its root not dead on the die. -/
def State.launchLive (s : State) (die ten : Nat) (ctxid : W32) : Bool :=
  match s.launchBy ten ctxid with
  | some l => l.placedAt.isSome && ! s.deadOn die ten ctxid (l.group 8 0)
  | none => false

/-- A group of a live launch is live on a die. -/
def State.groupLive (s : State) (die ten : Nat) (ctxid g : W32) : Bool :=
  match s.launchBy ten ctxid with
  | some l => l.placedAt.isSome && l.hasGroup g && ! s.deadOn die ten ctxid g
  | none => false

/-- The hops of resolve. -/
def State.resolveHops (s : State) (die ten : Nat) (ctx : W32) (g : Option W32) (n : Nat) : Option (W32 × W32) :=
  match n, g with
  | 0, _ => none
  | _, none => none
  | k + 1, some h =>
    if ! s.launchLive die ten ctx then none
    else if s.groupLive die ten ctx h then some (ctx, h)
    else s.resolveHops die ten ctx ((s.launchBy ten ctx).bind (fun l => l.parent h)) k

/-- resolve: the heir's launch and group. -/
def State.resolveHeir (s : State) (die : Nat) (e : Estate) (d : Death) : Option (W32 × W32) :=
  let mode := bitsAt e.heir 28 4
  if mode = 2 then none
  else
    let ctx := if e.heirctx = 0 then d.ctxid else e.heirctx
    let g := if mode = 1 then (s.launchBy d.ten d.ctxid).bind (fun l => l.parent d.group)
      else some (BitVec.ofNat 32 (bitsAt e.heir 0 28))
    s.resolveHops die d.ten ctx g 8

/-! ## Deaths (R198) -/

/-- A group dies: die 0's Cleat gives the death its sequence. -/
def State.dieGroup (s : State) (ten : Nat) (ctxid g : W32) : State :=
  if s.deadGroups.contains (ten, ctxid, g) || s.deaths.any (fun d => decide (d.ten = ten ∧ d.ctxid = ctxid ∧ d.group = g))
  then s
  else
    let d : Death := { dseq := s.dseq, ten := ten, ctxid := ctxid, group := g, applied := [], got := [], heirless := [] }
    { s with dseq := s.dseq + 1, deaths := s.deaths ++ [d] }

/-- Every group of a killed launch dies: the innermost level first, ascending within a level, the root last. -/
def State.dieLaunch (s : State) (l : Launch) : State :=
  let inner := (upTo 0 l.nlev).foldl (fun u i =>
    let lv := l.nlev - 1 - i
    (upTo 0 (l.countProd 0 (lv + 1))).foldl (fun v ix => v.dieGroup l.ten l.ctxid (BitVec.ofNat 32 (lv * 2 ^ 24 + ix))) u) s
  inner.dieGroup l.ten l.ctxid (l.group 8 0)

/-- A thread of a launch other than by a core in particular is not over: it has live contexts, or is suspended. -/
def State.threadAlive (s : State) (l : Launch) (lc : Nat) : Bool :=
  (Tab.find l.saved lc).isSome
  || s.cores.any (fun p => decide (p.2.thread = some (l.ten, l.ctxid, lc)) && (p.2.anyLive || p.2.saving.isSome))

/-- A continuation record of a launch is queued or in flight. -/
def State.recordsLeft (s : State) (l : Launch) : Bool :=
  s.contFlight.any (fun r => decide (r.ten = l.ten ∧ r.ctxid = l.ctxid))
  || ! l.records.isEmpty
  || s.clusters.any (fun c => (c.2.contq ++ c.2.contovf).any (fun r => decide (r.ctxid = l.ctxid ∧ r.ten = l.ten)))

/-- The LCOREs of a launch's threads that live on this module. -/
def State.lcoresHere (s : State) (l : Launch) : List Nat :=
  (s.cores.filterMap (fun p => match p.2.thread with
    | some (t, i, lc) => if t = l.ten ∧ i = l.ctxid then some lc else none
    | none => none)) ++ l.saved.map (fun p => p.1)

/-- The LCOREs of a launch's threads on other modules that are not known to be over. (Mark: DESIGN CHOICE, unsafe, log 33) -/
def State.lcoresFar (s : State) (l : Launch) : List Nat :=
  if (s.modsOf l).all (fun m => m == s.modid) then []
  else match s.layout l l.origin with
    | some t => (t.filter (fun p => decide (p.2.1 ≠ s.modid) && ! l.finished.contains p.1)).map (fun p => p.1)
    | none => []

/-- A thread is over: the groups of which it was the last member die, innermost first; the root when no thread and no
continuation is left. -/
def State.overGroups (s : State) (l : Launch) (lc : Nat) : State :=
  let alive := (s.lcoresHere l).filter (s.threadAlive l) ++ s.lcoresFar l
  let s1 := (upTo 0 l.nlev).foldl (fun u i =>
    let lv := l.nlev - 1 - i
    if alive.any (fun m => l.group lv m == l.group lv lc) then u else u.dieGroup l.ten l.ctxid (l.group lv lc)) s
  if alive.isEmpty && ! s.recordsLeft l then s1.dieGroup l.ten l.ctxid (l.group 8 0) else s1

/-- The other modules of a launch learn that a thread of this one is over: each takes the deaths on its own Cleats (R198).
(Mark: DESIGN CHOICE, unsafe, log 33) -/
def State.tellOver (s : State) (l : Launch) (lc : Nat) : State :=
  ((s.modsOf l).filter (fun m => m != s.modid)).foldl (fun (u : State) m =>
    let b : Body := { op := .threadOver, ctxid := l.ctxid, sel := lc }
    u.sendPacket { src := BitVec.ofNat 6 u.modid, dst := BitVec.ofNat 6 m, ten := BitVec.ofNat 4 l.ten, stream := 5, body := b }) s

/-- Natural deaths when the thread of a core may be over. -/
def State.naturalDeaths (s : State) (c : Nat) : State :=
  match s.launchOf c with
  | none => s
  | some l => if s.threadAlive l (s.lcoreOf c) then s else (s.overGroups l (s.lcoreOf c)).tellOver l (s.lcoreOf c)

/-- A thread of another module is over. (Mark: DESIGN CHOICE, unsafe, log 33) -/
def State.farOver (s : State) (ten : Nat) (ctxid : W32) (lc : Nat) : State :=
  match s.launchBy ten ctxid with
  | none => s
  | some l =>
    let m := { l with finished := if l.finished.contains lc then l.finished else l.finished ++ [lc] }
    (s.updLaunch ten ctxid (fun _ => m)).overGroups m lc

/-! ## Conveyance (R200, R204, R205) -/

/-- The version depth of a frame as its attribute record holds it. -/
def State.frameDepth (s : State) (f : Nat) : Nat := vdDepth (bitsAt (Tab.get s.attr (0 : W16) f) 0 2)

/-- A heirless holding (R205): the entry as the report shows it, and the state. (Mark: DEDUCED, unsafe, log 32) -/
def State.heirlessOf (s : State) (e : Estate) : Estate × State :=
  match e.kind with
  | 1 =>
    let f := { e with state := 2 }
    (f, (s.updEstate 1 e.home (fun _ => f)).serveLock e.home)
  | 2 =>
    let fl := setFlag (clearFlag (s.objFlags e.home) oHELD) oPOISON
    ({ e with state := 0 }, (s.headerWrite e.home fl).freeEstate 2 e.home)
  | _ =>
    let s1 := s.freeEstate 3 e.home
    let d := s1.frameDepth (e.home / 65536)
    let w : Waiter :=
      { kind := .create, key := e.home, core := voidCore, ctx := 0, since := s1.now, remote := none,
        bytes := [0, BitVec.ofNat 8 d] ++ leBytes 8 (2 ^ 64 - 1) }
    let held := fun (v : Waiter) => decide (v.key = e.home ∧ v.kind = .heldBack)
    let joined := (s1.waiters.filter held).map (fun v => { v with kind := .create })
    ({ e with state := 0 },
     { s1 with waiters := s1.waiters.filter (fun v => ! held v) ++ [w] ++ joined }.serveWord e.home)

/-- Convey one entry to an heir. -/
def State.conveyTo (s : State) (e : Estate) (h : W32 × W32) : State :=
  let s1 := s.updEstate e.kind e.home (fun f =>
    { f with ctxid := h.1, holder := h.2, heir := BitVec.ofNat 32 (2 ^ 28), heirctx := 0, bereaved := true })
  if e.kind = 2 then s1.headerWrite e.home (setFlag (s1.objFlags e.home) oBEREAVED)
  else if e.kind = 1 then s1.serveLock e.home
  else s1

/-- Count a holding that an heir receives. -/
def addGot (l : List (W32 × W32 × Nat)) (h : W32 × W32) : List (W32 × W32 × Nat) :=
  if l.any (fun g => g.1 == h.1 && g.2.1 == h.2) then
    l.map (fun g => if g.1 = h.1 ∧ g.2.1 = h.2 then (g.1, g.2.1, g.2.2 + 1) else g)
  else l ++ [(h.1, h.2, 1)]

/-- Insert into a list in ascending SEQ. -/
def insertSeq (e : Estate) (l : List Estate) : List Estate :=
  match l with
  | [] => [e]
  | f :: r => if e.seq.toNat < f.seq.toNat then e :: f :: r else f :: insertSeq e r

/-- A Cleat applies a death to its entries, in ascending SEQ: the state and the death with what it conveyed. -/
def State.applyDeath (s : State) (die : Nat) (d : Death) : State × Death :=
  let mine := (s.estatesAt die).filter (fun e =>
    decide (e.ten = d.ten ∧ e.ctxid = d.ctxid ∧ e.holder = d.group ∧ e.state = 1))
  (mine.foldl (fun l e => insertSeq e l) []).foldl (fun acc e =>
    match acc.1.resolveHeir die e d with
    | some h => (acc.1.conveyTo e h, { acc.2 with got := addGot acc.2.got h })
    | none =>
      let (f, u) := acc.1.heirlessOf e
      (u, { acc.2 with heirless := insertSeq f acc.2.heirless })) (s, { d with applied := die :: d.applied })

/-- Replace a death by its sequence. -/
def putDeath (l : List Death) (d : Death) : List Death := l.map (fun (e : Death) => if e.dseq = d.dseq then d else e)

/-- DEATH_EVENT: the Cleat of a die takes the next death in DSEQ order. -/
def execDeathEvent (die : BitVec 2) (s : State) : Out :=
  match s.deaths.find? (fun d => ! d.applied.contains die.toNat) with
  | none => .next s
  | some d =>
    let s0 := { s with deaths := putDeath s.deaths { d with applied := die.toNat :: d.applied } }
    let (s1, d1) := s0.applyDeath die.toNat d
    .next { s1 with deaths := putDeath s1.deaths d1 }

/-! ## Arrivals and reports (R203, R207) -/

/-- Physical key of a tenant's byte for a store at PL 0. -/
def State.userWrite (s : State) (ten : Nat) (va : W64) (bytes : List Byte) : Option State :=
  match s.walk ten va 0 true false with
  | .leaf t => if pteVD t.pte ≠ 0 ∨ va.toNat % 65536 + bytes.length > 65536 then none else some (s.pokeN (t.pa va) bytes)
  | _ => none

/-- Deliver the waiting reports of a tenant while none is with the handler: the entries, then HEIRLESS. A report whose area
cannot be written becomes a machine-check record, and the next one follows; `n` bounds them. (Mark: DEDUCED, unsafe, log 32) -/
def State.pumpN (s : State) (ten n : Nat) : State :=
  match n with
  | 0 => s
  | k + 1 =>
    let t := s.tenantAt ten
    if t.reporting then s
    else match s.reports.find? (fun r => r.1 == ten) with
      | none => s
      | some (_, d) =>
        let s1 := { s with reports := s.reports.filter (fun r => ! decide (r.1 = ten ∧ r.2.dseq = d.dseq)) }
        let shown := d.heirless.take 128
        let drop := min (d.heirless.length - shown.length) 65535
        match s1.userWrite ten (w64 (t.estl.toNat / 4096 * 4096)) (shown.flatMap Estate.toBytes) with
        | none => (s1.reportCheck d).pumpN ten k
        | some s2 =>
          (s2.setTenant ten { t with reporting := true }).asyncTo (ten, BitVec.ofNat 32 (bitsAt t.esth 16 32), t.esthLcore)
            t.esthCtx 0x11 (w64 (shown.length + drop * 2 ^ 16 + d.dseq.toNat * 2 ^ 32))

/-- Deliver the waiting reports of a tenant; where it has no handler or no report area, they are machine-check records.
(Mark: DEDUCED, unsafe, log 32) -/
def State.pumpReports (s : State) (ten : Nat) : State := (s.flushReports ten).pumpN ten 65

/-- A heirless report: it waits for the handler, or becomes a machine-check record. (Mark: DEDUCED, unsafe, log 32) -/
def State.report (s : State) (d : Death) : State :=
  let n := s.tenantAt d.ten
  if d.heirless.isEmpty then s
  else if ! bitOn n.esth 48 || decide (n.estl.toNat / 4096 = 0) || decide ((s.reports.filter (fun r => r.1 == d.ten)).length ≥ 64)
  then s.reportCheck d
  else { s with reports := s.reports ++ [(d.ten, d)] }.pumpReports d.ten

/-- ARRIVAL_POST: the oldest death that all four Cleats have applied. -/
def execArrivalPost (s : State) : Out :=
  match s.deaths with
  | [] => .next s
  | d :: r =>
    if ! (upTo 0 4).all (fun i => d.applied.contains i) then .next s
    else
      let s1 := { s with deaths := r, deadGroups := s.deadGroups ++ [(d.ten, d.ctxid, d.group)] }
      let new := d.got.filterMap (fun (g : W32 × W32 × Nat) =>
        if s1.groupLive 0 d.ten g.1 g.2.1 then
          let a : Arrival := { dseq := d.dseq, dctx := d.ctxid, dgroup := d.group, nrec := BitVec.ofNat 32 g.2.2,
                               hctx := g.1, hgroup := g.2.1, time := s1.podTime 0 }
          some (d.ten, a)
        else none)
      let kept := s1.arrivals.filter (fun a => ! decide (a.1 = d.ten ∧ a.2.hctx = d.ctxid ∧ a.2.hgroup = d.group))
      .next ({ s1 with arrivals := kept ++ new }.report d)

/-! ## TRET -/

/-- TRET: after the return from a HEIRLESS the next report is delivered (R207). -/
def execTret (s : State) : Out :=
  let t := s.trapReturn (encode64 .tret)
  let back := s.me.heirless && s.me.tr && ! badStatus s.me.tstatus s.me.status && decide (s.me.taddr.toNat % 4 = 0)
  if back then
    let ten := s.tenOf s.core
    .next (((t.setMe { t.me with heirless := false }).setTenant ten { t.tenantAt ten with reporting := false }).pumpReports ten)
  else .next t

end Sys2Proof.Machine
end

