-- ==== Sys2Proof/Machine/Halyard.lean ====
section
/-! DEFINITION. Halyard: which waiting launch is placed, and where (06 R101 to R104), the start, pre-emption and
resumption of threads (06 R105; 09 R183 to R187), continuations (06 R108), and the end of a launch (04 R73). -/

namespace Sys2Proof.Machine

open Sys2Proof

/-! ## Heads and their rank (R103) -/

/-- A launch waits in its queue. -/
def Launch.waiting (l : Launch) : Bool := decide (l.state = .queued ∧ l.queue < 2 ^ 20) && ! l.held && l.ended.isNone

/-- The heads of the queues: the first waiting launch of each tenant's queue. -/
def headsOf (l : List Launch) (seen : List (Nat × Nat)) : List Launch :=
  match l with
  | [] => []
  | a :: r =>
    if ! a.waiting || seen.contains (a.ten, a.queue) then headsOf r seen
    else a :: headsOf r ((a.ten, a.queue) :: seen)

/-- The waiting heads in the order in which Halyard serves them. -/
def State.ranked (s : State) : List Launch :=
  let heads := headsOf s.launches []
  (upTo 0 8).flatMap (fun i =>
    (s.tenantOrder (7 - i)).flatMap (fun t =>
      (heads.filter (fun h => decide (h.ten = t) && decide (s.level h.prio h.since = 7 - i))).foldl (fun l h => insertSince h l) []))

/-- The thread has engine commands in flight somewhere on the module. -/
def State.enginesBusy (s : State) (o : Nat × W32 × Nat) : Bool :=
  s.cores.any (fun p => p.2.copies.any (fun m => decide (m.state = 1 ∧ m.owner = o)) || p.2.mqueue.any (fun m => decide (m.owner = o)))
  || s.clusters.any (fun p => (match p.2.run with
      | some r => decide (r.cmd.owner = o)
      | none => false) || (match p.2.wbload with
      | some r => decide (r.owner = o)
      | none => false))

/-- A head can be placed at an origin now, beside the clusters that higher heads of its tenant block. A suspended launch
waits for its engine commands (R183). -/
def State.candidate (s : State) (l : Launch) (blocked : List (Nat × Nat)) (o : Nat) : Bool :=
  s.originFits l o && (s.meshHere l o).all (fun c => ! s.occupied c && ! blocked.contains (l.ten, c)) && (s.layout l o).isSome
    && ! l.saved.any (fun p => s.enginesBusy (l.ten, l.ctxid, p.1))

/-- The first origin at which a head can be placed now. -/
def State.placeable (s : State) (l : Launch) (blocked : List (Nat × Nat)) : Option Nat :=
  (upTo 0 256).find? (s.candidate l blocked)

/-- The clusters that a head which cannot be placed blocks: those of its first-fit origin. -/
def State.blocks (s : State) (h : Launch) : List (Nat × Nat) :=
  match s.firstFit h with
  | some o => (s.meshHere h o).map (fun c => (h.ten, c))
  | none => []

/-- The first ranked head that can be placed, with its origin. -/
def State.choose (s : State) (l : List Launch) (blocked : List (Nat × Nat)) : Option (Launch × Nat) :=
  match l with
  | [] => none
  | h :: r =>
    match s.placeable h blocked with
    | some o => some (h, o)
    | none => s.choose r (blocked ++ s.blocks h)

/-- The head of the ranking that a share of this module names, where the agents of the other modules can place it at the
share's origin, and this module too (R101). (Mark: DESIGN CHOICE, unsafe, log 25) -/
def State.chooseAt (s : State) (h : LaunchShare) (l : List Launch) (blocked : List (Nat × Nat)) : Option (Launch × Nat) :=
  match l with
  | [] => none
  | a :: r =>
    if a.ctxid = h.ctxid ∧ a.ten = h.ten.toNat then
      if s.candidate a blocked h.origin.toNat then some (a, h.origin.toNat) else none
    else s.chooseAt h r (if (s.placeable a blocked).isSome then blocked else blocked ++ s.blocks a)

/-! ## Tiles and banks of a resumed thread (09 R186, R187) -/

/-- Offset of a launch's first or second bank in its save area (17 R333). -/
def bankOffset (second : Bool) : W64 := if second then 65536 else 0

/-- The words of a bank as it is saved: 4,096 elements, four words of the map, FLAGS (R187, 17 R333). -/
def Bank.saved (b : Bank) : List Byte :=
  (upTo 0 4096).flatMap (fun i => leBytes 8 (Tab.get b.elems 0 i).toNat)
    ++ (upTo 0 4).flatMap (fun w => leBytes 8
      ((upTo 0 16).foldl (fun acc r => acc + Tab.get b.map (r % 16) (16 * w + r) % 16 * 16 ^ r) 0))
    ++ leBytes 8 b.flags.toNat

/-- A launch's accumulator bank goes to the address in its latch; none where that is 0 or does not lead to plain memory that is
writable. -/
def State.writeBank (s : State) (ten : Nat) (b : Bank) : Option State :=
  if b.latch = 0 then none
  else s.tenWrite ten (b.latch + bankOffset b.second) b.saved

/-- Change one bank of a cluster. -/
def Cluster.setBank (k : Cluster) (i : Nat) (b : Bank) : Cluster := if i = 0 then { k with bank0 := b } else { k with bank1 := b }
/-- A bank of a cluster. -/
def Cluster.bank (k : Cluster) (i : Nat) : Bank := if i = 0 then k.bank0 else k.bank1

/-- The banks of a launch on a cluster that it does not return to are written out. One that cannot be written stays there as a
shadow bank, and its reload stops the launch's matrix instructions with ENGINE_FAULT (R187).
(Mark: DESIGN CHOICE, safe, log 31) -/
def State.leaveBanks (s : State) (l : Launch) (cl num : Nat) : State :=
  (upTo 0 2).foldl (fun u i =>
    let b := (u.clusterAt cl).bank i
    if b.holder ≠ some (l.ten, l.ctxid) then u
    else
      let out := fun (t : State) => t.updLaunch l.ten l.ctxid (fun m => { m with
        evicted := (num, b.second, (u.clusterAt cl).active.contains (l.ten, l.ctxid, i)) :: m.evicted })
      match u.writeBank l.ten b with
      | none => out u
      | some t =>
        let v := out t
        let k := (v.clusterAt cl).setBank i Bank.reset
        v.setCluster cl { k with active := k.active.filter (fun a => a != (l.ten, l.ctxid, i)) }) s

/-- The address of a thread's spill area. -/
def spillVa (l : Launch) (lc : Nat) : W64 := l.spillb + w64 (2 ^ 18 * lc)

/-- The slot of a core that holds a suspended thread. -/
def Core.slotOf (k : Core) (ten : Nat) (ctxid : W32) (lc : Nat) : Option Nat :=
  (k.slots.find? (fun p => decide (p.2.ten = ten ∧ p.2.ctxid = ctxid ∧ p.2.lcore = lc))).map (fun p => p.1)

/-- The tiles of a slot that are still on the core go to the spill area, and the slot is free. -/
def State.flushSlot (s : State) (c n : Nat) : State :=
  let mine := (s.coreAt c).holders.filter (fun p => decide (p.2 = .slot n))
  let s1 := mine.foldl (fun u p => u.spillTile c n p.1) s
  let k := s1.coreAt c
  s1.setCore c { k with holders := k.holders.filter (fun p => ! decide (p.2 = .slot n)), slots := Tab.drop k.slots n }

/-- The tiles of a resumed thread: taken back where the core still holds them; the others are loaded at their first access.
(Mark: DESIGN CHOICE, safe, log 31) -/
def State.takeTiles (s : State) (l : Launch) (lc c : Nat) (z : SavedThread) : State :=
  let s0 := if z.core = c then s
    else match (s.coreAt z.core).slotOf l.ten l.ctxid lc with
      | some n => s.flushSlot z.core n
      | none => s
  let k := s0.coreAt c
  let back : List Nat := match k.slotOf l.ten l.ctxid lc with
    | some n => (k.holders.filter (fun (p : Nat × Holder) => decide (p.2 = .slot n))).map (fun p => p.1)
    | none => []
  let k1 : Core := { k with
    holders := k.holders.map (fun p => if back.contains p.1 then (p.1, Holder.running) else p),
    slots := match k.slotOf l.ten l.ctxid lc with
      | some n => Tab.drop k.slots n
      | none => k.slots,
    spilled := z.tiles.filter (fun t => ! back.contains t), spillAt := spillVa l lc }
  s0.setCore c k1

/-! ## The overflow area of messages (03 R61) -/

/-- VA of a slot of a core's overflow area (06 R96). -/
def State.overflowVa (s : State) (c slot : Nat) : Option (Nat × W64) :=
  match (s.coreAt c).thread with
  | some (t, i, l) => (s.launchBy t i).map (fun n => (t, n.ovfbase + w64 (65536 * l + 64 * slot)))
  | none => none

/-- A message is written to a slot of the core's overflow area in memory; where the area is not writable, its bytes stay with
the core. (Mark: DESIGN CHOICE, unsafe, log 28; DEDUCED, unsafe, log 88) -/
def State.spillMessage (s : State) (c slot : Nat) (m : Msg) : State × Msg :=
  match s.overflowVa c slot with
  | some (t, va) => (match s.tenWrite t va m.bytes with
    | some u => (u, { m with slot := some slot })
    | none => (s, { m with slot := none }))
  | none => (s, { m with slot := none })

/-- A message of the overflow area as it stands in memory. (Mark: DEDUCED, unsafe, log 88) -/
def State.fetchMessage (s : State) (c : Nat) (m : Msg) : Msg :=
  match m.slot with
  | some slot => (match s.overflowVa c slot with
    | some (t, va) => (match s.tenRead t va 64 with
      | some b => { m with bytes := b, slot := none }
      | none => { m with slot := none })
    | none => { m with slot := none })
  | none => m

/-- The slot behind the last message of an overflow area. -/
def nextSlot (l : List Msg) : Nat := match l.getLast? with
  | some m => (match m.slot with
    | some n => (n + 1) % 1024
    | none => 0)
  | none => 0

/-- The receive queue refills from the overflow area, in arrival order; `n` bounds the messages.
(Mark: DEDUCED, unsafe, log 88) -/
def State.refillQueue (s : State) (c n : Nat) : State :=
  match n with
  | 0 => s
  | i + 1 =>
    let k := s.coreAt c
    match k.overflow with
    | m :: r =>
      if k.recvq.length < 64 then
        (s.setCore c { k with recvq := k.recvq ++ [s.fetchMessage c m], overflow := r }).refillQueue c i
      else s
    | [] => s

/-- The receive queue spills ahead of the overflow area; a message that finds no slot there stays with the core.
(Mark: DEDUCED, unsafe, log 88) -/
def State.spillQueue (s : State) (c : Nat) : State :=
  let k := s.coreAt c
  let n := k.recvq.length
  let head := match k.overflow with
    | m :: _ => (m.slot.getD n) + 1024 - n
    | [] => 0
  let (s1, l) := (indexed 0 k.recvq).foldl (fun (acc : State × List Msg) p =>
    if n + k.overflow.length ≤ 1024 then
      let r := acc.1.spillMessage c ((head + p.1) % 1024) p.2
      (r.1, acc.2 ++ [r.2])
    else (acc.1, acc.2 ++ [p.2])) (s, [])
  s1.setCore c { s1.coreAt c with recvq := [], overflow := l ++ k.overflow }

/-! ## Starting threads (06 R105) -/

/-- A core as a thread finds it at placement: TVEC and HCHAIN, which are the core's, as they stand, its other registers at
reset, the tiles of other threads and the engine commands of suspended ones left as they are. (Mark: DEDUCED, unsafe, log 80) -/
def Core.fresh (k : Core) (owner : Nat × W32 × Nat) (l : Launch) (prevec : W64) : Core :=
  let k1 : Core := { Core.reset with
    thread := some owner, tvec := k.tvec, hchain := k.hchain, partw := l.partw, pvec := prevec, tlb := k.tlb, icache := k.icache, turn := k.turn,
    holders := k.holders.filter (fun p => match p.2 with
      | .slot _ => true
      | _ => false),
    slots := k.slots, inbox := k.inbox, injq := k.injq, copyTag := k.copyTag, mqueue := k.mqueue,
    copies := k.copies.filter (fun m => m.state == 1) }
  { k1 with eTiles := upTo k1.scratch (16 * k1.nacc) }

/-- The control context of a new thread. (Mark: DEDUCED, unsafe, log 27) -/
def startCtx (l : Launch) : Ctx :=
  { Ctx.reset with
    live := true, pc := l.entry, status := statusStart 0, dlev := BitVec.ofNat 3 (l.nlev - 1),
    x := (9, l.recVa) :: (upTo 0 8).filterMap (fun i => some (10 + i, l.arg i)) }

/-- ESTH.CORE names the core of the registered context: its thread has come to another (10 R206). -/
def State.moveHandler (s : State) (ten : Nat) (ctxid : W32) (lc c : Nat) : State :=
  let n := s.tenantAt ten
  if n.registered ctxid lc then s.setTenant ten { n with esth := putBits n.esth 0 12 c } else s

/-- A thread takes its core: a new one starts, a suspended one waits for its resumption, and one that is over holds the
core. (Mark: DEDUCED, unsafe, log 27) -/
def State.startThread (s : State) (l : Launch) (again : Bool) (lc c : Nat) : State :=
  let s1 := s.setCore c ((s.coreAt c).fresh (l.ten, l.ctxid, lc) l s.prevec)
  match Tab.find l.saved lc with
  | some z =>
    let s2 := s1.takeTiles l lc c z
    let s3 := s2.setCore c { s2.coreAt c with saving := some (1, z.handler), bm := z.bm, arr := z.arr, recvq := [],
                                              overflow := z.messages }
    (s3.refillQueue c 64).moveHandler l.ten l.ctxid lc c
  | none => if again then s1 else s1.setCtx c 0 (startCtx l)

/-- Shadow banks of a launch become its own again on the clusters it returns to, and evicted ones are marked for
reload; on clusters it has left they are written out. -/
def State.placeBanks (s : State) (l : Launch) (old new : List Nat) : State :=
  let s1 := (indexed 0 old).foldl (fun u p =>
    if nth new 256 p.1 = p.2 then
      let k := u.clusterAt p.2
      let own := fun (b : Bank) => if b.holder = some (l.ten, l.ctxid) then { b with shadow := none } else b
      u.setCluster p.2 { k with bank0 := own k.bank0, bank1 := own k.bank1 }
    else u.leaveBanks l p.2 p.1) s
  let ev := match s1.launchBy l.ten l.ctxid with
    | some m => m.evicted
    | none => []
  ev.foldl (fun u (e : Nat × Bool × Bool) =>
    let cl := nth new 256 e.1
    let k := u.clusterAt cl
    u.setCluster cl { k with reload := (l.ten, l.ctxid, e.2) :: k.reload.filter (fun r => r != (l.ten, l.ctxid, e.2)) }) s1

/-- The records of a resumed launch wait at the clusters that have the placement numbers of those they waited at: queued, and
in the overflow as far as they lie there. (Mark: DEDUCED, unsafe, log 114) -/
def State.placeRecords (s : State) (l : Launch) (mesh : List Nat) : State :=
  l.records.foldl (fun (u : State) (e : Nat × ContEnt) =>
    let cl := nth mesh 0 e.1
    let k := u.clusterAt cl
    u.setCluster cl (if e.2.slot.isSome then { k with contovf := k.contovf ++ [e.2] } else { k with contq := k.contq ++ [e.2] })) s

/-- Place a launch at an origin. (Mark: DESIGN CHOICE, unsafe, log 25) -/
def State.placeLaunch (s : State) (l : Launch) (o : Nat) : State :=
  let lv := s.level l.prio l.since
  let used := match Tab.find s.lastTen lv with
    | some v => if v % 16 = l.ten ∧ v / 16 < bitsAt (s.tenantAt l.ten).hwt 0 4 then v / 16 + 1 else 1
    | none => 1
  let again := l.placedAt.isSome
  let s0 := { s with lastTen := Tab.set s.lastTen lv (l.ten + 16 * used) }
  let s1 := (s.meshHere l o).foldl (fun (u : State) c => u.setCluster c { u.clusterAt c with accsv := 0 }) s0
  let s2 := if again then (s1.placeBanks l (s.meshHere l l.origin) (s.meshHere l o)).placeRecords l (s.meshHere l o) else s1
  let s3 := match s2.layout l o with
    | some t =>
      (t.filter (fun (p : Nat × Nat × Nat) => p.2.1 == s2.modid)).foldl
        (fun (u : State) (p : Nat × Nat × Nat) => u.startThread l again p.1 p.2.2) s2
    | none => s2
  s3.updLaunch l.ten l.ctxid (fun m => { m with state := .placed, origin := o, placedAt := some s.now, evicted := [], records := [] })

/-- The queue number of a launch that another module dispatched: none of this module's queues. -/
def farQueue (src : BitVec 6) : Nat := 2 ^ 20 + src.toNat

/-- The launch of which a share is this module's part: new, or suspended here since an earlier placement.
(Mark: DESIGN CHOICE, unsafe, log 25) -/
def State.shareLaunch (s : State) (h : LaunchShare) : Option Launch :=
  match s.launchBy h.ten.toNat h.ctxid with
  | some l => if l.queue = farQueue h.src ∧ l.state = .queued ∧ l.held = false ∧ l.ended = none then some l else none
  | none =>
    if h.ctxid = 0 ∨ s.launches.any (fun l => l.ctxid == h.ctxid) ∨ s.kills.any (fun k => k.ctxid == h.ctxid) then none
    else some
      { ten := h.ten.toNat, ctxid := h.ctxid, record := h.record, recVa := h.recVa, prio := 0, sub := none,
        queue := farQueue h.src, state := .queued, since := s.now, origin := 0, placedAt := none, ended := none,
        faulted := false, held := false, saved := [], evicted := [], records := [], finished := [] }

/-- This module can place its part of a launch at an origin. (Mark: DESIGN CHOICE, unsafe, log 25) -/
def State.canShare (s : State) (l : Launch) (src : BitVec 6) (o : Nat) : Bool :=
  decide (src.toNat ≠ s.modid) && (s.modsOf l).contains s.modid && ! l.malformed && ! s.rejects l && s.originFits l o && (s.layout l o).isSome
    && (meshAt o l.mw l.mh).all (fun c => ! s.occupied c) && ! l.saved.any (fun p => s.enginesBusy (l.ten, l.ctxid, p.1))

/-- Place this module's part of a launch that another module dispatched (R101). (Mark: DESIGN CHOICE, unsafe, log 25) -/
def State.placeShare (s : State) (h : LaunchShare) : State :=
  match s.shareLaunch h with
  | none => s
  | some l =>
    if ! s.canShare l h.src h.origin.toNat then s
    else
      let s1 := if (s.launchBy l.ten l.ctxid).isSome then s else { s with launches := s.launches ++ [l] }
      { s1.placeLaunch l h.origin.toNat with lastTen := s.lastTen }

/-- LAUNCH_PLACE: the highest head that can be placed, at its first candidate origin; where the share is of a launch of this
module, at the candidate that every module can place it at (R101); else this module's part of another module's launch. -/
def execLaunchPlace (far : Option LaunchShare) (s : State) : Out :=
  if ! s.awake then .next s
  else match far with
    | some h =>
      if h.src.toNat ≠ s.modid then .next (s.placeShare h)
      else match s.chooseAt h s.ranked [] with
        | some (l, o) => .next (s.placeLaunch l o)
        | none => .next s
    | none => match s.choose s.ranked [] with
      | some (l, o) => .next (s.placeLaunch l o)
      | none => .next s

/-! ## Pre-emption (06 R104; 09 R183) -/

/-- The context that saves a core's thread: the control context, or the lowest live one. -/
def Core.saver (k : Core) : Option Nat := (k.ctxs.find? (fun p => p.2.live)).map (fun p => p.1)

/-- The cores that hold threads of a launch. -/
def State.coresOf (s : State) (l : Launch) : List Nat :=
  (s.cores.filter (fun p => match p.2.thread with
    | some (t, i, _) => decide (t = l.ten ∧ i = l.ctxid)
    | none => false)).map (fun p => p.1)

/-- A thread that is over leaves its core. (Mark: DEDUCED, unsafe, log 93) -/
def Core.vacate (k : Core) : Core :=
  { k with ctxs := k.ctxs.filter (fun p => p.2.live), thread := none,
           holders := k.holders.filter (fun p => ! decide (p.2 = .running)), eTiles := [], badTiles := [], spilled := [] }

/-- A core whose thread is over is left: its committed stores are performed, and it waits for the reply stores that are
due (08 R150). (Mark: DEDUCED, unsafe, log 93) -/
def State.leaveCore (s : State) (c : Nat) : State :=
  let k := s.coreAt c
  if k.anyLive || k.saving.isSome || k.ctxs.any (fun p => ! p.2.amodReply.isEmpty) then s
  else
    let s1 := s.drainCore c
    s1.setCore c (s1.coreAt c).vacate

/-- The continuation records that wait at clusters of a launch, by placement number (R108). -/
def State.recordsAt (s : State) (l : Launch) : List (Nat × ContEnt) :=
  (indexed 0 (s.meshHere l l.origin)).flatMap (fun p =>
    (((s.clusterAt p.2).contq ++ (s.clusterAt p.2).contovf).filter (fun r => decide (r.ctxid = l.ctxid ∧ r.ten = l.ten))).map
      (fun r => (p.1, r)))

/-- When every thread of a victim has left its core, the launch is suspended: it waits for RESUME, or re-enters its queue
with a new wait; its continuation records go with it. (Mark: DEDUCED, unsafe, log 93; DEDUCED, unsafe, log 115) -/
def State.settleVictim (s0 : State) (ten : Nat) (ctxid : W32) : State :=
  match s0.launchBy ten ctxid with
  | none => s0
  | some l =>
    if l.state ≠ .victim then s0
    else
      let s := (s0.coresOf l).foldl State.leaveCore s0
      if ! (s.coresOf l).isEmpty then s
      else
        let m := { l with state := if l.held then .suspended else .queued, since := s.now, records := s.recordsAt l }
        let rest := s.launches.filter (fun k => ! decide (k.ten = ten ∧ k.ctxid = ctxid))
        let mine := fun (r : ContEnt) => decide (r.ctxid = ctxid ∧ r.ten = ten)
        (s.meshHere l l.origin).foldl (fun u cl =>
          let k := u.clusterAt cl
          let sh := fun (b : Bank) => if b.holder = some (ten, ctxid) then { b with shadow := some s.now } else b
          u.setCluster cl { k with bank0 := sh k.bank0, bank1 := sh k.bank1, busyAt := s.now,
                                   contq := k.contq.filter (fun r => ! mine r), contovf := k.contovf.filter (fun r => ! mine r) })
          { s with launches := rest ++ [m] }

/-- A launch that is being killed: a pre-emption of it has no effect (09 R188). -/
def State.dying (s : State) (l : Launch) : Bool :=
  l.ended.isSome || s.kills.any (fun k => decide (k.ten = l.ten ∧ k.ctxid = l.ctxid))

/-- Pre-empt a launch here: PREEMPT becomes pending at each thread's saving context.
(Mark: DEDUCED, unsafe, log 93; DEDUCED, unsafe, log 115) -/
def State.preemptHere (s : State) (l : Launch) (held : Bool) : State :=
  if s.dying l then s
  else
    let s1 := s.updLaunch l.ten l.ctxid (fun m => { m with state := .victim, held := held })
    ((s1.coresOf l).foldl (fun u c =>
      match (u.coreAt c).saver with
      | some h => (u.setCore c { u.coreAt c with saving := some (0, h) }).postAsync c h 0x19 0
      | none => u) s1).settleVictim l.ten l.ctxid

/-- Pre-empt a launch; one that spans modules on every module (R104): the others are told on stream 5.
(Mark: DESIGN CHOICE, unsafe, log 33; DEDUCED, unsafe, log 41) -/
def State.preempt (s : State) (l : Launch) (held : Bool) : State :=
  if s.dying l then s
  else ((s.modsOf l).filter (fun m => m != s.modid)).foldl (fun (u : State) m =>
    let b : Body := { op := .preempt, ctxid := l.ctxid }
    u.sendPacket { src := BitVec.ofNat 6 u.modid, dst := BitVec.ofNat 6 m, ten := BitVec.ofNat 4 l.ten, stream := 5, body := b })
    (s.preemptHere l held)

/-- Another module pre-empts a launch of which a part is placed here. (Mark: DESIGN CHOICE, unsafe, log 33) -/
def State.farPreempt (s : State) (ten : Nat) (ctxid : W32) : State :=
  match s.launchBy ten ctxid with
  | some l => if l.state = .placed ∧ s.prevec ≠ 0 then s.preemptHere l false else s
  | none => s

/-- A launch may be a victim of a tenant's head: it has run for 8 ageing intervals since its last placement, and is not
being killed. (Mark: DEDUCED, unsafe, log 41; DEDUCED, unsafe, log 110) -/
def State.eligible (s : State) (v : Launch) : Bool :=
  decide (v.state = .placed) && ! s.dying v && (match v.placedAt with
    | some t => decide (s.now ≥ t + 8 * s.age)
    | none => false)

/-- The launches whose pre-emption frees a head's sub-mesh at an origin; none where a cluster there is halted, or one of them
is another tenant's or may not be pre-empted yet. (Mark: DEDUCED, unsafe, log 41) -/
def State.victimsAt (s : State) (h : Launch) (o : Nat) : Option (List Launch) :=
  let mesh := s.meshHere h o
  let l := s.launches.filter (fun v => (s.clustersOf v).any (fun c => mesh.contains c))
  if ! s.originFits h o || (s.layout h o).isNone || mesh.any (fun c => (s.clusterAt c).halted)
      || l.any (fun v => v.ten != h.ten || ! s.eligible v) then none
  else some l

/-- The order in which victims are chosen: the lowest PRIO, then the earliest placement. (Mark: DEDUCED, unsafe, log 41) -/
def Launch.before (a b : Launch) : Bool :=
  decide (a.prio < b.prio ∨ (a.prio = b.prio ∧ a.placedAt.getD 0 < b.placedAt.getD 0))

/-- The victims of a head (R104): of the sets that free a sub-mesh for it, those with the launch that is chosen first; of
them the smallest, at the lowest origin. (Mark: DEDUCED, unsafe, log 41) -/
def State.victims (s : State) (h : Launch) : List Launch :=
  let sets := (upTo 0 256).filterMap (s.victimsAt h)
  let all := sets.flatMap id
  match all.find? (fun v => all.all (fun w => ! w.before v)) with
  | none => []
  | some v =>
    let mine := sets.filter (fun l => l.any (fun w => w.ctxid == v.ctxid))
    (mine.find? (fun l => mine.all (fun m => decide (l.length ≤ m.length)))).getD []

/-- A head has stood at level 7 for a further ageing interval and cannot be placed. -/
def State.overdue (s : State) (h : Launch) : Bool :=
  decide (s.now ≥ h.since + (8 - h.prio) * s.age) && (s.placeable h []).isNone

/-- PREEMPT_VICTIM: the victims of the first head that needs them (R104). (Mark: DEDUCED, unsafe, log 41) -/
def execPreemptVictim (s : State) : Out :=
  if s.prevec = 0 then .next s
  else match s.ranked.find? (fun h => s.overdue h && ! (s.victims h).isEmpty) with
    | some h => .next ((s.victims h).foldl (fun u v => u.preempt v false) s)
    | none => .next s

/-! ## The end of a save and of a restore (09 R183, PRECTL) -/

/-- The slot for a thread that is suspended on a core: a free one of the 8, else the oldest's after its tiles have gone
out. -/
def State.takeSlot (s : State) (c : Nat) : Nat × State :=
  let k := s.coreAt c
  match (upTo 0 8).find? (fun n => (Tab.find k.slots n).isNone) with
  | some n => (n, s)
  | none =>
    match k.slots.find? (fun p => k.slots.all (fun q => decide (p.2.since ≤ q.2.since))) with
    | some p => (p.1, s.flushSlot c p.1)
    | none => (0, s)

/-- The save of a core's thread is done: what its contexts have stored is performed, the receive queue spills ahead of the
overflow, the tiles take the thread's slot, and the core is free. (Mark: DEDUCED, unsafe, log 27) -/
def State.saveDone (s : State) (c h : Nat) : State :=
  match (s.coreAt c).thread with
  | none => s
  | some (ten, ctxid, lc) =>
    let (n, s1) := ((s.drainCore c).spillQueue c).takeSlot c
    let k := s1.coreAt c
    let run := (k.holders.filter (fun p => decide (p.2 = .running))).map (fun p => p.1)
    let z : SavedThread :=
      { handler := h, core := c, tiles := run ++ k.spilled, masks := Tab.mapV k.ctxs (fun _ x => x.k),
        messages := k.overflow, bm := k.bm, arr := k.arr,
        stopped := (k.ctxs.filter (fun p => p.2.live && p.2.stopped)).map (fun p => p.1) }
    let spill := match s.launchBy ten ctxid with
      | some l => l.spillb
      | none => 0
    let slot : Suspended :=
      { ten := ten, ctxid := ctxid, lcore := lc, spill := spill, since := s.now, partw := k.partw, rings := k.rings,
        eTiles := k.eTiles, badTiles := k.badTiles, awd := k.awd }
    let k1 : Core := { Core.reset with
      tvec := k.tvec, hchain := k.hchain, tlb := k.tlb, icache := k.icache, turn := k.turn, inbox := k.inbox, injq := k.injq,
      copyTag := k.copyTag, mqueue := k.mqueue, copies := k.copies.filter (fun m => m.state == 1),
      holders := k.holders.map (fun p => if decide (p.2 = .running) then (p.1, Holder.slot n) else p),
      slots := Tab.set k.slots n slot }
    let s2 := (s1.setCore c k1).updLaunch ten ctxid (fun m => { m with saved := Tab.set m.saved lc z })
    s2.settleVictim ten ctxid

/-- The restore of a core's thread is done: what its contexts were still to receive is delivered. A context that was stopped
by a fault in handler code is stopped again, and the time that TR may be 1 starts anew (09 R180).
(Mark: DEDUCED, unsafe, log 27; DEDUCED, unsafe, log 80) -/
def State.restoreDone (s : State) (c : Nat) : State :=
  match (s.coreAt c).thread with
  | none => s
  | some (ten, ctxid, lc) =>
    let mine := fun (d : Deferred) => decide (d.ten = ten ∧ d.ctxid = ctxid ∧ d.lcore = lc)
    let halt := match (s.launchBy ten ctxid).bind (fun l => Tab.find l.saved lc) with
      | some z => z.stopped
      | none => []
    let k := s.coreAt c
    let wake := fun (i : Nat) (x : Ctx) => { x with trSince := s.now, stopped := x.live && halt.contains i,
                                                    stall := if x.live && halt.contains i then 15 else x.stall }
    let s1 := (s.setCore c { k with saving := none, ctxs := Tab.mapV k.ctxs wake }).updLaunch ten ctxid
      (fun m => { m with saved := Tab.drop m.saved lc })
    (s.deferred.filter mine).foldl (fun u d =>
      let v := match d.async with
        | some a => if asyncPlace a.cause = 0x08 then u.reportAt c d.ctx a else u.postAsync c d.ctx a.cause.toNat a.val
        | none => u
      let w := if d.flags = 0 then v else v.setCtx c d.ctx ((v.ctxAt c d.ctx).orFlags d.flags)
      match d.ui with
      | some e => w.postUi c d.ctx e.src.toNat e.tag.toNat
      | none => w) { s1 with deferred := s.deferred.filter (fun d => ! mine d) }

/-- What a context of a thread that is being saved has to finish is done (R183): it stands at its boundary, or has been
stopped, and no reply store of it is due. -/
def Ctx.atRest (x : Ctx) : Bool := x.amodReply.isEmpty && (! x.live || x.stopped || (decide (x.stall = 0) && x.pends.isEmpty))

/-- Every context of a core's thread but the handler's has stopped, and its vector queue has drained. -/
def Core.atRest (k : Core) (h : Nat) : Bool :=
  k.ctxs.all (fun p => if p.1 = h then p.2.amodReply.isEmpty else p.2.atRest) && k.vq.isEmpty

/-- PRECTL: DONE ends the save or the restore of the thread that the writing context handles. A write by another context is
refused. -/
def State.prectl (s : State) (c x : Nat) (v : W64) : State :=
  match (s.coreAt c).saving with
  | some (k, h) =>
    if h ≠ x then s.setCore c { s.coreAt c with cxerr := true }
    else if ! bitOn v 0 then s
    else if k ≠ 0 then s.restoreDone c
    else if (s.coreAt c).atRest h then s.saveDone c h
    else s
  | none => s.setCore c { s.coreAt c with cxerr := true }

/-- A save whose handler says that it is done waits for what the thread's contexts have still to finish.
(Mark: DEDUCED, unsafe, log 27) -/
def State.saveWaits (s : State) (c x : Nat) (v : W64) : Bool :=
  bitOn v 0 && decide ((s.coreAt c).saving = some (0, x)) && ! (s.coreAt c).atRest x

/-- PRECTL_WRITE. (Mark: DESIGN CHOICE, safe, log 91) -/
def execPrectlWrite (core ctx : Nat) (v : BitVec 64) (s : State) : Out :=
  if (s.ctxAt core ctx).live && decide ((s.ctxAt core ctx).pl ≥ 1) then .next (s.prectl core ctx v) else .next s

/-- THREAD_RESUME: a context starts at PVEC, at PL 1, in a trap whose TCAUSE is 0x119 and whose TVAL is 1. -/
def execThreadResume (core : Nat) (s : State) : Out :=
  let k := s.coreAt core
  match k.saving, k.thread with
  | some (1, h), some (ten, ctxid, lc) =>
    if k.anyLive || s.enginesBusy (ten, ctxid, lc) then .next s
    else
      let masks : Tab (Tab (BitVec 256)) := match s.launchBy ten ctxid with
        | some l => match Tab.find l.saved lc with
          | some z => z.masks
          | none => []
        | none => []
      let s1 := masks.foldl (fun u p => u.setCtx core p.1 { u.ctxAt core p.1 with k := p.2 }) s
      let x := s1.ctxAt core h
      .next (s1.setCtx core h { x with
        live := true, kind := if h = 0 then .control else .helper, pc := k.pvec, status := handlerStatus (statusStart 0),
        tcause := 0x119, tval := 1, trSince := s.now })
  | _, _ => .next s

/-! ## Reaching stopped contexts: CXSEL and CXDATA (09 R184) -/

/-- The context that CXSEL selects, where the handler may reach it: of the thread being saved or restored, stopped, or
the handler's own. (Mark: DEDUCED, unsafe, log 26) -/
def State.cxReach (s : State) (c : Nat) : Option Nat :=
  let k := s.coreAt c
  match k.saving with
  | none => none
  | some (_, h) =>
    let i := k.cxctx.toNat
    if i > 10 then none
    else if i = h then some i
    else
      let x := s.ctxAt c i
      if ! x.live || x.stopped || (decide (x.stall = 0) && x.pends.isEmpty) then some i else none

/-- Pack a ring descriptor (07 R126). -/
def Ring.toW64 (r : Ring) : W64 :=
  w64 (r.base % 256 + r.slott % 32 * 2 ^ 8 + r.nslot % 256 * 2 ^ 16 + r.prod % 256 * 2 ^ 24 + r.cons % 256 * 2 ^ 32
    + r.fill % 512 * 2 ^ 40 + b2n r.pside * 2 ^ 49 + b2n r.cside * 2 ^ 50 + b2n r.peer * 2 ^ 51)

/-- Unpack a ring descriptor. -/
def Ring.ofW64 (v : W64) : Ring :=
  { base := bitsAt v 0 8, slott := bitsAt v 8 5, nslot := bitsAt v 16 8, prod := bitsAt v 24 8, cons := bitsAt v 32 8,
    fill := bitsAt v 40 9, pside := bitOn v 49, cside := bitOn v 50, peer := bitOn v 51 }

/-- UISTAT (09 R181). -/
def Ctx.uistat (x : Ctx) : W64 :=
  match x.uiq with
  | [] => w64 (b2n x.uiovf * 2 ^ 15)
  | e :: _ => w64 (e.src.toNat + x.uiq.length * 2 ^ 4 + b2n x.uiovf * 2 ^ 15 + e.tag.toNat * 2 ^ 16)

/-- 64 bits of a set of tiles from tile `t`. -/
def tileBits (l : List Nat) (t : Nat) : W64 :=
  w64 ((upTo 0 64).foldl (fun n i => if l.contains (t + i) then n + 2 ^ i else n) 0)

/-- Replace 64 bits of a set of tiles from tile `t`; tiles are 0 to 253. -/
def setTileBits (l : List Nat) (t : Nat) (v : W64) : List Nat :=
  l.filter (fun i => ! decide (t ≤ i ∧ i < t + 64))
    ++ ((upTo 0 64).filter (fun i => bitOn v i && decide (t + i < 254))).map (fun i => t + i)

/-- Items 0 to 79 of a context. A user-interrupt entry is its source in [3:0] and its tag in [63:16].
(Mark: DEDUCED, unsafe, log 26) -/
def Ctx.item (x : Ctx) (i : Nat) : Option W64 :=
  if i < 32 then some (if i = 0 then 0 else Tab.get x.x 0 i)
  else if 42 ≤ i ∧ i < 50 then some (Tab.get x.shadow 0 (24 + (i - 42)))
  else if 64 ≤ i ∧ i < 80 then
    some (match x.uiq.drop (i - 64) with
      | e :: _ => w64 (e.src.toNat + e.tag.toNat * 2 ^ 16)
      | [] => 0)
  else match i with
    | 32 => some x.pc
    | 33 => some x.status
    | 34 => some x.tstatus
    | 35 => some x.taddr
    | 36 => some x.tcause
    | 37 => some x.tval
    | 38 => some x.uivec
    | 39 => some x.uistat
    | 40 => some x.uiaddr
    | 41 => some x.rndctr
    | 50 => some (w64 (b2n x.live + 2 * b2n x.joining))
    | 51 => some (zext x.vgrant)
    | 52 => some (zext x.dlev)
    | _ => none

/-- HCHAIN without its reserved bits. -/
def hchainMask (v : W64) : W64 :=
  w64 ((upTo 0 4).foldl (fun a i => a + bitsAt v (16 * i) 13 * 2 ^ (16 * i)) 0)

/-- An AWD write is discarded: RND 7, or scales on a format that has none. -/
def badAwd (v : W64) : Bool := decide (bitsAt v 5 3 = 7) || (bitOn v 3 && ! decide (3 ≤ bitsAt v 0 3 ∧ bitsAt v 0 3 ≤ 6))

/-- AWD with its reserved bits 0. -/
def maskAwd (v : W64) : W64 := w64 (bitsAt v 0 9 + bitsAt v 16 12 * 2 ^ 16 + bitsAt v 32 12 * 2 ^ 32)

/-- TCAUSE after a write: reserved bits read 0, and a write of a code that no cause has is discarded (09 R172).
(Mark: DEDUCED, unsafe, log 26) -/
def writeTcause (old v : W64) : W64 := if bitsAt v 0 8 ≥ 0x1D then old else w64 (bitsAt v 0 10)

/-- STATUS as a handler restores it: reserved bits read 0, PL 3 is never read, and the rounding codes 5 and 7 are never
written (09 R170). (Mark: DEDUCED, unsafe, log 26) -/
def restoreStatus (old v : W64) : W64 :=
  let v1 := if bitsAt v 2 2 = 3 then putBits v 2 2 (bitsAt old 2 2) else v
  let v2 := if bitsAt v 8 3 = 5 ∨ bitsAt v 8 3 = 7 then putBits v1 8 3 (bitsAt old 8 3) else v1
  w64 (bitsAt (putBits v2 7 1 0) 0 21)

/-- A value of VGRANT: 0, or 16 to 256 in steps of 16 (06 R100). -/
def grantOk (v : W64) : Bool := decide (v.toNat ≤ 256 ∧ v.toNat % 16 = 0)

/-- Write an item of a context. Entries of the user-interrupt queue are written in order from the first.
(Mark: DEDUCED, unsafe, log 26) -/
def Ctx.setItem (x : Ctx) (i h : Nat) (v : W64) : Option Ctx :=
  if i < 32 then some (if i = 0 then x else { x with x := Tab.set x.x i v })
  else if 42 ≤ i ∧ i < 50 then some { x with shadow := Tab.set x.shadow (24 + (i - 42)) v }
  else if 64 ≤ i ∧ i < 80 then
    let e : UiEntry := { src := BitVec.ofNat 4 v.toNat, tag := BitVec.ofNat 48 (v.toNat / 2 ^ 16) }
    let at' := i - 64
    some (if e.src = 0 then { x with uiq := x.uiq.take at' }
      else if at' < x.uiq.length then { x with uiq := setNth x.uiq at' e }
      else { x with uiq := x.uiq ++ [e] })
  else match i with
    | 32 => some { x with pc := v }
    | 33 => some { x with status := restoreStatus x.status v }
    | 34 => some { x with tstatus := v }
    | 35 => some { x with taddr := v }
    | 36 => some { x with tcause := writeTcause x.tcause v }
    | 37 => some { x with tval := v }
    | 38 => some { x with uivec := putBits v 0 2 0 }
    | 39 => some { x with uiovf := bitOn v 15 }
    | 40 => some { x with uiaddr := v }
    | 41 => some { x with rndctr := v }
    | 50 => some { x with live := bitOn v 0, joining := bitOn v 1, kind := if h = 0 then .control else .helper }
    | 51 => some (if grantOk v then { x with vgrant := v.setWidth 9 } else x)
    | 52 => some { x with dlev := v.setWidth 3 }
    | _ => none

/-- Items 80 to 124 of a core. (Mark: DEDUCED, unsafe, log 26) -/
def State.coreItem (s : State) (c i : Nat) : Option W64 :=
  let k := s.coreAt c
  if 80 ≤ i ∧ i < 96 then some (Tab.get k.rings Ring.reset (i - 80)).toW64
  else if 96 ≤ i ∧ i < 103 then some (k.awdAt (i - 95))
  else if 104 ≤ i ∧ i < 112 then some (w64 (Tab.get k.vcnt 0 (i - 104)))
  else if 114 ≤ i ∧ i < 118 then some (tileBits k.eTiles (64 * (i - 114)))
  else if 118 ≤ i ∧ i < 122 then some (tileBits k.badTiles (64 * (i - 118)))
  else match i with
    | 112 => some (w64 k.tlive)
    | 113 => some (w64 k.tcnt)
    | 122 => some (s.clusterAt (clusterOf c)).accsv
    | 123 => some k.tvec
    | 124 => some k.hchain
    | _ => none

/-- The latch of every bank that the launch of a core holds takes ACCSV (09 R187). -/
def State.writeAccsv (s : State) (c : Nat) (v : W64) : State :=
  let cl := clusterOf c
  let k := s.clusterAt cl
  let w := putBits v 0 15 0
  let up := fun (b : Bank) => match (s.coreAt c).thread with
    | some (t, i, _) => if b.holder = some (t, i) then { b with latch := w } else b
    | none => b
  s.setCluster cl { k with accsv := w, bank0 := up k.bank0, bank1 := up k.bank1 }

/-- Write an item of a core. (Mark: DEDUCED, unsafe, log 26) -/
def State.setCoreItem (s : State) (c i : Nat) (v : W64) : Option State :=
  let k := s.coreAt c
  if 80 ≤ i ∧ i < 96 then some (s.setCore c { k with rings := Tab.set k.rings (i - 80) (Ring.ofW64 v) })
  else if 96 ≤ i ∧ i < 103 then some (if badAwd v then s else s.setCore c { k with awd := Tab.set k.awd (i - 95) (maskAwd v) })
  else if 104 ≤ i ∧ i < 112 then some (s.setCore c { k with vcnt := Tab.set k.vcnt (i - 104) v.toNat })
  else if 114 ≤ i ∧ i < 118 then some (s.setCore c { k with eTiles := setTileBits k.eTiles (64 * (i - 114)) v })
  else if 118 ≤ i ∧ i < 122 then some (s.setCore c { k with badTiles := setTileBits k.badTiles (64 * (i - 118)) v })
  else match i with
    | 112 => some (s.setCore c { k with tlive := v.toNat })
    | 113 => some (s.setCore c { k with tcnt := v.toNat })
    | 122 => some (s.writeAccsv c v)
    | 123 => some (s.setCore c { k with tvec := putBits v 0 2 0 })
    | 124 => some (s.setCore c { k with hchain := hchainMask v })
    | _ => none

/-- An access that is refused sets CXSEL.ERR. (Mark: DEDUCED, unsafe, log 26) -/
def State.cxRefuse (s : State) (c : Nat) : State := s.setCore c { s.coreAt c with cxerr := true }

/-- Read CXDATA: the item, or 0 with ERR set. -/
def State.cxRead (s : State) (c : Nat) : W64 × State :=
  let i := (s.coreAt c).cxsel.toNat
  let v := if (s.coreAt c).saving.isNone then none
    else if i ≥ 80 then s.coreItem c i
    else match s.cxReach c with
      | some x => (s.ctxAt c x).item i
      | none => none
  match v with
  | some w => (w, s)
  | none => (0, s.cxRefuse c)

/-- Write CXDATA. -/
def State.cxWrite (s : State) (c : Nat) (v : W64) : State :=
  let i := (s.coreAt c).cxsel.toNat
  let r := if (s.coreAt c).saving.isNone then none
    else if i ≥ 80 then s.setCoreItem c i v
    else match s.cxReach c with
      | some x => ((s.ctxAt c x).setItem i x v).map (fun y => s.setCtx c x (if i = 33 then { y with trSince := s.now } else y))
      | none => none
  match r with
  | some t => t
  | none => s.cxRefuse c

/-! ## Continuations (06 R107, R108) -/

/-- The home cluster on this module of a KEY, for a launch that holds clusters here. (Mark: DEDUCED, unsafe, log 114) -/
def homeOf (l : Launch) (key : W64) : Nat :=
  let mesh := meshAt l.origin l.mw l.mh
  let sp := bitsAt key 48 8
  let cl := if sp = 0xFD then bitsAt key 40 8 else if sp = 0xFE then bitsAt key 40 8 else 256
  let y := bitsAt key 16 39
  let h := Nat.xor (Nat.xor y (y / 2 ^ 13)) (y / 2 ^ 26) % mesh.length
  if mesh.contains cl then cl else nth mesh 0 h

/-- A record is answered: it has been accepted at home. -/
def State.contAccept (s : State) (r : ContRec) : State :=
  match r.remote with
  | some p => s.reply p (s.replyTo p .reply 0)
  | none =>
    let x := s.ctxAt r.core r.ctx
    if x.live then s.setCtx r.core r.ctx { x with grant := some 0 } else s

/-- VA of a slot of the overflow area of a cluster of a launch (R108): CONTOVF. -/
def State.contovfVa (s : State) (l : Launch) (cl slot : Nat) : W64 :=
  l.spillb + w64 (2 ^ 18 * l.threads + 65536 * ((findAt (fun c => c == cl) (s.meshHere l l.origin)).map (fun p => p.1)).getD 0 + 64 * slot)

/-- A record enters the overflow area: its bytes are written to memory, or stay with the cluster where the area cannot be
written. (Mark: DESIGN CHOICE, unsafe, log 28) -/
def State.spillRecord (s : State) (l : Launch) (cl : Nat) (e : ContEnt) : State :=
  let k := s.clusterAt cl
  let slot := match k.contovf.getLast? with
    | some x => ((x.slot.map (fun n => (n + 1) % 1024))).getD 0
    | none => 0
  let (s1, n) := match s.tenWrite l.ten (s.contovfVa l cl slot) e.bytes with
    | some t => (t, some slot)
    | none => (s, none)
  s1.setCluster cl { s1.clusterAt cl with contovf := k.contovf ++ [{ e with slot := n }] }

/-- The oldest record of the overflow area, as it stands in memory, enters the queue. (Mark: DESIGN CHOICE, unsafe, log 28) -/
def State.refillRecord (s : State) (l : Launch) (cl : Nat) : State :=
  let k := s.clusterAt cl
  match k.contovf with
  | [] => s
  | e :: r =>
    if k.contq.length ≥ 64 then s
    else
      let b := match e.slot with
        | some n => (s.tenRead l.ten (s.contovfVa l cl n) 64).getD e.bytes
        | none => e.bytes
      s.setCluster cl { k with contq := k.contq ++ [{ e with bytes := b, slot := none }], contovf := r }

/-- CONT_RECORD_ARRIVE: queued, or in the overflow, or it stays on its way while both are full, or while its launch is
suspended here. -/
def execContRecordArrive (idx : Nat) (s : State) : Out :=
  match s.contFlight.drop idx with
  | [] => .next s
  | r :: _ =>
    match s.launchBy r.ten r.ctxid with
    | none => .next s
    | some l =>
      let home := if r.remote.isSome then homeOf l r.key else r.home
      let k := s.clusterAt home
      let s1 := { s with contFlight := dropNth s.contFlight idx }
      let e : ContEnt := { bytes := r.bytes, ctxid := r.ctxid, ten := r.ten }
      if (s.clustersOf l).isEmpty then .next s
      else if k.contq.length < 64 ∧ k.contovf = [] then
        .next ((s1.setCluster home { k with contq := k.contq ++ [e] }).contAccept r)
      else if k.contovf.length < 1024 then .next ((s1.spillRecord l home e).contAccept r)
      else .next s

/-- A helper number that no live context of the core holds (14 R276). -/
def Core.freeHelper (k : Core) : Option Nat :=
  (upTo 1 10).find? (fun i => match Tab.find k.ctxs i with
    | some x => ! x.live
    | none => true)

/-- The core of a cluster on which a record of a launch starts: the fewest live contexts, the lowest index. -/
def State.contCore (s : State) (cl ten : Nat) (ctxid : W32) : Option Nat :=
  let ok := (upTo (cl * 16) 16).filter (fun c =>
    let k := s.coreAt c
    s.holdsThread ten ctxid c && k.freeHelper.isSome && k.saving.isNone && decide (k.liveCount < 11))
  ok.find? (fun c => ok.all (fun d => decide ((s.coreAt c).liveCount ≤ (s.coreAt d).liveCount)))

/-- A helper-class context of R105's state. -/
def helperCtx (kind : CtxKind) (l : Launch) (pc : W64) (pl : Nat) (x : Tab W64) : Ctx :=
  { Ctx.reset with live := true, kind := kind, pc := pc, status := statusStart pl,
                   dlev := BitVec.ofNat 3 (l.nlev - 1), x := x }

/-- A context takes a number on a core: what an earlier context of the number has not drained yet stays in its queue. -/
def State.putCtx (s : State) (c n : Nat) (x : Ctx) : State :=
  s.setCtx c n { x with storeq := (s.ctxAt c n).storeq, amodReply := (s.ctxAt c n).amodReply }

/-- CONTINUATION_START: the head of a cluster's queue. -/
def execContinuationStart (cluster : BitVec 8) (s : State) : Out :=
  let cl := cluster.toNat
  let k := s.clusterAt cl
  match k.contq with
  | [] => .next s
  | ⟨b, ctxid, ten, _⟩ :: r =>
    match s.contCore cl ten ctxid, s.launchBy ten ctxid with
    | some c, some l =>
      match (s.coreAt c).freeHelper with
      | none => .next s
      | some n =>
        let x := helperCtx .continuation l (w64 (recNat b 0 8)) 0
          ((upTo 0 7).map (fun i => (9 + i, w64 (recNat b (8 + 8 * i) 8))))
        .next (((s.setCluster cl { k with contq := r }).refillRecord l cl).putCtx c n x)
    | _, _ => .next s

/-! ## The end of a launch (04 R73) -/

/-- Everything a launch has issued is performed, nothing of it is left on a core, and a kill of it has reached die 0's
Cleat, which posts the deaths of its groups. (Mark: DESIGN CHOICE, unsafe, log 33; DEDUCED, unsafe, log 105) -/
def State.launchOver (s : State) (l : Launch) : Bool :=
  let cores := s.coresOf l
  l.saved.isEmpty && ! s.recordsLeft l && (l.ended.isSome || (s.lcoresFar l).isEmpty)
  && cores.all (fun c =>
      let k := s.coreAt c
      ! k.anyLive && k.saving.isNone && k.vq.isEmpty && k.injq.isEmpty
        && k.ctxs.all (fun p => p.2.storeq.isEmpty && p.2.amodReply.isEmpty && p.2.pends.isEmpty)
        && ! s.enginesBusy (l.ten, l.ctxid, s.lcoreOf c)
        && (s.clusterAt (clusterOf c)).port.isEmpty)
  && s.kills.all (fun k => ! decide (k.ten = l.ten ∧ k.ctxid = l.ctxid) || k.reached.contains (.cleat 0))
  && ! s.deaths.any (fun d => decide (d.ten = l.ten ∧ d.ctxid = l.ctxid))
  && ! s.fabric.unacked.any (fun u => decide (u.pkt.ten.toNat = l.ten ∧ u.pkt.body.ctxid = l.ctxid))
  && ! s.fabric.sendq.any (fun q => q.2.any (fun e => decide (e.pkt.ten.toNat = l.ten ∧ e.pkt.body.ctxid = l.ctxid)))

/-- LAUNCH_END: the launch leaves its cores and banks, and its submission completes DONE, FAULTED or KILLED.
(Mark: DESIGN CHOICE, unsafe, log 33; DEDUCED, unsafe, log 105) -/
def execLaunchEnd (t : BitVec 4) (ctxid : BitVec 32) (s : State) : Out :=
  match s.launchBy t.toNat ctxid with
  | none => .next s
  | some l =>
    let stopped := decide (l.state = .placed) || l.ended.isSome
    if ! stopped || ! s.launchOver l then .next s
    else
      let s1 := (s.coresOf l).foldl (fun u c =>
        u.setCore c { (u.coreAt c).vacate with ctxs := [], rings := [], awd := [], bm := 0, arr := 0, recvq := [], overflow := [] }) s
      let s2 := (meshAt l.origin l.mw l.mh).foldl (fun u cl =>
        u.setCluster cl { (u.clusterAt cl).killed l.ten l.ctxid (fun _ => false) with busyAt := s.now }) s1
      let s3 := { s2 with
        launches := s2.launches.filter (fun k => ! decide (k.ten = l.ten ∧ k.ctxid = l.ctxid)),
        deadGroups := s2.deadGroups.filter (fun g => ! decide (g.1 = l.ten ∧ g.2.1 = l.ctxid)) }
      let (st, cause) := match l.ended with
        | none => (0, 0)
        | some c => if l.faulted then (1, c.toNat) else (2, 0x1A)
      match l.sub with
      | some f => .next (s3.complete l.ten f.page f.seq f.tag f.cpl f.int st cause l.ctxid)
      | none => .next s3

end Sys2Proof.Machine
end

