-- ==== Sys2Proof/Machine/Kill.lean ====
section
/-! DEFINITION. The flood of a kill, its sweeps and its confirmation (03 R62; 02 R37), the routers' checks (03 R52, R55),
and the commands that service cores send to agents (04 R83). -/

namespace Sys2Proof.Machine

open Sys2Proof

/-! ## The flood -/

/-- Packets of a context leave a die's send queues, fabric control of it not: one that has taken a sequence becomes a null
packet of it (02 R37). -/
def purgeQueue (ten : Nat) (ctxid : W32) (q : List Queued) : List Queued :=
  q.filterMap (fun (e : Queued) =>
    if e.pkt.ten.toNat = ten ∧ e.pkt.body.ctxid = ctxid ∧ e.pkt.kind = 0 ∧ e.pkt.stream ≠ 1
        ∧ (e.pkt.stream ≠ 5 ∨ e.pkt.body.op = .graphOpen) then
      (if e.seqd then
        let p : Packet := { e.pkt with kind := 3, body := { }, len := 1 }
        some { e with pkt := p }
      else none)
    else some e)

/-- Change a kill in progress. -/
def State.setKill (s : State) (idx : Nat) (k : Kill) : State := { s with kills := setNth s.kills idx k }

/-- A router discards the flits of a context from the kill's arrival until its sweep ends.
(Mark: DESIGN CHOICE, unsafe, log 97) -/
def State.sweeping (s : State) (router ten : Nat) (ctxid : W32) : Bool :=
  s.kills.any (fun k => decide (k.ten = ten ∧ k.ctxid = ctxid)
    && k.started.any (fun p => decide (p.1 = router ∧ s.now < p.2 + 16384)))

/-- KILL_SWEEP_END: 16,384 clk after the kill reached it, a router reports. (Mark: DESIGN CHOICE, unsafe, log 97) -/
def execKillSweepEnd (idx : Nat) (router : BitVec 8) (s : State) : Out :=
  match s.kills.drop idx with
  | [] => .next s
  | k :: _ =>
    match k.started.find? (fun p => p.1 == router.toNat) with
    | none => .next s
    | some (_, t) =>
      if s.now < t + 16384 ∨ k.reported.contains router.toNat then .next s
      else
        .next (s.setKill idx { k with reported := router.toNat :: k.reported })

/-- The clusters of a tenant's rectangle. -/
def State.rectClusters (s : State) (t : Nat) : List Nat := (upTo 0 256).filter (fun c => s.inRect t c)

/-- Every unit of the module has received a kill, every router has reported, and every module named has confirmed.
(Mark: DEDUCED, unsafe, log 34) -/
def State.killDone (s : State) (k : Kill) : Bool :=
  (s.rectClusters k.ten).all (fun c => k.reported.contains c)
  && (upTo 0 4).all (fun d => k.reached.contains (.cleat (BitVec.ofNat 2 d)) && k.reached.contains (.sendQueues (BitVec.ofNat 2 d)))
  && k.mods.isEmpty

/-- A TRECT write that waited for the purge of its tenant's contexts takes effect with the last confirmation. -/
def State.trectAfter (s : State) (t : Nat) : State :=
  let n := s.tenantAt t
  match n.trectNew with
  | some w =>
    if s.kills.any (fun k => k.ten == t) then s else s.setTenant t { n with trect := w, trectNew := none }
  | none => s

/-- PURGE_CONFIRM: the record goes to the service core of the origin's die, and the CTXID may be used again. A kill that
another module sent is confirmed back to it on stream 5. (Mark: DEDUCED, unsafe, log 34) -/
def execPurgeConfirm (idx : Nat) (s : State) : Out :=
  match s.kills.drop idx with
  | [] => .next s
  | k :: _ =>
    if ! s.killDone k then .next s
    else
      let die := dieOf k.origin
      let mods := k.started.filterMap (fun p => if p.1 ≥ 256 then some (p.1 - 256) else none)
      let mask := (s.modid :: mods).foldl (fun m i => Nat.lor m (2 ^ i)) 0
      let at0 := (s.podTime die).toNat - (s.now - k.since) / 2
      let s1 := { s with kills := dropNth s.kills idx }
      let s2 := match k.asked with
        | some m =>
          let b : Body := { op := .killDone, ctxid := k.ctxid }
          s1.sendPacket { src := BitVec.ofNat 6 s.modid, dst := m, ten := BitVec.ofNat 4 k.ten, stream := 5, body := b }
        | none => s1.mbPut (dieService die) 0 2 (leBytes 4 k.ctxid.toNat ++ leBytes 2 k.ten ++ leBytes 2 0 ++ leBytes 8 at0
            ++ leBytes 8 (s.podTime die).toNat ++ leBytes 8 mask)
      .next (s2.trectAfter k.ten)

/-! ## Routers (03 R51, R52, R55) -/

/-- RMEMB of a router: bit t where the enabled rectangle of tenant t holds the router (R54). -/
def State.rmemb (s : State) (router : Nat) : BitVec 16 :=
  BitVec.ofNat 16 ((upTo 0 16).foldl (fun m t => if s.inRect t router then m + 2 ^ t else m) 0)

/-- Where the flits of an identifier at an input port are held. (Mark: DESIGN CHOICE, unsafe, log 129) -/
def flitKey (router port id : Nat) : Nat := (router * 8 + port) * 64 + id

/-- Flits an identifier of an input port may still take: its reserved flit, and shared ones within its limit and the
port's pool. (Mark: DESIGN CHOICE, unsafe, log 129) -/
def State.routerRoom (s : State) (router port id : Nat) : Bool :=
  let mine : Nat := (Tab.get s.routers [] (flitKey router port id)).length
  let shared : Nat := ((s.routers.filter (fun p => decide (p.1 / 64 = router * 8 + port))).map (fun p => p.2.length - 1)).foldl (· + ·) 0
  decide (mine = 0 ∨ (mine ≤ 48 ∧ shared < 192))

/-- The flit leaves the port it stands in; none where it is not the oldest of its identifier there.
(Mark: DESIGN CHOICE, unsafe, log 129) -/
def State.flitLeaves (s : State) (f : MeshFlit) : Option State :=
  match f.came with
  | none => some s
  | some (r, p) =>
    let key := flitKey r p f.id.toNat
    match Tab.get s.routers [] key with
    | h :: rest =>
      if h.ten = f.ten ∧ h.ctxid = f.ctxid ∧ h.bytes = f.bytes then some { s with routers := Tab.set s.routers key rest } else none
    | [] => none

/-- ROUTER_PACKET_ARRIVE: a flit comes to an input port of a router (0 to 3 neighbours, 4 the cluster, 5 a bridge, 6 the
crossbar) or leaves the mesh there (7). A reserved identifier or a clear RMEMB bit discards it with a record; a flit of a
context being swept is discarded; otherwise the port holds it, and without credit it stays where it is.
(Mark: DESIGN CHOICE, unsafe, log 129) -/
def execRouterPacketArrive (router : BitVec 8) (flit : MeshFlit) (s : State) : Out :=
  let r := router.toNat
  let id := flit.id.toNat
  let t := if id < 48 then id % 16 else flit.ten.toNat
  let bad := if id ≥ 56 then 1 else if id < 48 ∧ ! (s.rmemb r).getLsbD t then 2 else 0
  match s.flitLeaves flit with
  | none => .next s
  | some s1 =>
    if bad ≠ 0 then
      .next ({ s1 with dieLog := s1.dieLog ++ [(r / 64, flit.bytes)] }.machineCheck (dieService (r / 64)) 4 t flit.ctxid 0
        (leBytes 1 r ++ leBytes 1 bad ++ leBytes 1 id ++ leBytes 5 0 ++ sliceBytes flit.bytes 0 16))
    else if (id < 48 && s.sweeping r t flit.ctxid) || decide (flit.port ≥ 7) then .next s1
    else if ! s1.routerRoom r flit.port id then .next s
    else
      let key := flitKey r flit.port id
      .next { s1 with routers := Tab.set s1.routers key (Tab.get s1.routers [] key ++ [flit]) }

/-! ## Commands (04 R82, R83) -/

/-- A command that its agent cannot carry out: reason 1 unknown, 2 bad argument, 3 wrong state. -/
def State.refuse (s : State) (v : Nat) (e : List Byte) (reason : Nat) : State :=
  s.machineCheck v 9 (recNat e 10 2) 0 0 (leBytes 2 (recNat e 8 2) ++ leBytes 1 reason ++ leBytes 1 0 ++ leBytes 4 (recNat e 4 4))

/-- The commands that exist. -/
def knownCommand (c : Nat) : Bool := [1, 2, 3, 4, 16, 32].contains c

/-- Take the head of a service core's ring 2 for a command. `f` answers a reason or the state after the effect, from the
tenant and the arguments. (Mark: DEDUCED, unsafe, log 131) -/
def State.command (s : State) (v cmd : Nat) (f : State → Nat → (Nat → W64) → Nat ⊕ State) : Out :=
  match s.ringHead v 2 with
  | none => .next s
  | some e =>
    let s1 := s.ringPop v 2
    if recNat e 0 1 ≠ 0x10 then .next { s1 with dieLog := s1.dieLog ++ [(v / 4, e)] }
    else if ! knownCommand (recNat e 8 2) then .next (s1.refuse v e 1)
    else if recNat e 8 2 ≠ cmd then .next s
    else
      match f s1 (recNat e 10 2) (fun i => w64 (recNat e (16 + 8 * i) 8)) with
      | .inl reason => .next (s1.refuse v e reason)
      | .inr t => .next t

/-- The cores and engines of a cluster return to their reset state. -/
def State.resetCluster (s : State) (cl : Nat) : State :=
  let s1 := (upTo (cl * 16) 16).foldl (fun u c => u.setCore c Core.reset) s
  let s2 := (s1.setOctet (2 * cl) Octet.reset).setOctet (2 * cl + 1) Octet.reset
  s2.setCluster cl { Cluster.reset with tlb := (s.clusterAt cl).tlb, busyAt := s.now }

/-- RELEASE. -/
def execRelease (svc : BitVec 4) (s : State) : Out :=
  s.command svc.toNat 1 (fun u _ arg =>
    let cl := bitsAt (arg 0) 0 8
    let k := u.clusterAt cl
    if (arg 0).toNat ≥ 256 then .inl 2
    else if ! k.halted || u.kills.any (fun x => x.ctxid == k.haltCtx) then .inl 3
    else .inr (u.resetCluster cl))

/-- The launch that a command names. -/
def State.named (s : State) (ten : Nat) (v : W64) : Option Launch := s.launchBy ten (v.setWidth 32)

/-- SUSPEND. -/
def execSuspend (svc : BitVec 4) (s : State) : Out :=
  s.command svc.toNat 2 (fun u ten arg =>
    match u.named ten (arg 0) with
    | some l => if u.prevec = 0 ∨ l.state ≠ .placed then .inl 3 else .inr (u.preempt l true)
    | none => .inl 3)

/-- RESUME: back into its queue, behind what waits there, with a new wait. -/
def execResume (svc : BitVec 4) (s : State) : Out :=
  s.command svc.toNat 3 (fun u ten arg =>
    match u.named ten (arg 0) with
    | some l =>
      if l.state ≠ .suspended ∨ ¬ l.held then .inl 3
      else
        let rest := u.launches.filter (fun k => ! decide (k.ten = l.ten ∧ k.ctxid = l.ctxid))
        let m : Launch := { l with state := .queued, held := false, since := u.now }
        .inr { u with launches := rest ++ [m] }
    | none => .inl 3)

/-- A kill goes to the modules named, and its confirmation waits for each. -/
def State.carryKill (s : State) (ten : Nat) (id : W32) (mods : List Nat) : State :=
  let s1 := { s with kills := s.kills.map (fun k =>
    if k.ten = ten ∧ k.ctxid = id then { k with mods := mods, started := k.started ++ mods.map (fun m => (256 + m, s.now)) }
    else k) }
  mods.foldl (fun v m =>
    let b : Body := { op := .kill, ctxid := id }
    let p : Packet := { src := BitVec.ofNat 6 v.modid, dst := BitVec.ofNat 6 m, ten := BitVec.ofNat 4 ten, stream := 5, body := b }
    v.sendPacket p) s1

/-- KILLREMOTE: the kill of a launch goes to each module named, this module's part of the launch dying with it.
(Mark: DEDUCED, unsafe, log 35) -/
def execKillremote (svc : BitVec 4) (s : State) : Out :=
  s.command svc.toNat 4 (fun u ten arg =>
    let id : W32 := (arg 0).setWidth 32
    let mods := (upTo 0 64).filter (fun m => bitOn (arg 1) m && m != u.modid)
    if ! u.kills.any (fun k => decide (k.ten = ten ∧ k.ctxid = id)) && (u.launchBy ten id).isNone then .inl 3
    else if mods.any (fun m => ! u.reachable m) then .inl 2
    else .inr ((u.injectKill ten id (4096 + svc.toNat) 0x1A false).carryKill ten id mods))

/-- CTRRESET. -/
def execCtrreset (svc : BitVec 4) (s : State) : Out :=
  s.command svc.toNat 16 (fun u _ arg =>
    let i := (arg 0).toNat
    if i ≥ 4096 then .inl 2
    else if u.waiters.any (fun w => w.key == counterKey i) then .inl 3
    else .inr (u.counterReset i))

/-- FABSEND: one packet on stream 5 with a payload of 24 bytes. -/
def execFabsend (svc : BitVec 4) (s : State) : Out :=
  s.command svc.toNat 32 (fun u _ arg =>
    if (arg 0).toNat ≥ 64 then .inl 2
    else
      let b : Body := { op := .firmware, bytes := leBytes 8 (arg 1).toNat ++ leBytes 8 (arg 2).toNat ++ leBytes 8 (arg 3).toNat }
      let p : Packet := { src := BitVec.ofNat 6 u.ownNumber, dst := BitVec.ofNat 6 (arg 0).toNat, stream := 5, body := b }
      .inr (u.sendPacket p))

/-! ## MBREG (04 R81) -/

/-- MBREG of a ring. -/
def MbRing.reg (m : MbRing) : W64 := w64 (m.tail.toNat + m.head.toNat * 2 ^ 16 + b2n m.wake * 2 ^ 32)

/-- A write of MBREG: HEAD on rings 0 and 1, TAIL on rings 2 and 3, and WAKE. One that would put HEAD past TAIL, or TAIL
more than 64 ahead of HEAD, is discarded. Records held back enter the ring as space appears. -/
def State.writeMbreg (s : State) (v r : Nat) (w : W64) : State :=
  let m := s.mboxAt v r
  let tail : BitVec 16 := if r < 2 then m.tail else BitVec.ofNat 16 w.toNat
  let head : BitVec 16 := if r < 2 then BitVec.ofNat 16 (bitsAt w 16 16) else m.head
  if (tail - head).toNat > 64 then s
  else
    let new := if r = 3 then List.replicate ((tail - head).toNat - m.stamps.length) s.nextStamp else []
    let m1 := { m with tail := tail, head := head, wake := bitOn w 32,
                       stamps := (m.stamps ++ new).take (if r = 3 then (tail - head).toNat else 0) }
    s.setMbox v r (m1.refill m1.held.length)

/-- MBREG_WRITE. (Mark: DESIGN CHOICE, safe, log 91) -/
def execMbregWrite (svc : BitVec 4) (ring : BitVec 2) (v : BitVec 64) (s : State) : Out :=
  .next (s.writeMbreg svc.toNat ring.toNat v)

end Sys2Proof.Machine
end

