-- ==== Sys2Proof/Machine/Control.lean ====
section
/-! DEFINITION. Registers that are reached by address: the control space of service cores and the monitor (04 R80), and
the writes that REGISTER_WRITE stands for, in the BARs of the physical and virtual functions (04 R65 to R76) and in
control space; the observation page with its samples and the rotation of physical counters (06 R114 to R118). A register
is read and written as the 8-byte word that holds it; an offset that no table lists reads 0 and takes no write (log 9). -/

namespace Sys2Proof.Machine

open Sys2Proof

/-! ## Words and their bytes -/

/-- A word with the bytes of a write at byte `o` in place. -/
def mergeBytes (old : W64) (o : Nat) (bytes : List Byte) : W64 :=
  w64 (ofLeBytes ((upTo 0 8).map (fun i =>
    if o ≤ i ∧ i < o + bytes.length then nth bytes 0 (i - o) else BitVec.ofNat 8 (old.toNat / 2 ^ (8 * i)))))

/-! ## DINFO (R66) -/

/-- The word of DINFO at an offset. -/
def State.dinfo (s : State) (o : Nat) : W64 :=
  if o = 0 then
    w64 (s.boot.boot % 8 + s.boot.fstep % 8 * 2 ^ 3 + s.boot.fcode.toNat * 2 ^ 8 + s.boot.fseg.toNat * 2 ^ 16
      + 0xB3E1 * 2 ^ 32 + Config.stepping.toNat * 2 ^ 48)
  else if o < 72 then
    match Tab.find s.boot.frames (o / 8 - 1) with
    | some f => w64 (f % 2 ^ 20 + 2 ^ 20)
    | none => 0
  else 0

/-! ## The fabric control page (02 R38 to R42) -/

/-- A register of the fabric control page. (Mark: DEDUCED, unsafe, log 9) -/
def State.fabricReg (s : State) (o : Nat) : W64 :=
  let f := s.fabric
  match o with
  | 0x00 => f.fpod
  | 0x08 => f.fnext
  | 0x10 => f.fdarkt
  | 0x18 => f.fswtime
  | 0x28 => w64 (b2n f.lock + f.rig % 8 * 2 + b2n f.err * 2 ^ 4 + b2n f.late * 2 ^ 5)
  | 0x30 => zext f.fgrant
  | _ => 0

/-- A write: `v` is the word with the written bytes in place, `raw` has 0 in the others. NLOG is 0 to 6 (02 R38, R39): a write
of 7 leaves the field as it is. (Mark: DESIGN CHOICE, unsafe, log 124) -/
def State.writeFabricReg (s : State) (o : Nat) (v raw : W64) : State :=
  let f := s.fabric
  match o with
  | 0x08 =>
    let nlog := if bitsAt v 8 3 = 7 then bitsAt f.fnext 8 3 else bitsAt v 8 3
    s.setFabric { f with fnext := w64 (bitsAt v 0 6 + nlog * 2 ^ 8) }
  | 0x10 => s.setFabric { f with fdarkt := putBits v 0 12 0 }
  | 0x18 => s.setFabric { f with fswtime := putBits v 0 12 0 }
  | 0x20 => s.fctl (bitsAt raw 0 2)
  | 0x28 => s.setFabric { f with err := f.err && ! bitOn raw 4, late := f.late && ! bitOn raw 5 }
  | 0x30 => s.setFabric { f with fgrant := v.setWidth 20 }
  | _ => s

/-! ## Fault-queue control (07 R145) -/

/-- Distinct pages of a tenant with parked accesses. -/
def State.parkedPages (s : State) (t : Nat) : List Nat :=
  let own := s.cores.flatMap (fun p =>
    p.2.ctxs.filterMap (fun x => x.2.parked) ++ p.2.copies.filterMap (fun m => m.parked)
      ++ p.2.vq.filterMap (fun m => m.parked)) ++ s.clusters.filterMap (fun p => p.2.wbload.bind (fun m => m.parked))
  let all := (own ++ s.parkedRemote.map (fun p => p.2)).filter (fun k => k.ten == t)
  all.foldl (fun l k => if l.contains k.page then l else l ++ [k.page]) []

/-- A register of a tenant's fault-queue page. -/
def State.fqReg (s : State) (t o : Nat) : W64 :=
  let n := s.tenantAt t
  match o with
  | 0x00 => n.fqbase
  | 0x08 => n.fqcfg
  | 0x10 => zext n.fqhead
  | 0x18 => zext n.fqtail
  | 0x20 => w64 (b2n (! n.fqWait.isEmpty) + (s.parkedPages t).length % 65536 * 2 ^ 16)
  | _ => 0

/-- A write of a tenant's fault-queue page: BASE and CFG are guarded while HEAD ≠ TAIL, HEAD may not pass TAIL. -/
def State.writeFqReg (s : State) (t o : Nat) (v : W64) : State :=
  let n := s.tenantAt t
  let busy := n.fqhead != n.fqtail
  match o with
  | 0x00 => if busy then s else s.setTenant t { n with fqbase := v }
  | 0x08 =>
    if busy || decide (bitsAt v 0 4 < 4 ∨ bitsAt v 0 4 > 12) then s
    else s.setTenant t { n with fqcfg := w64 (v.toNat % 512) }
  | 0x10 =>
    let h : W32 := v.setWidth 32
    if ahead h n.fqtail then s
    else s.setTenant t { n with fqhead := h, fq := n.fq.filter (fun e => ! ahead h e.seq) }
  | _ => s

/-! ## The observation page (06 R116) -/

/-- A store of whole words that the module makes in a tenant's space, as the tenant's own store at PL 0 would: none where it
faults, misses or has to wait (06 R116). (Mark: DEDUCED, unsafe, log 46) -/
def State.tenantStore (s : State) (ten : Nat) (va : W64) (bytes : List Byte) : Option State :=
  let n := bytes.length
  let sp := bitsAt va 48 8
  if bitsAt va 56 8 ≠ 0 ∧ bitsAt va 56 8 ≠ 0x40 + s.modid then none
  else if sp < 0x80 then
    match s.walk ten va 0 true false with
    | .leaf t =>
      if pteVD t.pte = 0 then some (if pteS t.pte then s.pokeCell (t.pa va) bytes else s.pokeN (t.pa va) bytes)
      else (upTo 0 (n / 8)).foldl (fun (u : Option State) i => u.bind (fun v =>
        let h := verHeader (pteFrame t.pte) (va.toNat % 65536 + 8 * i)
        if ! v.mayCreate h 0 [] || v.creationsWait h then none
        else (v.verCreate h (vdDepth (pteVD t.pte)) 0 (sliceBytes bytes (8 * i) 8)).map (fun w => (w.fulfil h).serveWord h))) (some s)
    | _ => none
  else if sp = 0xFD then
    if bitsAt va 22 18 ≠ 0 ∨ bitsAt va 0 22 + n > 2 ^ 22 ∨ ! s.inRect ten (bitsAt va 40 8) then none
    else some (s.pokeN (cmemKey (bitsAt va 40 8) (bitsAt va 0 22)) bytes)
  else if sp = 0xFE ∧ bitsAt va 18 18 = 0 ∧ s.inRect ten (bitsAt va 40 8) then
    let c := bitsAt va 36 12
    if ((s.coreAt c).poolCheck (bitsAt va 0 18) n).isSome then none else some (s.pokeN (poolKey c (bitsAt va 0 18)) bytes)
  else none

/-- Write the header of a tenant's sample buffer: WCOUNT, DROPS, and zero elsewhere. (Mark: DEDUCED, unsafe, log 46) -/
def State.sampleHeader (s : State) (t : Nat) : State :=
  let n := s.tenantAt t
  match s.tenantStore t n.smpbase (leBytes 8 n.wcount ++ leBytes 8 n.drops ++ List.replicate 48 0) with
  | some u => u
  | none => s

/-- SMPCFG: S is 0 or 10 to 20, LOG2SZ 16 to 30; WCOUNT and DROPS are zeroed. (Mark: DEDUCED, unsafe, log 39) -/
def State.writeSmpcfg (s : State) (t : Nat) (v : W64) : State :=
  let p := bitsAt v 0 5
  let z := bitsAt v 5 5
  if (p ≠ 0 ∧ (p < 10 ∨ p > 20)) ∨ z < 16 ∨ z > 30 then s
  else (s.setTenant t { s.tenantAt t with smpcfg := w64 (v.toNat % 1024), wcount := 0, drops := 0 }).sampleHeader t

/-- A register of a tenant's observation page. -/
def State.obsReg (s : State) (t o : Nat) : W64 :=
  let n := s.tenantAt t
  match o with
  | 0x00 => n.smpbase
  | 0x08 => n.smpcfg
  | 0x10 => n.hwt
  | _ => 0

/-- A write of a tenant's observation page. -/
def State.writeObsReg (s : State) (t o : Nat) (v : W64) : State :=
  let n := s.tenantAt t
  match o with
  | 0x00 => s.setTenant t { n with smpbase := putBits v 0 16 0 }
  | 0x08 => s.writeSmpcfg t v
  | 0x10 => if bitsAt v 0 4 = 0 then s else s.setTenant t { n with hwt := w64 (bitsAt v 0 4) }
  | _ => s

/-- SMPCFG_WRITE. (Mark: DEDUCED, unsafe, log 39; DESIGN CHOICE, safe, log 91) -/
def execSmpcfgWrite (t : BitVec 4) (v : BitVec 64) (s : State) : Out := .next (s.writeSmpcfg t.toNat v)

/-! ## Control space (04 R80) -/

/-- The word of control space at an offset that is a multiple of 8, as core `c` reads it. -/
def State.controlWord (s : State) (c o : Nat) : W64 :=
  if o < 0x1000 then s.fabricReg o
  else if 0x2000 ≤ o ∧ o < 0x2048 then s.dinfo (o - 0x2000)
  else if o = 0x3000 then s.prevec
  else if isService c ∧ 0x10000 ≤ o ∧ o < 0x14000 then
    w64 (recNat (Tab.get (s.mboxAt (c - 4096) ((o - 0x10000) / 4096)).ents [] (o % 4096 / 64)) (o % 64) 8)
  else if isService c ∧ 0x14000 ≤ o ∧ o < 0x14020 then (s.mboxAt (c - 4096) ((o - 0x14000) / 8)).reg
  else if 0x100000 ≤ o ∧ o < 0x110000 then s.fqReg ((o - 0x100000) / 4096) (o % 4096)
  else if 0x200000 ≤ o ∧ o < 0x210000 then s.obsReg ((o - 0x200000) / 4096) (o % 4096)
  else 0

/-- A read of control space of up to 8 aligned bytes. (Mark: DEDUCED, unsafe, log 9) -/
def State.controlRead (s : State) (c off nb : Nat) : Nat :=
  (s.controlWord c (off / 8 * 8)).toNat / 2 ^ (8 * (off % 8)) % 2 ^ (8 * nb)

/-- A write of control space by core `c`. (Mark: DEDUCED, unsafe, log 9; DEDUCED, unsafe, log 40) -/
def State.controlWrite (s : State) (c off : Nat) (bytes : List Byte) : State :=
  let o := off / 8 * 8
  let v := mergeBytes (s.controlWord c o) (off % 8) bytes
  let raw := mergeBytes 0 (off % 8) bytes
  if o < 0x1000 then s.writeFabricReg o v raw
  else if o = 0x3000 then s.writePrevec v
  else if isService c ∧ 0x10000 ≤ o ∧ o < 0x14000 then
    let r := (o - 0x10000) / 4096
    let m := s.mboxAt (c - 4096) r
    let i := o % 4096 / 64
    let e := sliceBytes (Tab.get m.ents [] i) 0 64
    s.setMbox (c - 4096) r { m with ents := Tab.set m.ents i (e.take (o % 64) ++ leBytes 8 v.toNat ++ e.drop (o % 64 + 8)) }
  else if isService c ∧ 0x14000 ≤ o ∧ o < 0x14020 then s.writeMbreg (c - 4096) ((o - 0x14000) / 8) v
  else if 0x100000 ≤ o ∧ o < 0x110000 then s.writeFqReg ((o - 0x100000) / 4096) (o % 4096) v
  else if 0x200000 ≤ o ∧ o < 0x210000 then s.writeObsReg ((o - 0x200000) / 4096) (o % 4096) v
  else s

/-! ## The BARs -/

/-- A 4-byte register of the physical function: DLTOL and PSTATE.PLIM, clamped to 1,000 to 3,200. -/
def State.writePf (s : State) (off : Nat) (v : W32) : State :=
  match off with
  | 0x1000 => { s with power := { s.power with dltol := v.setWidth 24 } }.reselect
  | 0x1004 => { s with power := { s.power with plim := min (max (bitsAt v 16 12) 1000) 3200 } }
  | _ => s

/-- A word of an MSI-X table entry: address, data, vector control. Clearing the mask sends a pending message. -/
def State.writeMsix (s : State) (t vec w : Nat) (v : W32) : State :=
  let n := s.tenantAt t
  let e := n.msixAt vec
  let put := fun (f : Msix) => s.setTenant t { n with msix := Tab.set n.msix vec f }
  match w with
  | 0 => put { e with addr := putBits e.addr 0 32 v.toNat }
  | 1 => put { e with addr := putBits e.addr 32 32 v.toNat }
  | 2 => put { e with data := v }
  | _ =>
    let s1 := put { e with masked := bitOn v 0 }
    if ! bitOn v 0 && e.pending then s1.msix t vec else s1

/-- A completion-area register of a page, as an 8-byte word. (Mark: DEDUCED, unsafe, log 21) -/
def State.writePageReg (s : State) (t page o : Nat) (v raw : W64) : State :=
  match o with
  | 0x00 => s.writeCqcfg t page true v
  | 0x08 => s.writeCqcfg t page false v
  | 0x10 => s.writeCqhead t page v
  | 0x20 =>
    let p := (s.tenantAt t).pageAt page
    s.setPageOf t page { p with retry := p.retry && ! bitOn raw 14 }
  | _ => s

/-- The registers of a page as they read. (Mark: DEDUCED, unsafe, log 9) -/
def State.pageReg (s : State) (t page o : Nat) : W64 :=
  let p := (s.tenantAt t).pageAt page
  match o with
  | 0x00 => p.cqbase
  | 0x08 => p.cqcfg
  | 0x10 => zext p.cqhead
  | 0x18 => zext p.cqtail
  | 0x20 => w64 (p.out % 2 ^ 13 + b2n (! p.queue.isEmpty && p.since.isNone) * 2 ^ 13 + b2n p.retry * 2 ^ 14)
  | _ => 0

/-- BAR0 of a virtual function. (Mark: DEDUCED, unsafe, log 9) -/
def State.writeVf0 (s : State) (t off : Nat) (bytes : List Byte) : State :=
  let n := s.tenantAt t
  let v32 : W32 := BitVec.ofNat 32 (ofLeBytes bytes)
  if off = 0x100 then (s.setTenant t { n with tltol := v32.setWidth 24 }).reselect
  else if off = 0x200 then s.setTenant t { n with terr := BitVec.ofNat 4 (n.terr.toNat - Nat.land n.terr.toNat v32.toNat) }
  else if 0x1000 ≤ off ∧ off < 0x1400 then
    let page := (off - 0x1000) / 64
    let o := off % 64 / 8 * 8
    s.writePageReg t page o (mergeBytes (s.pageReg t page o) (off % 8) bytes) (mergeBytes 0 (off % 8) bytes)
  else if 0x2000 ≤ off ∧ off < 0x2110 then
    let vec := (off - 0x2000) / 16
    let s1 := s.writeMsix t vec (off % 16 / 4) v32
    if bytes.length = 8 then s1.writeMsix t vec (off % 16 / 4 + 1) (BitVec.ofNat 32 (ofLeBytes (bytes.drop 4))) else s1
  else s

/-- BAR2 of a virtual function: a plain write to a submission page, or a counter slot. -/
def State.writeVf2 (s : State) (t off : Nat) (bytes : List Byte) : State :=
  if off < 0x10000 then s.setTerr t 0
  else if 0x20000 ≤ off then s
  else
    let j := (off - 0x10000) / 16
    if off % 16 ≠ 8 ∨ bytes.length ≠ 8 then
      let s1 := s.setTerr t 3
      if (s.counterOf t j).isNone then s1.setTerr t 2 else s1
    else match s.counterOf t j with
      | none => s.setTerr t 2
      | some i => s.counterAdd i (w64 (ofLeBytes bytes))

/-! ## Reads by the host (04 R65 to R69, R76) -/

/-- PSTATE (01 R15). -/
def State.pstate (s : State) : Nat :=
  let p := s.power
  p.cur % 8 + s.powerTarget % 8 * 2 ^ 3 + b2n p.lim * 2 ^ 6 + p.plim % 2 ^ 12 * 2 ^ 16

/-- The word of the physical function's BAR0 at an offset that is a multiple of 8. (Mark: DESIGN CHOICE, safe, log 133) -/
def State.pfWord (s : State) (o : Nat) : W64 :=
  if o < 72 then s.dinfo o else if o = 0x1000 then w64 (s.power.dltol.toNat + s.pstate * 2 ^ 32) else 0

/-- The word of a virtual function's BAR0 at an offset that is a multiple of 8: TINFO, TLTOL, TERR, the completion-area
registers, the MSI-X table and its pending bits. -/
def State.vf0Word (s : State) (t o : Nat) : W64 :=
  let n := s.tenantAt t
  if o = 0 then w64 (t % 16 + bitsAt n.tsubcfg 16 5 * 2 ^ 4 + tecrCount n.tecr * 2 ^ 9)
  else if o = 0x100 then zext n.tltol
  else if o = 0x200 then zext n.terr
  else if 0x1000 ≤ o ∧ o < 0x1400 then s.pageReg t ((o - 0x1000) / 64) (o % 64)
  else if 0x2000 ≤ o ∧ o < 0x2110 then
    let e := n.msixAt ((o - 0x2000) / 16)
    if o % 16 = 0 then e.addr else w64 (e.data.toNat + b2n e.masked * 2 ^ 32)
  else if o = 0x3000 then w64 ((upTo 0 17).foldl (fun a i => a + b2n (n.msixAt i).pending * 2 ^ i) 0)
  else 0

/-- The word of a virtual function's BAR2 at an offset that is a multiple of 8: a counter's value; a submission page reads 0. -/
def State.vf2Word (s : State) (t o : Nat) : W64 :=
  if 0x10000 ≤ o ∧ o < 0x20000 ∧ o % 16 = 0 then
    match s.counterOf t ((o - 0x10000) / 16) with
    | some i => (s.counterAt i).val
    | none => 0
  else 0

/-- The `n` bytes from an offset of a register space whose words `f` gives. -/
def bytesAt (f : Nat → W64) (off n : Nat) : List Byte :=
  (upTo off n).map (fun a => BitVec.ofNat 8 ((f (a / 8 * 8)).toNat / 2 ^ (8 * (a % 8))))

/-- A read by the host of up to 4,096 bytes (R64). One that names a counter the tenant does not own sets TERR.ECIDX (R75). A
function that is not enabled answers Unsupported Request, as control space does, which no BAR holds.
(Mark: DEDUCED, unsafe, log 46) -/
def State.hostRead (s : State) (r : HostRead) : State :=
  let n := min r.size 4096
  let ok := fun (u : State) (f : Nat → W64) => u.answerHost r.space r.off .successful (bytesAt f r.off n)
  let off := s.answerHost r.space r.off .unsupported []
  match r.space with
  | .pf => ok s s.pfWord
  | .vf0 t => if (s.tenantAt t.toNat).vf then ok s (s.vf0Word t.toNat) else off
  | .vf2 t =>
    if ! (s.tenantAt t.toNat).vf then off
    else
      let stray := (upTo r.off n).any (fun a => decide (0x10000 ≤ a ∧ a < 0x20000) && (s.counterOf t.toNat ((a - 0x10000) / 16)).isNone)
      ok (if stray then s.setTerr t.toNat 2 else s) (s.vf2Word t.toNat)
  | .control _ => off

/-! ## Writes by REGISTER_WRITE -/

/-- REGISTER_WRITE: a write of `size` bytes. A host write into a function's BAR is a wake event (01 R17).
(Mark: DESIGN CHOICE, safe, log 91; DEDUCED, unsafe, log 106) -/
def execRegisterWrite (space : RegSpace) (off size : Nat) (v : BitVec 64) (s : State) : Out :=
  let bytes := leBytes (min size 8) v.toNat
  match space with
  | .pf =>
    let s1 := s.wake.writePf off (v.setWidth 32)
    .next (if size = 8 then s1.writePf (off + 4) (BitVec.ofNat 32 (v.toNat / 2 ^ 32)) else s1)
  | .vf0 t => if (s.tenantAt t.toNat).vf then .next (s.wake.writeVf0 t.toNat off bytes) else .next s
  | .vf2 t => if (s.tenantAt t.toNat).vf then .next (s.wake.writeVf2 t.toNat off bytes) else .next s
  | .control core => if isArray core then .next s else .next (s.controlWrite core off bytes)

/-! ## Samples and physical counters (06 R114, R118) -/

/-- Pod time of a die in clk. -/
def State.podClk (s : State) (die : Nat) : Nat := 2 * (s.podTime die).toNat + (s.podFraction die).toNat / 32768

/-- A core's sampling clk. -/
def State.samples (s : State) (c period : Nat) : Bool :=
  decide ((s.podClk (dieOf c) + 2 ^ 63 - c * 2 ^ period / 4096) % 2 ^ period = 2 ^ 63 % 2 ^ period)

/-- The 32 bytes of a sample of the context that the core's issue slot was offered to. -/
def State.sampleRecord (s : State) (c : Nat) : List Byte :=
  let k := s.coreAt c
  let x := s.ctxAt c k.turn
  leBytes 8 x.pc.toNat ++ leBytes 8 (s.podTime (dieOf c)).toNat ++ leBytes 4 (s.ctxidOf c).toNat
  ++ leBytes 2 (c % 4096 + k.turn % 16 * 4096) ++ leBytes 1 (k.reason k.turn x) ++ leBytes 1 (b2n x.tr + 2 * b2n x.ui)
  ++ leBytes 4 (s.lcoreOf c) ++ leBytes 4 0

/-- PC_SAMPLE: the record is written before WCOUNT counts it; one that cannot be written is counted in DROPS. -/
def execPcSample (core : Nat) (s : State) : Out :=
  let k := s.coreAt core
  match k.thread with
  | none => .next s
  | some (t, _, _) =>
    let n := s.tenantAt t
    let period := bitsAt n.smpcfg 0 5
    if period = 0 || ! k.anyLive || ! s.samples core period then .next s
    else
      let slots := (2 ^ bitsAt n.smpcfg 5 5 - 64) / 32
      match s.tenantStore t (n.smpbase + w64 (64 + 32 * (n.wcount % slots))) (s.sampleRecord core) with
      | some u => .next ((u.setTenant t { n with wcount := n.wcount + 1 }).sampleHeader t)
      | none => .next ((s.setTenant t { n with drops := n.drops + 1 }).sampleHeader t)

/-- COUNTER_ROTATE: after 128,000 clk the physical counters of a cluster move on to the next two cores. -/
def execCounterRotate (cluster : BitVec 8) (s : State) : Out :=
  let cl := cluster.toNat
  let k := s.clusterAt cl
  let l := s.liveCores cl
  if l.length ≤ 2 ∨ s.now < k.rotAt + 128000 then .next s
  else
    let held := holders l k.rot
    let i := match findAt (fun c => c == nth held 0 1) l with
      | some (j, _) => j + 1
      | none => 0
    .next (s.setCluster cl { k with rot := nth l 0 (i % l.length), rotAt := s.now })

end Sys2Proof.Machine
end

