-- ==== Sys2Proof/Machine/Memory.lean ====
section
/-! DEFINITION. Memory accesses: LD and ST (14 R262, R263), versioned words (R264), split-phase replies (03 R59), the
completion of walks with parking and the fault queue (07 R137, R143 to R147), store queues and port lines (08 R150), and
poison (09 R192). -/

namespace Sys2Proof.Machine

open Sys2Proof

/-! ## Values and poison -/

/-- An access's value extended to 64 bits: `n` bytes, signed or not. -/
def extendTo (signed : Bool) (n v : Nat) : W64 :=
  if signed then
    match n with
    | 1 => (BitVec.ofNat 8 v).signExtend 64
    | 2 => (BitVec.ofNat 16 v).signExtend 64
    | 4 => (BitVec.ofNat 32 v).signExtend 64
    | _ => w64 v
  else w64 (v % 2 ^ (8 * n))

/-- An 8-byte unit is poisoned as the context's load sees it: no buffered store has replaced all of it. -/
def State.taintedAt (s : State) (c x k : Nat) : Bool :=
  s.poison.contains (k / 8) && ! (upTo (k / 8 * 8) 8).all (fun j =>
    (storeqByte (s.ctxAt c x).storeq j).isSome
      || (isArray c && (s.clusterAt (clusterOf c)).port.any (fun l => (l.at? j).isSome)))

/-- A load's bytes are poisoned. -/
def State.tainted (s : State) (keys : List Nat) : Bool :=
  ! s.poison.isEmpty && keys.any (s.taintedAt s.core s.ctx)

/-- The issuing context consumes poison: an array core's launch is killed; a core without one goes on.
(Mark: DEDUCED, unsafe, log 54) -/
def State.consume (s : State) (va : W64) (use : Nat) (k : State → Out) : Out :=
  let t := s.consumePoison s.core s.ctx va use
  if isArray s.core then .next t else k t

/-- An access must wait until an engine command of a suspended thread has left the tiles it would claim. -/
def State.keysWait (s : State) (keys : List Nat) : Bool :=
  match keys with
  | j :: _ => (match poolOf j with
    | some (c, o) => s.claimWaits c o keys.length
    | none => false)
  | [] => false

/-- The tiles that an access would claim from suspended threads are first written to their spill areas: the access stalls with
reason 14 (09 R186). (Mark: DEDUCED, unsafe, log 102) -/
def State.roomFor (s : State) (keys : List Nat) : Option State :=
  match keys with
  | j :: _ => (match poolOf j with
    | some (c, o) => if s.slotHeld c o keys.length then some (if s.claimWaits c o keys.length then s else s.makeRoom c o keys.length) else none
    | none => none)
  | [] => none

/-- Raw pool bytes of a window access. -/
def State.fmtKeys (s : State) (c w off nb : Nat) : List Nat :=
  (fmtBytes ((s.coreAt c).awdAt w) (off / 4) (nb / 4)).map (poolKey c)

/-- The bytes that a request will read where it is performed, inside the module or on the host.
(Mark: DEDUCED, unsafe, log 102) -/
def State.pendKeys (s : State) (p : Pend) : List Nat :=
  match p.place with
  | .mem key => upTo key p.nb
  | .sync pa => upTo pa p.nb
  | .fmt c w off => s.fmtKeys c w off p.nb
  | .host addr => upTo (hostKey (addr % 2 ^ 64)) p.nb
  | _ => []

/-- A load among these requests has yet to read one of the bytes. (Mark: DEDUCED, unsafe, log 102) -/
def State.unread (s : State) (l : List Pend) (keys : List Nat) : Bool :=
  l.any (fun p => p.answer.isNone && ! p.keep && (s.pendKeys p).any (fun k => keys.contains k))

/-- An access of the issuing context may go on: no load of the context has yet to read one of its bytes (08 R153), and no
suspended thread holds a tile that it claims. (Mark: DEDUCED, unsafe, log 102) -/
def State.accessFree (s : State) (keys : List Nat) : Bool := ! s.unread s.me.pends keys && (s.roomFor keys).isNone

/-- An access of the issuing context waits until it may go on. (Mark: DEDUCED, unsafe, log 102) -/
def State.whenFree (s : State) (keys : List Nat) (k : Out) : Out :=
  if s.accessFree keys then k else if s.unread s.me.pends keys then s.wait 1 else ((s.roomFor keys).getD s).wait 14

/-- Bytes performed here, before they are read: pool tiles claimed, partly overlapping stores drained. -/
def State.readKeys (s : State) (va : W64) (keys : List Nat) (k : List Byte → State → Out) : Out :=
  s.whenFree keys
    (let s1 := (s.claimKeys keys).settle s.core s.ctx keys
     if s1.tainted keys then s1.consume va 1 (fun t => k (t.loadBytes t.core t.ctx keys) t)
     else k (s1.loadBytes s1.core s1.ctx keys) s1)

/-- Claim the tiles of a window access. -/
def State.claimFmt (s : State) (c w off nb : Nat) : State :=
  if (s.coreAt c).thread.isSome then
    (fmtBytes ((s.coreAt c).awdAt w) (off / 4) (nb / 4)).foldl (fun t b => t.claimTile c (b / 1024)) s
  else s

/-- The value of a window read of 4 or 8 bytes, with its flags. -/
def State.fmtValue (s : State) (c w off nb : Nat) : Nat × Nat :=
  let (l, f) := s.fmtRead c w (off / 4) (nb / 4)
  (ofLeBytes (l.flatMap (leBytes 4)), f)

/-! ## Split-phase replies (R59) -/

/-- Write a register in the bank that it had at issue. -/
def Ctx.wrBank (x : Ctx) (ui : Bool) (r : BitVec 5) (v : W64) : Ctx :=
  if r = 0 then x
  else if ui && decide (24 ≤ r.toNat) then { x with shadow := Tab.set x.shadow r.toNat v }
  else { x with x := Tab.set x.x r.toNat v }

/-- A pending request receives its value; a word of a record is kept for the instruction that reads it. -/
def Ctx.receive (x : Ctx) (i : Nat) (p : Pend) (v : W64) : Ctx :=
  if p.keep then { x with pends := setNth x.pends i { p with answer := some v } }
  else { x with pends := dropNth x.pends i }.wrBank p.ui p.reg (extendTo p.signed p.nb v.toNat)

/-- The reply reaches the context. -/
def State.receive (s : State) (c x i : Nat) (p : Pend) (v : W64) : State := s.setCtx c x ((s.ctxAt c x).receive i p v)

/-- A reply that carries a fault: precise at the request, once at a time. -/
def State.receiveFault (s : State) (c x i : Nat) (p : Pend) (cause : Byte) (va : W64) : State :=
  let k := s.ctxAt c x
  s.setCtx c x { k with pends := dropNth k.pends i, due := k.due ++ [(cause, va, p.pc)] }

/-- The module performs a request that waits for a reply from inside it. -/
def State.replyHere (s : State) (c x i : Nat) (p : Pend) : State :=
  match p.place with
  | .mem key =>
    match (match poolOf key with
      | some (d, o) => (s.coreAt d).poolCheck o p.nb
      | none => none) with
    | some (cause, b) => s.receiveFault c x i p (BitVec.ofNat 8 cause) (p.va + w64 (b - key % 2 ^ 18))
    | none =>
      let s1 := s.claimKeys (upTo key p.nb)
      if s1.poisoned key p.nb then s1.consumePoison c x p.va 1
      else s1.receive c x i p (w64 (s1.peekLe key p.nb))
  | .fmt d w off =>
    match (s.coreAt d).fmtCheck w off p.nb with
    | some cause => s.receiveFault c x i p (BitVec.ofNat 8 cause) p.va
    | none =>
      let s1 := s.claimFmt d w off p.nb
      let (v, f) := s1.fmtValue d w off p.nb
      if (s1.fmtKeys d w off p.nb).any (fun k => s1.poison.contains (k / 8)) then s1.consumePoison c x p.va 1
      else
        let t := s1.receive c x i p (w64 v)
        t.setCtx c x ((t.ctxAt c x).orFlags f)
  | .sync pa =>
    if s.deaf (keyDie pa) (s.tenOf c) (s.ctxidOf c) then s
    else if s.poisoned pa p.nb then s.consumePoison c x p.va 1 else s.receive c x i p (w64 (s.peekLe pa p.nb))
  | _ => s

/-- SPLIT_LOAD_REPLY, loads of one byte in their order: `here` for a place inside the module; the link's value or fault for a host-window load. A reply
from another module comes as a packet. (Mark: DESIGN CHOICE, safe, log 4; DEDUCED, unsafe, log 102) -/
def execSplitLoadReply (core ctx idx : Nat) (reply : Reply) (s : State) : Out :=
  let x := s.ctxAt core ctx
  match x.pends.drop idx with
  | [] => .next s
  | p :: _ =>
    if p.answer.isSome || ! x.live || s.unread (x.pends.take idx) (s.pendKeys p) then .next s
    else match reply, p.place with
      | .here, _ => .next (s.replyHere core ctx idx p)
      | .value v, .host _ => .next (s.receive core ctx idx p v)
      | .cause b, .host _ => .next (s.receiveFault core ctx idx p b p.va)
      | _, _ => .next s

/-! ## LD (R262) -/

/-- A pending load of the issuing context. -/
def State.pendOf (s : State) (d : BitVec 5) (va : W64) (nb : Nat) (signed : Bool) (p : Place) : Pend :=
  { reg := d, va := va, nb := nb, signed := signed, place := p, pc := s.me.pc, keep := false, answer := none, got := [], ui := s.me.ui }

/-- A load whose place is known. Stores of the context that are still queued reach their places before a load that
another unit performs. (Mark: DEDUCED, unsafe, log 16) -/
def State.loadAt (s : State) (d : BitVec 5) (va : W64) (nb : Nat) (signed : Bool) (p : Place) : Out :=
  match p with
  | .vers f depth off =>
    let h := verHeader f off
    let v := ofLeBytes (((s.verPlain h depth).drop (off % 8)).take nb)
    if s.poisoned (verSlot h depth (s.verCur h)) 8 then s.consume va 1 (fun t => t.done d (extendTo signed nb v))
    else s.done d (extendTo signed nb v)
  | .fmt c w off =>
    if clusterOf c = clusterOf s.core then
      s.whenFree (s.fmtKeys c w off nb)
        (let s1 := (s.drainQueue s.core s.ctx).claimFmt c w off nb
         let (v, f) := s1.fmtValue c w off nb
         if (s1.fmtKeys c w off nb).any (fun k => s1.poison.contains (k / 8)) then
           s1.consume va 1 (fun t => (t.orFlags f).done d (extendTo signed nb v))
         else (s1.orFlags f).done d (extendTo signed nb v))
    else (s.drainQueue s.core s.ctx).splitPhase (s.pendOf d va nb signed p) { }
  | .mq c off =>
    s.done d (extendTo signed nb (ofLeBytes ((upTo off nb).map (s.coreAt c).mqByte)))
  | .control off => s.done d (extendTo signed nb (s.controlRead s.core off nb))
  | .remote _ =>
    let b : Body := { op := .ld, va := va, nb := nb, reg := d }
    s.splitPhase (s.pendOf d va nb signed p) b
  | _ => (s.drainQueue s.core s.ctx).splitPhase (s.pendOf d va nb signed p) { }

/-- LD. -/
def execLd (d b : BitVec 5) (z : BitVec 3) (sg : BitVec 1) (o : BitVec 12) (s : State) : Out :=
  whenWf (.ld d b z sg o) s
    (let va := s.rd b + sext o
     let nb := 2 ^ z.toNat
     match s.resolve s.core s.ctx va nb false false with
     | .trap cause v => .next (s.trap cause v)
     | .miss v => s.missAt v (accBits true false false false false) (decide (va.toNat % nb ≠ 0))
     | .bytes keys => s.readKeys va keys (fun l t => t.done d (extendTo (sg == 1) nb (ofLeBytes l)))
     | .place p => s.loadAt d va nb (sg == 1) p)

/-! ## Creations (08 R156 to R159) -/

/-- A creation by the issuing context: what came before it is performed at system scope, then the promise and the floor
decide; `k` goes on with the version created. -/
def State.create (s : State) (h d o : Nat) (bytes : List Byte) (k : W64 → State → Out) : Out :=
  match s.me.grant with
  | some v => k v s
  | none =>
    if ! s.settledSystem s.core s.ctx then s.wait 6
    else
      let s1 := s.performModule s.core s.ctx
      let ask := [BitVec.ofNat 8 o, BitVec.ofNat 8 d] ++ bytes
      if ! s1.mayCreate h (s1.ctxidOf s1.core) (s1.groupsOf s1.core s1.ctx) then s1.verWait h .heldBack ask
      else if s1.creationsWait h then s1.verWait h .create ask
      else match s1.verCreate h d o bytes with
        | some t => k (zext (t.verCur h)) ((t.fulfil h).serveWord h)
        | none => s1.verWait h .create ask

/-! ## ST (R262) -/

/-- A window write: RND resolved at issue, one draw for each element in SR; enabled flags trap and nothing is written. -/
def State.storeFmt (s : State) (c w off nb : Nat) (v : W64) : Out :=
  let a := (s.coreAt c).awdAt w
  let mode := resolveMode (bitsAt a 5 3) s.me.rm
  let n := nb / 4
  let draws := if mode = 6 then s.draws n else []
  let s1 := ((if mode = 6 then s.advanceRnd n else s).drainQueue s.core s.ctx).claimFmt c w off nb
  let vals := (upTo 0 n).map (fun i => v.toNat / 2 ^ (32 * i) % 2 ^ 32)
  let (t, f) := s1.fmtWrite c w (off / 4) mode vals draws
  if Nat.land f s.me.en ≠ 0 then .next ((s1.orFlags f).trap 0x15 (w64 f)) else .next ((t.orFlags f).retire)

/-- A store whose place is known. (Mark: DEDUCED, unsafe, log 16) -/
def State.storeAt (s : State) (va : W64) (nb : Nat) (v : W64) (p : Place) : Out :=
  let bytes := leBytes nb v.toNat
  match p with
  | .mem key => s.whenFree (upTo key nb)
    (.next ((s.claimKeys (upTo key nb)).enqueueStore s.core s.ctx { key := key, bytes := bytes, hbm := false, va := va }).retire)
  | .sync pa => s.whenFree (upTo pa nb)
    (.next (s.enqueueStore s.core s.ctx { key := pa, bytes := bytes, hbm := false, va := va }).retire)
  | .vers f depth off => s.create (verHeader f off) depth (off % 8) bytes (fun _ t => .next t.retire)
  | .fmt c w off => s.whenFree (s.fmtKeys c w off nb) (s.storeFmt c w off nb v)
  | .mq c off => .next ((s.setCore c ((s.coreAt c).mqStore off bytes)).retire)
  | .host addr => s.whenFree (upTo (hostKey (addr % 2 ^ 64)) nb)
    (.next (s.enqueueStore s.core s.ctx { key := hostKey (addr % 2 ^ 64), bytes := bytes, hbm := false }).retire)
  | .control off => .next ((s.drainQueue s.core s.ctx).controlWrite s.core off bytes).retire
  | .remote m =>
    .next ((s.post m 0 { s.storeBody va v nb with bytes := s.groupBytes s.core s.ctx }).reserveFar va nb).retire
  | .vec => .next s.retire

/-- An address in window 0 of another core's pool: the owner bit is looked at when the store reaches the tile's banks (07
R125). (Mark: DEDUCED, unsafe, log 16) -/
def State.otherPool (s : State) (va : W64) : Bool :=
  decide (bitsAt va 48 8 = 0xFE ∧ bitsAt va 36 12 ≠ s.core ∧ bitsAt va 32 4 = 0)

/-- ST. -/
def execSt (d b : BitVec 5) (z : BitVec 3) (o : BitVec 12) (s : State) : Out :=
  whenWf (.st d b z o) s
    (let va := s.rd b + sext o
     let nb := 2 ^ z.toNat
     match s.resolve s.core s.ctx va nb true false with
     | .trap cause v =>
       if cause = 0x0B ∧ s.otherPool va then s.storeAt va nb (s.rd d) (.mem (poolKey (bitsAt va 36 12) (bitsAt va 0 18)))
       else .next (s.trap cause v)
     | .miss v => s.missAt v (accBits false true false false false) (decide (va.toNat % nb ≠ 0))
     | .bytes keys =>
       s.whenFree keys (.next (((s.claimKeys keys).storeBytes s.core s.ctx va keys (leBytes nb (s.rd d).toNat)).retire))
     | .place p => s.storeAt va nb (s.rd d) p)

/-! ## Versioned words (R264) -/

/-- An access to a versioned word: MISALIGNED, PROTECTION for any other place, or `k` with its header, depth and page
offset; `far` for a word of another module. -/
def State.versioned (s : State) (va : W64) (wr : Bool) (far : Nat → Out) (k : Nat → Nat → Out) : Out :=
  if va.toNat % 8 ≠ 0 then .next (s.trap 0x03 va)
  else match s.resolve s.core s.ctx va 8 wr false with
    | .trap cause v => .next (s.trap cause v)
    | .miss v => s.miss v (accBits (! wr) wr false true false)
    | .place (.vers f depth off) => k (verHeader f off) depth
    | .place (.remote m) => far m
    | _ => .next (s.trap 0x05 va)

/-- A creation or floor raise takes effect once everything before it is performed at system scope. -/
def State.afterAll (s : State) (k : State → Out) : Out :=
  if ! s.settledSystem s.core s.ctx then s.wait 6 else k (s.performModule s.core s.ctx)

/-- An operation that another module answers and that its instruction waits for, with a stall reason: the request leaves
once, within the limits of split-phase requests (14 R264). (Mark: DEDUCED, unsafe, log 55; DEDUCED, unsafe, log 104) -/
def State.farWait (s : State) (reason : Nat) (d : BitVec 5) (va : W64) (m : Nat) (q : Body) : Out :=
  match s.me.grant with
  | some r => s.done d r
  | none =>
    if s.me.pends.any (fun p => p.keep && decide (p.place = .remote m)) then s.wait reason
    else if ! s.reachable m then .next (s.trap 0x08 va)
    else if s.me.outstanding ≥ 8 ∨ s.myCore.outstanding ≥ 32 then s.wait 1
    else
      let s1 := ((s.sendPacket (s.request m 0 q)).countOn s.core 9 1).countOn s.core 8 1
      (s1.setMe { s1.me with pends := s1.me.pends ++ [{ s1.pendOf d va 8 false (.remote m) with keep := true }] }).wait reason

/-- A version operation on a word of another module waits with stall reason 6 (08 R157, R159). An STV to a module that is
not reachable is reported as 02 R47 has it. (Mark: DEDUCED, unsafe, log 104) -/
def State.farVersion (s : State) (d : BitVec 5) (va : W64) (m : Nat) (q : Body) : Out :=
  if q.op = .stv ∧ s.me.grant.isNone ∧ s.me.pends.all (! ·.keep) ∧ ! s.reachable m then
    .next (s.postAsync s.core s.ctx 0x08 (noseqRecord m 0)).retire
  else s.farWait 6 d va m q

/-- A creation or floor raise on a word of another module. -/
def State.farCreation (s : State) (d : BitVec 5) (va : W64) (m : Nat) (q : Body) : Out :=
  if s.me.grant.isSome || s.me.pends.any (·.keep) then s.farVersion d va m q
  else s.afterAll (fun t => t.farVersion d va m q)

/-- LDV. -/
def execLdv (d a b : BitVec 5) (s : State) : Out :=
  let va := s.rd a
  let v : W32 := (s.rd b).setWidth 32
  s.versioned va false
    (fun m =>
      let q : Body := { op := .ldv, va := va, val := s.rd b, nb := 8, reg := d }
      s.farVersion d va m q)
    (fun h depth =>
      match s.me.grant with
      | some r => s.done d r
      | none => match s.verRead h depth v with
        | none => s.verWait h (.readV v) [0, BitVec.ofNat 8 depth]
        | some none => .next ((s.withdraw s.core s.ctx).trap 0x09 va)
        | some (some r) =>
          if s.poisoned (verSlot h depth v) 8 then s.consume va 1 (fun t => t.done d r) else s.done d r)

/-- STV. -/
def execStv (d a b : BitVec 5) (s : State) : Out :=
  let va := s.rd a
  s.versioned va true
    (fun m =>
      let q : Body := { op := .stv, va := va, val := s.rd b, nb := 8, reg := d,
                        bytes := s.groupBytes s.core s.ctx }
      s.farCreation d va m q)
    (fun h depth => s.create h depth 0 (leBytes 8 (s.rd b).toNat) (fun v t => t.done d v))

/-- RECLAIM. (Mark: DEDUCED, unsafe, log 51; DEDUCED, unsafe, log 104) -/
def execReclaim (a b : BitVec 5) (s : State) : Out :=
  let va := s.rd a
  s.versioned va true
    (fun m =>
      let q : Body := { op := .reclaim, va := va, val := s.rd b, nb := 8 }
      s.farCreation 0 va m q)
    (fun h _ => s.afterAll (fun t => .next ((t.verRaise h ((s.rd b).setWidth 32)).serveWord h).retire))

/-- FLOOR and CUR as VERQ returns them. -/
def State.verWords (s : State) (h : Nat) : W64 := w64 ((s.verFloor h).toNat * 2 ^ 32 + (s.verCur h).toNat)

/-- VERQ. -/
def execVerq (d a : BitVec 5) (s : State) : Out :=
  let va := s.rd a
  s.versioned va false
    (fun m =>
      let q : Body := { op := .verq, va := va, nb := 8, reg := d }
      s.splitPhase (s.pendOf d va 8 false (.remote m)) q)
    (fun h _ => s.done d (s.verWords h))

/-! ## Records that an instruction reads word by word -/

/-- What reading a word gives: the word, or how the turn ends. -/
inductive Got where
  | word (w : W64) (s : State)
  | stop (o : Out)

/-- Forget the words that the instruction at the pc has kept. -/
def State.dropKept (s : State) : State := s.setMe { s.me with pends := s.me.pends.filter (fun p => ! p.keep) }

/-- A word that another unit performs: requested once, then waited for with stall reason 1. -/
def State.farWord (s : State) (va : W64) (p : Place) (op : Body) : Got :=
  match s.me.pends.find? (fun q => q.keep && decide (q.va = va)) with
  | some q => match q.answer with
    | some v => .word v s
    | none => .stop (s.wait 1)
  | none =>
    let q : Pend := { s.pendOf 0 va 8 false p with keep := true }
    if s.me.outstanding ≥ 8 ∨ s.myCore.outstanding ≥ 32 then .stop (s.wait 1)
    else match p with
      | .remote m =>
        if ! s.reachable m then .stop (.next (s.dropKept.trap 0x08 va))
        else
          let t := (s.sendPacket (s.request m 0 op)).countOn s.core 9 1
          .stop ((t.setMe { t.me with pends := t.me.pends ++ [q] }).wait 1)
      | _ => .stop ((s.setMe { s.me with pends := s.me.pends ++ [q] }).wait 1)

/-- Read an aligned word of a record, as the issuing context's LD would. -/
def State.recordWord (s : State) (va : W64) : Got :=
  match s.resolve s.core s.ctx va 8 false false with
  | .trap cause v => .stop (.next (s.dropKept.trap cause v))
  | .miss v => .stop (s.miss v (accBits true false false false false))
  | .bytes keys =>
    let s1 := (s.claimKeys keys).settle s.core s.ctx keys
    if s1.tainted keys && isArray s.core then .stop (s1.consume va 1 (fun t => .next t))
    else .word (w64 (ofLeBytes (s1.loadBytes s1.core s1.ctx keys))) s1
  | .place (.vers f depth off) =>
    let h := verHeader f off
    if s.poisoned (verSlot h depth (s.verCur h)) 8 && isArray s.core then .stop (s.consume va 1 (fun t => .next t))
    else .word (w64 (ofLeBytes (s.verPlain h depth))) s
  | .place (.mq c off) => .word (w64 (ofLeBytes ((upTo off 8).map (s.coreAt c).mqByte))) s
  | .place (.control off) => .word (w64 (s.controlRead s.core off 8)) s
  | .place (.fmt c w off) =>
    if clusterOf c = clusterOf s.core then
      let s1 := (s.drainQueue s.core s.ctx).claimFmt c w off 8
      let (v, f) := s1.fmtValue c w off 8
      if (s1.fmtKeys c w off 8).any (fun k => s1.poison.contains (k / 8)) && isArray s.core then
        .stop (s1.consume va 1 (fun t => .next t))
      else .word (w64 v) (s1.orFlags f)
    else (s.drainQueue s.core s.ctx).farWord va (.fmt c w off) { }
  | .place (.remote m) =>
    let b : Body := { op := .ld, va := va, nb := 8 }
    s.farWord va (.remote m) b
  | .place p => (s.drainQueue s.core s.ctx).farWord va p { }

/-- Read `n` words of a record in ascending order, then go on. (Mark: DEDUCED, unsafe, log 20) -/
def State.readRecord (s : State) (va : W64) (n : Nat) (acc : List Byte) (k : List Byte → State → Out) : Out :=
  match n with
  | 0 => k acc s.dropKept
  | m + 1 =>
    match s.recordWord va with
    | .stop o => o
    | .word w t => t.readRecord (va + 8) m (acc ++ leBytes 8 w.toNat) k

/-! ## The fault queue (07 R145 to R147) -/

/-- The 32 bytes of an entry. -/
def fqBytes (t : Nat) (e : FqEnt) : List Byte :=
  leBytes 8 (e.page * 65536) ++ leBytes 4 e.ctxid.toNat ++ leBytes 2 t ++ leBytes 1 e.cause ++ leBytes 1 e.bits.toNat
  ++ leBytes 2 e.merge ++ leBytes 2 e.core ++ leBytes 4 e.seq.toNat
  ++ leBytes 8 (e.seq.toNat + t * 2 ^ 32 + Config.tokenCheck e.seq t % 2 ^ 28 * 2 ^ 36)

/-- Write an entry into the ring, which lies in the service cores' space. -/
def State.fqStore (s : State) (t : Nat) (e : FqEnt) : State :=
  let n := s.tenantAt t
  match s.translate 16 (n.fqbase + w64 (32 * (e.seq.toNat % 2 ^ bitsAt n.fqcfg 0 4))) true with
  | some pa => s.pokeN pa (fqBytes t e)
  | none => s

/-- The ring has room and the queue is enabled. -/
def Tenant.fqRoom (n : Tenant) : Bool :=
  bitOn n.fqcfg 8 && decide ((n.fqtail - n.fqhead).toNat < 2 ^ bitsAt n.fqcfg 0 4)

/-- A new entry at TAIL, with a notice when the queue was empty. -/
def State.fqWrite (s : State) (t : Nat) (e : FqEnt) : State :=
  let n := s.tenantAt t
  let f := { e with seq := n.fqtail }
  let s1 := (s.setTenant t { n with fqtail := n.fqtail + 1, fq := n.fq ++ [f], tokens := n.tokens ++ [(n.fqtail, e.page)] }).fqStore t f
  if n.fqhead = n.fqtail then
    s1.mbPut (bitsAt n.fqcfg 4 4) 1 3 (leBytes 2 t ++ leBytes 2 0 ++ leBytes 4 (n.fqtail + 1).toNat ++ leBytes 4 n.fqhead.toNat)
  else s1

/-- Merge a further fault into an entry. (Mark: DEDUCED, unsafe, log 98) -/
def FqEnt.join (e : FqEnt) (bits : Byte) : FqEnt := { e with merge := min (e.merge + 1) 0xFFFF, bits := e.bits ||| bits }

/-- A fault reaches the queue: merged, written, or waiting in the walker. (Mark: DEDUCED, unsafe, log 98) -/
def State.fqFault (s : State) (t : Nat) (e : FqEnt) : State :=
  let n := s.tenantAt t
  match n.fq.find? (fun f => f.page == e.page) with
  | some f =>
    let g := f.join e.bits
    (s.setTenant t { n with fq := n.fq.map (fun h => if h.seq = f.seq then g else h) }).fqStore t g
  | none =>
    if n.fqWait.any (fun f => f.page == e.page) then
      s.setTenant t { n with fqWait := n.fqWait.map (fun f => if f.page = e.page then f.join e.bits else f) }
    else if n.fqRoom && n.fqWait.isEmpty then s.fqWrite t e
    else s.setTenant t { n with fqWait := n.fqWait ++ [e] }

/-- FAULT_ENTRY_WRITE: the oldest waiting fault enters the ring once it has room. (Mark: DEDUCED, unsafe, log 98) -/
def execFaultEntryWrite (t : BitVec 4) (s : State) : Out :=
  let n := s.tenantAt t.toNat
  match n.fqWait with
  | e :: r => if n.fqRoom then .next ((s.setTenant t.toNat { n with fqWait := r }).fqWrite t.toNat e) else .next s
  | [] => .next s

/-- A new fault-queue entry for an access of a core. (Mark: DEDUCED, unsafe, log 98) -/
def newFault (va : W64) (cause core : Nat) (ctxid : W32) (bits : Byte) : FqEnt :=
  { page := bitsAt va 16 39, va := va, ctxid := ctxid, cause := cause, bits := bits, merge := 0, core := core, seq := 0 }

/-! ## Walks (07 R137, R143, R144) -/

/-- The end of one walk of a core's access. A misaligned access to a page that takes none is MISALIGNED before any other fault
of the page (09 R173). -/
def State.walkEnd (s : State) (w : WalkReq) : State :=
  let x := s.ctxAt w.core w.ctx
  let r := s.walk w.ten w.va w.pl (bitOn w.bits 1) (bitOn w.bits 2)
  let s0 := match r with
    | .leaf t => if isArray w.core then s.clusterFill (clusterOf w.core) t else s
    | _ => s
  if w.eng then s0
  else if w.mis && s.strictLeaf w.ten w.va then
    s.setCtx w.core w.ctx { x with due := x.due ++ [(3, w.va, x.pc)], stall := 0 }
  else match r with
  | .leaf t =>
    let k := s0.coreAt w.core
    s0.setCore w.core { k with tlb := tlbFill k.tlb t 64, ctxs := Tab.set k.ctxs w.ctx { x with stall := 0 } }
  | .park cause =>
    let p : Parked := { ten := w.ten, page := bitsAt w.va 16 39, bits := w.bits, va := w.va }
    ((s.setCtx w.core w.ctx { x with parked := some p, stall := 10 }).countOn w.core 7 1).fqFault w.ten
      (newFault w.va cause w.core (s.ctxidOf w.core) w.bits)
  | .fail cause => s.setCtx w.core w.ctx { x with due := x.due ++ [(BitVec.ofNat 8 cause, w.va, x.pc)], stall := 0 }

/-- Misses to one page of a tenant join one walk. -/
def WalkReq.joins (a b : WalkReq) : Bool := decide (a.ten = b.ten ∧ bitsAt a.va 16 39 = bitsAt b.va 16 39) && ! b.finished

/-- The distinct walks that precede a request, at most 16 of which are under way at once. -/
def walksBefore (l : List WalkReq) : List WalkReq :=
  l.foldl (fun acc w => if acc.any w.joins then acc else acc ++ [w]) []

/-- TABLE_WALK_COMPLETE. -/
def execTableWalkComplete (cluster idx : Nat) (s : State) : Out :=
  let k := s.clusterAt cluster
  match k.walks.drop idx with
  | [] => .next s
  | w :: _ =>
    if w.finished ∨ (walksBefore ((k.walks.take idx).filter (fun v => ! v.finished))).length ≥ 16 then .next s
    else
      let mine := k.walks.filter w.joins
      let leaf := fun (v : WalkReq) => match s.walk v.ten v.va v.pl (bitOn v.bits 1) false with
        | .leaf _ => true
        | _ => false
      let left := k.walks.filterMap (fun v =>
        if ! w.joins v then some v else if v.eng && ! leaf v then some { v with finished := true } else none)
      let s1 := s.setCluster cluster { k with walks := left }
      .next (mine.foldl State.walkEnd s1)

/-! ## Buffers -/

/-- STORE_QUEUE_DRAIN. (Mark: DEDUCED, unsafe, log 16) -/
def execStoreQueueDrain (core ctx : Nat) (s : State) : Out := .next (s.drainOne core ctx)

/-- PORT_LINE_DRAIN. -/
def execPortLineDrain (cluster : BitVec 8) (idx : Nat) (s : State) : Out :=
  let k := s.clusterAt cluster.toNat
  match k.port.drop idx with
  | [] => .next s
  | l :: _ => .next ((s.drainLine l).setCluster cluster.toNat { k with port := dropNth k.port idx })

/-! ## Waiters of other modules (08 R157) -/

/-- Which request a RETRY answers. -/
def retryCode : BodyOp → Byte
  | .stv => 1
  | .estate => 2
  | _ => 0

/-- REMOTE_WAITER_RETRY: after 2C tacks the request is answered RETRY, with what it asked. -/
def execRemoteWaiterRetry (idx : Nat) (s : State) : Out :=
  match s.waiters.drop idx with
  | [] => .next s
  | w :: _ =>
    match w.remote with
    | some p =>
      if s.now < w.since + 2 * s.cycleC * 8192 then .next s
      else
        let r := { s.replyTo p .retry 0 with body := { p.body with op := .retry, bytes := retryCode p.body.op :: p.body.bytes } }
        .next ({ s with waiters := dropNth s.waiters idx }.reply p r)
    | none => .next s

/-! ## Errors of memory (09 R192) -/

/-- 8 bytes are poisoned: the record names their physical address, the core or cluster that holds them (0xFFFF: none) and the unit
(04 R83, MCK 0x01), and the error is reported by AER (04 R64). (Mark: DESIGN CHOICE, unsafe, log 126) -/
def State.poisonUnit (s : State) (u v index unit : Nat) : State :=
  let s1 := { s with poison := if s.poison.contains u then s.poison else s.poison ++ [u], aer := s.aer + 1 }
  s1.machineCheck v 1 16 0 (w64 (8 * u % 2 ^ 52)) (leBytes 2 index ++ leBytes 1 unit)

/-- HBM_UNCORRECTABLE: the 8 bytes are poisoned, and both records go to the die's service core.
(Mark: DESIGN CHOICE, unsafe, log 126) -/
def execHbmUncorrectable (pa : Nat) (s : State) : Out :=
  if 2 ^ 52 ≤ pa ∨ ! s.present (pa / 65536) then .next s
  else
    let u := pa / 8
    let stack := pa / 2 ^ 36
    let v := dieService (stack / 2)
    let s2 := s.machineCheck v 8 16 0 (w64 (8 * u)) (leBytes 1 stack ++ [Config.hbmChannel pa])
    .next (s2.poisonUnit u v 0xFFFF 6)

/-- Where a key of memory lies in SRAM: die, core or cluster, and the unit of 04 R83. (Mark: DEDUCED, unsafe, log 127) -/
def sramAt (key : Nat) : Option (Nat × Nat × Nat) :=
  match poolOf key with
  | some (c, _) => some (dieOf c, c, 1)
  | none =>
    if 2 ^ 61 ≤ key ∧ key < 2 ^ 61 + 2 ^ 30 then
      let cl := (key - 2 ^ 61) / 2 ^ 22
      some (cl / 64, cl, 2)
    else if 2 ^ 62 ≤ key ∧ key < 2 ^ 62 + 2 ^ 30 then
      let cl := (key - 2 ^ 62) / 2 ^ 22
      some (cl / 64, cl, 3)
    else if 2 ^ 63 ≤ key ∧ key < 2 ^ 63 + 2 ^ 30 then some ((key - 2 ^ 63) / 2 ^ 28, (key - 2 ^ 63) / 2 ^ 28, 4)
    else if 2 ^ 63 + 2 ^ 30 ≤ key ∧ key < 2 ^ 63 + 2 ^ 31 then
      some ((key - 2 ^ 63 - 2 ^ 30) / 2 ^ 28, (key - 2 ^ 63 - 2 ^ 30) / 2 ^ 28, 5)
    else none

/-- An error in SRAM: a single bit is corrected, written back and logged; two bits poison the 8 bytes.
(Mark: DEDUCED, unsafe, log 127) -/
def State.sramError (s : State) (key : Nat) (double : Bool) : State :=
  match sramAt key with
  | none => s
  | some (die, index, unit) =>
    if double then s.poisonUnit (key / 8) (dieService die) index unit
    else { s with dieLog := s.dieLog ++ [(die, leBytes 8 (key % 2 ^ 64) ++ leBytes 2 index ++ leBytes 1 unit)] }

end Sys2Proof.Machine
end

