-- ==== Sys2Proof/Machine/Sync.lean ====
section
/-! DEFINITION. Atomics (19 R364 to R367) with the combining butterfly (03 R56, R57), barriers (R368), fences (R369;
08 R160 to R162) and the event-counter instructions (R370). -/

namespace Sys2Proof.Machine

open Sys2Proof

/-! ## The operations (R364) -/

/-- Memory's new value and the value returned, for an operation on 8 bytes. -/
def amo8 (op : Nat) (old b cmp : W64) : W64 × W64 :=
  match op with
  | 0 => (b, old)
  | 1 => (old + b, old)
  | 2 => (old &&& b, old)
  | 3 => (old ||| b, old)
  | 4 => (old ^^^ b, old)
  | 5 => (if old.slt b then old else b, old)
  | 6 => (if old.slt b then b else old, old)
  | 7 => (if old.ult b then old else b, old)
  | 8 => (if old.ult b then b else old, old)
  | 9 => (if old = cmp then b else old, old)
  | _ => (w64 (fp64.add 0 0 old.toNat b.toNat).1, old)

/-- The same on 4 bytes: the old value is sign-extended for min and max, else zero-extended. -/
def amo4 (op : Nat) (old b cmp : W32) : W32 × W64 :=
  match op with
  | 0 => (b, zext old)
  | 1 => (old + b, zext old)
  | 2 => (old &&& b, zext old)
  | 3 => (old ||| b, zext old)
  | 4 => (old ^^^ b, zext old)
  | 5 => (if old.slt b then old else b, sext old)
  | 6 => (if old.slt b then b else old, sext old)
  | 7 => (if old.ult b then old else b, zext old)
  | 8 => (if old.ult b then b else old, zext old)
  | 9 => (if old = cmp then b else old, zext old)
  | _ => (BitVec.ofNat 32 (fp32.add 0 0 old.toNat b.toNat).1, zext old)

/-- Read, modify and write a location at its home: the state, and the value returned. -/
def State.amoAt (s : State) (key nb op : Nat) (b cmp : W64) : State × W64 :=
  let old := s.peekLe key nb
  if nb = 4 then
    let (n, r) := amo4 op (BitVec.ofNat 32 old) (b.setWidth 32) (cmp.setWidth 32)
    (s.pokeLe key 4 n.toNat, r)
  else
    let (n, r) := amo8 op (w64 old) b cmp
    (s.pokeLe key 8 n.toNat, r)

/-- The issuing context's earlier stores reach memory before its atomic does. (Mark: DEDUCED, unsafe, log 49) -/
def State.beforeAmo (s : State) (key nb : Nat) : State := (s.performModule s.core s.ctx).claimKeys (upTo key nb)

/-- Where an atomic may act: `k` with the memory key and whether it is a sync page; `far` for another module. -/
def State.atomic (s : State) (va : W64) (nb : Nat) (far : Nat → Out) (k : Nat → Bool → Out) : Out :=
  if va.toNat % nb ≠ 0 then .next (s.trap 0x03 va)
  else match s.resolve s.core s.ctx va nb true false with
    | .trap cause v => .next (s.trap cause v)
    | .miss v => s.miss v (accBits false true false false false)
    | .bytes keys =>
      (match keys with
      | key :: _ => s.whenFree keys (k key false)
      | [] => .next (s.trap 0x05 va))
    | .place (.mem key) => s.whenFree (upTo key nb) (k key false)
    | .place (.sync pa) => s.whenFree (upTo pa nb) (k pa true)
    | .place (.remote m) => far m
    | .place _ => .next (s.trap 0x05 va)

/-! ## The butterfly (03 R56, R57) -/

/-- A request in the butterfly carries an add of the issuing context. -/
def State.myReq (s : State) (r : BfReq) : Bool := r.leaves.any (fun e => decide (e.1 = s.core ∧ e.2.1 = s.ctx))

/-- The first stage at which requests of two clusters to one word meet. (Mark: DESIGN CHOICE, safe, log 47) -/
def meetStage (p q : Nat) : Nat := if p / 4 = q / 4 then 0 else if p / 16 = q / 16 then 1 else 2

/-- The switch of a stage on the way from a cluster of a die to the bank and port of an address: 16 to a stage.
(Mark: DESIGN CHOICE, safe, log 47) -/
def bfSwitch (stage port pa : Nat) : Nat :=
  let out := pa / 64 % 16 * 4 + pa / 1024 % 4
  16 * stage + port / 4 ^ (stage + 1) * 4 ^ stage + out / 4 ^ (3 - stage)

/-- Give a context that waits on a request its value. (Mark: DESIGN CHOICE, safe, log 47) -/
def State.bfGrant (s : State) (e : Nat × Nat × (Nat × W32 × Nat)) (v : W64) : State :=
  let x := s.ctxAt e.1 e.2.1
  if x.live && decide (x.stall = stCleat) && decide ((s.coreAt e.1).thread = some e.2.2) then
    s.setCtx e.1 e.2.1 { x with grant := some v }
  else s

/-- The reply to a request: to the wait-buffer entry that takes it, else to the contexts whose adds it carries. -/
def State.bfReply (s : State) (die : Nat) (r : BfReq) (v : W64) : State :=
  match r.tag with
  | some g =>
    let l := (Tab.get s.bfWait [] die).map (fun (w : BfWait) => if w.tag = g then { w with reply := some v } else w)
    { s with bfWait := Tab.set s.bfWait die l }
  | none => r.leaves.foldl (fun u e => u.bfGrant e v) s

/-- An integer add to a sync page: the request enters the butterfly of the cell's die, past its stages where it comes from
another, and the Cleat performs it at the next turn of a context whose add it carries. (Mark: DESIGN CHOICE, safe, log 47) -/
def State.cleatAdd (s : State) (d : BitVec 5) (pa nb : Nat) (v : W64) (amo : Bool) : Out :=
  let die := keyDie pa
  let l := Tab.get s.bf [] die
  match s.me.grant with
  | some r => s.done d r
  | none =>
    match l.find? s.myReq with
    | some r =>
      let s1 := { s with bf := Tab.set s.bf die (l.filter (fun q => q != r)) }
      let (t, old) := (s1.beforeAmo pa nb).amoAt pa nb 1 r.add 0
      (match r.tag with
      | some _ => (t.bfReply die r old).wait stCleat
      | none => (t.bfReply die { r with leaves := r.leaves.filter (fun e => ! decide (e.1 = s.core ∧ e.2.1 = s.ctx)) } old).done d old)
    | none =>
      if (Tab.get s.bfWait [] die).any (fun w => s.myReq w.first || s.myReq w.second) then s.wait stCleat
      else
        let owner := match s.myCore.thread with
          | some o => o
          | none => (16, 0, 0)
        let r : BfReq := { port := clusterOf s.core % 64,
                           stage := if isArray s.core && decide (dieOf s.core = die) then 0 else 3,
                           pa := pa, width := nb, add := v, amo := amo, ten := owner.1,
                           leaves := [(s.core, s.ctx, owner)], tag := none }
        { (s.performModule s.core s.ctx) with bf := Tab.set s.bf die (l ++ [r]) }.wait stCleat

/-- Two requests that the switch where they meet combines: integer adds of one kind to one word, one tenant, one width,
neither of them past that switch. (Mark: DESIGN CHOICE, safe, log 47) -/
def BfReq.combines (a b : BfReq) : Bool :=
  decide (a.amo = b.amo ∧ a.pa = b.pa ∧ a.width = b.width ∧ a.ten = b.ten ∧ a.port ≠ b.port
    ∧ a.stage ≤ meetStage a.port b.port ∧ b.stage ≤ meetStage a.port b.port)

/-- BUTTERFLY_COMBINE: two requests are in the switch where they meet in one clk. That of the lower port counts as the
earlier, and the sum goes on from the switch; for AMO the earlier addend is kept in an entry of the switch's wait buffer of
32, for RED nothing is kept. (Mark: DESIGN CHOICE, safe, log 47) -/
def execButterflyCombine (die : BitVec 2) (i j : Nat) (s : State) : Out :=
  let l := Tab.get s.bf [] die.toNat
  match l.drop i, l.drop j with
  | a :: _, b :: _ =>
    let w := Tab.get s.bfWait [] die.toNat
    let (p, q) := if a.port < b.port then (a, b) else (b, a)
    let st := meetStage p.port q.port
    let sw := bfSwitch st p.port p.pa
    if ! a.combines b || (a.amo && decide ((w.filter (fun e => e.switch == sw)).length ≥ 32)) then .next s
    else
      let g := w.foldl (fun m e => max m (e.tag + 1)) 0
      let sum : BfReq := { p with stage := st + 1, add := w64 ((p.add + q.add).toNat % 2 ^ (8 * p.width)),
                                  leaves := p.leaves ++ q.leaves, tag := if p.amo then some g else none }
      let s1 := { s with bf := Tab.set s.bf die.toNat (l.filter (fun r => r != a && r != b) ++ [sum]) }
      if p.amo then
        let e : BfWait := { tag := g, switch := sw, a1 := p.add, first := p, second := q, reply := none }
        .next { s1 with bfWait := Tab.set s1.bfWait die.toNat (w ++ [e]) }
      else .next s1
  | _, _ => .next s

/-- COMBINED_REPLY: the reply v to a sum has come back to its switch: the earlier request receives v and the later one
v + a1. (Mark: DESIGN CHOICE, safe, log 47) -/
def execCombinedReply (die : BitVec 2) (idx : Nat) (s : State) : Out :=
  let w := Tab.get s.bfWait [] die.toNat
  match w.drop idx with
  | e :: _ =>
    (match e.reply with
    | some v =>
      let s1 := { s with bfWait := Tab.set s.bfWait die.toNat (dropNth w idx) }
      let later := w64 ((v + e.a1).toNat % 2 ^ (8 * e.first.width))
      .next ((s1.bfReply die.toNat e.first v).bfReply die.toNat e.second later)
    | none => .next s)
  | [] => .next s

/-! ## AMO, AMOD, RED -/

/-- The Cleat of a sync word discards what the issuing context asks of it (03 R62). -/
def State.unheard (s : State) (key : Nat) (sync : Bool) : Bool :=
  sync && s.deaf (keyDie key) (s.tenOf s.core) (s.ctxidOf s.core)

/-- Width of an atomic: 4 with W4, else 8. -/
def amoWidth (w : BitVec 1) : Nat := if w = 1 then 4 else 8

/-- AMO. -/
def execAmo (d a b : BitVec 5) (w : BitVec 1) (o : BitVec 4) (s : State) : Out :=
  whenWf (.amo d a b w o) s
    (let va := s.rd a
     let nb := amoWidth w
     s.atomic va nb
      (fun m =>
        let q : Body := { op := .amo, va := va, val := s.rd b, cmp := s.rd d, nb := nb, sel := o.toNat, reg := d }
        s.splitPhase (s.pendOf d va nb (o = 5 || o = 6) (.remote m)) q)
      (fun key sync =>
        if s.unheard key sync then s.wait stCleat
        else if s.poisoned key nb then s.consume va 1 (fun t => .next t.retire)
        else if sync && o = 1 then s.cleatAdd d key nb (s.rd b) true
        else
          let (t, v) := (s.beforeAmo key nb).amoAt key nb o.toNat (s.rd b) (s.rd d)
          t.done d v))

/-- RED: posted. -/
def execRed (a b : BitVec 5) (w : BitVec 1) (o : BitVec 4) (s : State) : Out :=
  whenWf (.red a b w o) s
    (let va := s.rd a
     let nb := amoWidth w
     s.atomic va nb
      (fun m =>
        let q : Body := { op := .red, va := va, val := s.rd b, nb := nb, sel := o.toNat }
        .next (s.post m 0 q).retire)
      (fun key sync =>
        if s.unheard key sync then .next s.retire
        else if s.poisoned key nb then s.consume va 4 (fun t => .next t.retire)
        else if sync && o = 1 then s.cleatAdd 0 key nb (s.rd b) false
        else .next ((s.beforeAmo key nb).amoAt key nb o.toNat (s.rd b) 0).1.retire))

/-- The reply address of an AMOD, checked at issue: on this module, and writable. (Mark: DEDUCED, unsafe, log 50) -/
def State.replyAddr (s : State) (r : W64) (k : Out) : Out :=
  let node := bitsAt r 56 8
  if node ≠ 0 ∧ node ≠ 0x40 + s.modid then .next (s.trap 0x05 r)
  else match s.resolve s.core s.ctx r 8 true false with
    | .trap cause v => .next (s.trap cause v)
    | .miss v => s.miss v (accBits false true false false false)
    | _ => k

/-- AMOD: the old value is stored at the reply address once the reply has come; the comparand of cas is read there. -/
def execAmod (d a b : BitVec 5) (w : BitVec 1) (o : BitVec 4) (s : State) : Out :=
  whenWf (.amod d a b w o) s
    (let va := s.rd a
     let r := s.rd d
     let nb := amoWidth w
     if r.toNat % 8 ≠ 0 then .next (s.trap 0x03 r)
     else if va.toNat % nb ≠ 0 then .next (s.trap 0x03 va)
     else s.replyAddr r
      (s.atomic va nb
        (fun m =>
          let go := fun (cmp : W64) (t : State) =>
            let q : Body := { op := .amo, va := va, val := t.rd b, cmp := cmp, nb := nb, sel := o.toNat, reg := 0,
                              bytes := leBytes 8 r.toNat }
            t.splitPhase (t.pendOf 0 va nb (o = 5 || o = 6) (.remote m)) q
          if o = 9 then s.readRecord r 1 [] (fun l t => go (w64 (ofLeBytes l)) t) else go 0 s)
        (fun key sync =>
          if s.unheard key sync then .next s.retire
          else if s.poisoned key nb then s.consume va 1 (fun t => .next t.retire)
          else
            let go := fun (cmp : W64) (t : State) =>
              let (u, v) := (t.beforeAmo key nb).amoAt key nb o.toNat (t.rd b) cmp
              Host.Outcome.next (u.setMe { u.me with amodReply := u.me.amodReply ++ [(r, v)] }).retire
            if o = 9 then s.readRecord r 1 [] (fun l t => go (w64 (ofLeBytes l)) t) else go 0 s)))

/-- A store on behalf of a context that has gone on: the place it leads to takes it at once; none while a word of a
versioned page cannot be created. An address that has lost its permission since issue takes no store.
(Mark: DEDUCED, unsafe, log 50) -/
def State.lateStore (s : State) (c x : Nat) (va v : W64) : Option State :=
  match s.resolve c x va 8 true false with
  | .bytes keys => match keys with
    | key :: _ => some ((s.drainQueue c x).claimKeys keys |>.perform c { key := key, bytes := leBytes 8 v.toNat, hbm := isHbm key })
    | [] => some s
  | .place (.mem key) => some (((s.drainQueue c x).claimKeys (upTo key 8)).pokeN key (leBytes 8 v.toNat))
  | .place (.sync pa) =>
    if s.deaf (keyDie pa) (s.tenOf c) (s.ctxidOf c) then some s else some ((s.drainQueue c x).pokeCell pa (leBytes 8 v.toNat))
  | .place (.host addr) => some ((s.drainQueue c x).pokeN (hostKey (addr % 2 ^ 64)) (leBytes 8 v.toNat))
  | .place (.control off) => some ((s.drainQueue c x).controlWrite c off (leBytes 8 v.toNat))
  | .place (.mq d off) => some (s.setCore d ((s.coreAt d).mqStore off (leBytes 8 v.toNat)))
  | .place (.vers f depth off) =>
    let h := verHeader f off
    let s1 := s.performModule c x
    if ! s1.mayCreate h (s1.ctxidOf c) (s1.groupsOf c x) || s1.creationsWait h then none
    else (s1.verCreate h depth 0 (leBytes 8 v.toNat)).map (fun t => (t.fulfil h).serveWord h)
  | .place (.fmt d w off) =>
    let a := (s.coreAt d).awdAt w
    let mode := resolveMode (bitsAt a 5 3) (s.ctxAt c x).rm
    let draws := if mode = 6 then [0, 1].map (fun i =>
      srDraw (s.jobseedOf c) (w64 (s.lcoreOf c)) ((s.ctxAt c x).rndctr + w64 i)) else []
    let s1 := if mode = 6 then s.setCtx c x { s.ctxAt c x with rndctr := (s.ctxAt c x).rndctr + 2 } else s
    let s2 := s1.claimFmt d w off 8
    let (t, f) := s2.fmtWrite d w (off / 4) mode [v.toNat % 2 ^ 32, v.toNat / 2 ^ 32] draws
    let u := if Nat.land f (s.ctxAt c x).en ≠ 0 then s2 else t
    some (u.setCtx c x ((u.ctxAt c x).lateFlags f (s.ctxAt c x).pc))
  | .trap .. => some s
  | .place .vec => some s
  | .miss _ => none
  | .place (.remote m) =>
    let u := s.at c x
    some { (u.post m 0 { u.storeBody va v 8 with bytes := s.groupBytes c x }).reserveFar va 8 with core := s.core, ctx := s.ctx }

/-- Bytes that an access of 8 bytes reaches, where they lie in memory. (Mark: DEDUCED, unsafe, log 102) -/
def State.lateKeys (s : State) (r : Res) : List Nat :=
  match r with
  | .bytes keys => keys
  | .place (.mem key) => upTo key 8
  | .place (.sync pa) => upTo pa 8
  | .place (.host addr) => upTo (hostKey (addr % 2 ^ 64)) 8
  | .place (.fmt d w off) => s.fmtKeys d w off 8
  | _ => []

/-- AMOD_REPLY_STORE: the oldest reply store of a context is performed, once no load of the context has yet to read its
bytes. Where its page has left the TLB since issue, the walk comes first. (Mark: DEDUCED, unsafe, log 50) -/
def execAmodReplyStore (core ctx : Nat) (s : State) : Out :=
  match (s.ctxAt core ctx).amodReply with
  | [] => .next s
  | (va, v) :: r =>
    match s.resolve core ctx va 8 true false with
    | .miss a =>
      (match s.walk (s.tenOf core) a (s.ctxAt core ctx).pl true false with
      | .leaf e => .next (s.setCore core { s.coreAt core with tlb := tlbFill (s.coreAt core).tlb e 64 })
      | _ => .next s)
    | q =>
      if s.unread (s.ctxAt core ctx).pends (s.lateKeys q) then .next s
      else match s.lateStore core ctx va v with
      | none => .next s
      | some t =>
        let u := t.setCtx core ctx { t.ctxAt core ctx with amodReply := r }
        .next (match (u.coreAt core).thread with
          | some (n, id, _) => u.settleVictim n id
          | none => u)

/-! ## Reduction cells (R367) -/

/-- One combine of a reduction: RNE in its type, integer additions modulo 2^64. -/
def redCombine (op type : Nat) (a b : W64) : W64 × Nat :=
  match type with
  | 0 => (w64 (match op with
      | 0 => fp32.add 0 0 (a.toNat % 2 ^ 32) (b.toNat % 2 ^ 32)
      | 1 => fp32.minMax true (a.toNat % 2 ^ 32) (b.toNat % 2 ^ 32)
      | _ => fp32.minMax false (a.toNat % 2 ^ 32) (b.toNat % 2 ^ 32)).1, 0)
  | 1 => (w64 (match op with
      | 0 => fp64.add 0 0 a.toNat b.toNat
      | 1 => fp64.minMax true a.toNat b.toNat
      | _ => fp64.minMax false a.toNat b.toNat).1, 0)
  | 2 => (match op with
      | 0 => a + b
      | 1 => if a.slt b then a else b
      | _ => if a.slt b then b else a, 0)
  | _ => (match op with
      | 0 => a + b
      | 1 => if a.ult b then a else b
      | _ => if a.ult b then b else a, 0)

/-- The result of a generation: the tree over ranks; f32 in bits [31:0], upper bits 0. -/
def RedCell.result (r : RedCell) (p : Nat) : W64 :=
  let l := (upTo 0 p).map (Tab.get r.contribs 0)
  let v := match (pairTree (redCombine r.op r.type) (p + 1) l 0).1 with
    | x :: _ => x
    | [] => 0
  if r.type = 0 then w64 (v.toNat % 2 ^ 32) else v

/-- The cell at a key, idle where none is known. -/
def State.cellAt (s : State) (key : Nat) : RedCell :=
  match s.cells.find? (fun r => r.key == key) with
  | some r => r
  | none => { key := key, op := 0, type := 0, contribs := [], uncollected := [] }

/-- Replace a cell. -/
def State.setCell (s : State) (r : RedCell) : State :=
  { s with cells := s.cells.filter (fun q => q.key != r.key) ++ [r] }

/-- A waiter is a contributor of another module to a cell: its rank. (Mark: DEDUCED, unsafe, log 48) -/
def Waiter.rankAt (key : Nat) (w : Waiter) : Option Nat := match w.kind with
  | .reduction i => if w.key = key then some i else none
  | _ => none

/-- A contribution at the cell's Cleat: none for a rank outside the cell; else the result if there is one, and the
state. `far` is the packet of a contributor on another module, which waits for its reply with the result.
(Mark: DEDUCED, unsafe, log 48) -/
def State.redf (s : State) (key op type lcore : Nat) (v : W64) (far : Option Packet) : Option (Option W64 × State) :=
  let p := s.peekLe key 4
  let low := s.peekLe (key + 4) 4
  let rank := lcore - low
  let r := s.cellAt key
  if lcore < low ∨ rank ≥ p then none
  else match Tab.find r.uncollected rank with
    | some x => some (some x, s.setCell { r with uncollected := Tab.drop r.uncollected rank })
    | none =>
      let held := (Tab.find r.contribs rank).isSome
      let r1 := if held then r
        else if r.contribs.isEmpty then { r with op := op, type := type, contribs := [(rank, v)] }
        else { r with contribs := Tab.set r.contribs rank v }
      let others := s.waiters.filter (fun w => w.rankAt key != some rank)
      if r1.contribs.length < p then
        match far with
        | some q =>
          let w : Waiter := { kind := .reduction rank, key := key, core := 0, ctx := 0, since := s.now, remote := some q, bytes := [] }
          some (none, { s.setCell r1 with waiters := others ++ [w] })
        | none => some (none, s.setCell r1)
      else
        let x := r1.result p
        let away := others.filter (fun w => (w.rankAt key).isSome)
        let left := ((upTo 0 p).filter (fun i => i != rank && ! away.any (fun w => w.rankAt key == some i))).map (fun i => (i, x))
        let s1 := (s.setCell { r1 with contribs := [], uncollected := left }).pokeLe (key + 8) 8 (s.peekLe (key + 8) 8 + 1)
        let s2 := s1.pokeLe (key + 16) 8 x.toNat
        some (some x, away.foldl (fun u w => u.answer w x) { s2 with waiters := others.filter (fun w => (w.rankAt key).isNone) })

/-- REDF. (Mark: DEDUCED, unsafe, log 48) -/
def execRedf (d a b : BitVec 5) (t : BitVec 2) (o : BitVec 2) (s : State) : Out :=
  whenWf (.redf d a b t o) s
    (let va := s.rd a
     let lc := s.lcoreOf s.core
     s.atomic va 64
      (fun m =>
        let q : Body := { op := .redf, va := va, val := s.rd b, cmp := w64 lc, nb := 8, sel := o.toNat + 4 * t.toNat, reg := d }
        s.farWait 15 d va m q)
      (fun key sync =>
        if ! sync then .next (s.trap 0x05 va)
        else if s.unheard key sync then s.wait stCleat
        else match (s.performModule s.core s.ctx).redf key o.toNat t.toNat lc (s.rd b) none with
          | none => .next (s.trap 0x05 va)
          | some (some v, u) => u.done d v
          | some (none, u) => u.wait 15))

/-! ## Barriers (R368) -/

/-- The members of a tree of a launch that have not arrived: running threads, and suspended ones. -/
def State.treeMissing (s : State) (ten : Nat) (ctxid : W32) (t : Nat) : Bool :=
  s.cores.any (fun p => (match p.2.thread with
      | some (u, i, _) => decide (u = ten ∧ i = ctxid)
      | none => false)
    && (p.2.anyLive || (p.2.saving.isSome)) && bitOn p.2.bm t && ! bitOn p.2.arr t)
  || (match s.launchBy ten ctxid with
    | some l => l.saved.any (fun p => bitOn p.2.bm t && ! bitOn p.2.arr t)
    | none => false)

/-- Clear the arrivals of a tree. (Mark: DEDUCED, unsafe, log 99) -/
def State.clearTree (s : State) (ten : Nat) (ctxid : W32) (t : Nat) : State :=
  { s with
    cores := s.cores.map (fun p => match p.2.thread with
      | some (u, i, _) => if u = ten ∧ i = ctxid then (p.1, { p.2 with arr := putBits p.2.arr t 1 0 }) else p
      | none => p),
    launches := s.launches.map (fun (l : Launch) =>
      if l.ten = ten ∧ l.ctxid = ctxid then
        { l with saved := Tab.mapV l.saved (fun _ (z : SavedThread) => { z with arr := putBits z.arr t 1 0 }) }
      else l) }

/-- A phase of a tree completes when every member has arrived. (Mark: DEDUCED, unsafe, log 99) -/
def State.checkTree (s : State) (ten : Nat) (ctxid : W32) (t : Nat) : State :=
  if s.treeMissing ten ctxid t then s else s.clearTree ten ctxid t

/-- Every tree of a core's launch is looked at again. (Mark: DEDUCED, unsafe, log 99) -/
def State.checkTrees (s : State) (c : Nat) : State :=
  match (s.coreAt c).thread with
  | some (ten, ctxid, _) => (upTo 0 16).foldl (fun u t => u.checkTree ten ctxid t) s
  | none => s.setCore c { s.coreAt c with arr := 0 }

/-- ARRIVE. (Mark: DEDUCED, unsafe, log 99) -/
def execArrive (t : BitVec 4) (s : State) : Out :=
  let k := s.myCore
  if ! bitOn k.bm t.toNat then .next s.retire
  else if bitOn k.arr t.toNat then s.wait 7
  else .next ((s.setMyCore { k with arr := putBits k.arr t.toNat 1 1 }).checkTrees s.core).retire

/-- WAITB. -/
def execWaitb (t : BitVec 4) (s : State) : Out :=
  let k := s.myCore
  if bitOn k.bm t.toNat && bitOn k.arr t.toNat then s.wait 7 else .next s.retire

/-- BMASK. -/
def execBmask (a : BitVec 5) (s : State) : Out :=
  let v := s.rd a
  if v.toNat / 2 ^ 16 ≠ 0 then .next (s.trap 0x05 v)
  else if s.myCore.arr ≠ 0 then s.wait 7
  else .next ((s.setMyCore { s.myCore with bm := v.setWidth 16 }).checkTrees s.core).retire

/-! ## Fences (08 R160 to R162) -/

/-- The scope a fence selects: default is SCOPE[DLEV], system where there is no launch. -/
def State.fenceScope (s : State) (m : Nat) : Nat :=
  if m < 4 then m
  else match s.launchOf s.core with
    | some l => l.scope s.me.dlev.toNat
    | none => 3

/-- A context's copies to and from other modules have not completed. -/
def State.copying (s : State) (c x : Nat) : Bool :=
  let k := s.coreAt c
  k.copies.any (fun m => decide (m.state = 1 ∧ m.ctx = x) && decide (some m.owner = k.thread)
    && decide (recNat m.desc 15 1 ≠ 0 ∧ recNat m.desc 15 1 ≠ 0x40 + s.modid))

/-- Something of a context, apart from its buffered stores, has not been performed at a scope (08 R160, R165).
(Mark: DEDUCED, unsafe, log 49) -/
def State.unperformed (s : State) (scope c x : Nat) : Bool :=
  (decide (1 ≤ scope) && (! (s.ctxAt c x).amodReply.isEmpty || s.sending c x (decide (3 ≤ scope))))
  || (decide (3 ≤ scope) && (s.outward c x || s.copying c x))

/-- The work of a FENCE of a scope for the issuing context: it waits with stall reason 11. (Mark: DEDUCED, unsafe, log 49) -/
def State.fence (s : State) (scope : Nat) (k : State → Out) : Out :=
  if s.me.outstanding ≠ 0 ∨ s.unperformed scope s.core s.ctx then s.wait 11
  else match scope with
    | 0 => k s
    | 1 => k (s.drainQueue s.core s.ctx)
    | _ => k (s.performModule s.core s.ctx)

/-- FENCE. -/
def execFence (m : BitVec 3) (s : State) : Out :=
  whenWf (.fence m) s (s.fence (s.fenceScope m.toNat) (fun t => .next t.retire))

/-- FENCEL. -/
def execFencel (s : State) : Out := .next s.retire

/-- The cores of the S-unit that hold a context of the issuing tenant. -/
def State.fenceCores (s : State) (scope : Nat) : List Nat :=
  (s.cores.filter (fun p => p.2.anyLive && decide (s.tenOf p.1 = s.tenOf s.core)
    && (match scope with
      | 0 => p.1 == s.core
      | 1 => walkerOf p.1 == walkerOf s.core
      | _ => true))).map (fun p => p.1)

/-- FENCEH: a FENCE of its own, and every core of the unit drains its store queues to the scope; what its contexts have
made before is performed at the scope first (R161). (Mark: DEDUCED, unsafe, log 49) -/
def execFenceh (m : BitVec 3) (s : State) : Out :=
  whenWf (.fenceh m) s
    (let scope := s.fenceScope m.toNat
     if (s.fenceCores scope).any (fun c => (s.coreAt c).ctxs.any (fun p => p.2.live && s.unperformed scope c p.1)) then s.wait 11
     else s.fence scope (fun t =>
      .next ((t.fenceCores scope).foldl (fun u c =>
        let v := u.drainCore c
        if 2 ≤ scope ∧ isArray c then v.drainPort (clusterOf c) else v) t).retire))

/-! ## Event counters (R370) -/

/-- The global counter that an instruction names; PROTECTION otherwise. -/
def State.counterInsn (s : State) (v : W64) (reserved : Bool) (k : Nat → Out) : Out :=
  match s.counterOf (s.tenOf s.core) (bitsAt v 0 12) with
  | some i => if reserved then .next (s.trap 0x05 v) else k i
  | none => .next (s.trap 0x05 v)

/-- ECADD. -/
def execEcadd (d a b : BitVec 5) (s : State) : Out :=
  let v := s.rd a
  s.counterInsn v (decide (v.toNat / 2 ^ 12 ≠ 0)) (fun i => (s.counterAdd i (s.rd b)).done d (s.counterAt i).val)

/-- ECWAIT. -/
def execEcwait (d a b : BitVec 5) (s : State) : Out :=
  let v := s.rd a
  s.counterInsn v (decide (v.toNat / 2 ^ 12 ≠ 0)) (fun i =>
    match s.me.grant with
    | some r => s.done d r
    | none =>
      if (s.counterAt i).val.toNat ≥ (s.rd b).toNat then s.done d (s.counterAt i).val
      else if s.waiters.any (fun w => w.remote.isNone && decide (w.core = s.core ∧ w.ctx = s.ctx)) then s.wait 8
      else
        let w : Waiter := { kind := .counter (s.rd b), key := counterKey i, core := s.core, ctx := s.ctx, since := s.now,
                            remote := none, bytes := [] }
        { s with waiters := s.waiters ++ [w] }.wait 8)

/-- ECTRIG. (Mark: DEDUCED, unsafe, log 23; DEDUCED, unsafe, log 52) -/
def execEctrig (d a b : BitVec 5) (s : State) : Out :=
  let v := s.rd a
  let act := bitsAt v 12 2
  let vec := bitsAt v 16 5
  let bad := decide (act = 0 ∨ bitsAt v 14 2 ≠ 0 ∨ v.toNat / 2 ^ 21 ≠ 0 ∨ (act ≠ 2 ∧ vec ≠ 0) ∨ vec > 16)
  if act = 1 ∧ (s.rd d).toNat % 64 ≠ 0 then .next (s.trap 0x03 (s.rd d))
  else s.counterInsn v bad (fun i =>
    let g : Trigger :=
      { thr := s.rd b, action := act, arg := if act = 1 then s.rd d else w64 vec, order := 0, ten := s.tenOf s.core,
        ctxid := s.ctxidOf s.core, lcore := s.lcoreOf s.core, core := s.core, ctx := s.ctx, index := bitsAt v 0 12 }
    let (st, t) := s.arm i g
    t.done d (w64 st))

end Sys2Proof.Machine
end

