-- ==== Sys2Proof/Machine/System.lean ====
section
/-! DEFINITION. System registers (14 R268 to R271), WFI, HALT, YIELD and RDCTR (R272 to R275), the context group (R276 to
R279), messages (R280 to R282; 03 R60, R61), and TLBINV, KILL, FQPOP and MONCALL (R283 to R288). REPLAY is in
Machine/Remote.lean, beside what it releases. -/

namespace Sys2Proof.Machine

open Sys2Proof

/-! ## ESTH (10 R206) -/

/-- A write of ESTH.V: only a control context registers or unregisters. -/
def State.writeEsth (s : State) (c x : Nat) (v : W64) : State :=
  match (s.coreAt c).thread with
  | some (t, i, l) =>
    let n := s.tenantAt t
    if (s.ctxAt c x).kind ≠ .control then s
    else if bitOn v 48 then
      s.setTenant t { n with esth := w64 (c + i.toNat * 2 ^ 16 + 2 ^ 48), esthLcore := l, esthCtx := x }
    else (s.setTenant t { n with esth := putBits n.esth 48 1 0 }).flushReports t
  | none => s

/-- ESTH_WRITE. (Mark: DESIGN CHOICE, safe, log 91) -/
def execEsthWrite (core ctx : Nat) (v : BitVec 64) (s : State) : Out :=
  if (s.ctxAt core ctx).live then .next (s.writeEsth core ctx v) else .next s

/-! ## Chain messages and counters as registers -/

/-- The 64 bytes of a trap message (09 R177). (Mark: DEDUCED, unsafe, log 46) -/
def TrapMsg.toBytes (m : TrapMsg) : List Byte :=
  leBytes 8 m.faddr.toNat ++ leBytes 8 m.fval.toNat ++ leBytes 8 m.tstatus.toNat ++ leBytes 8 m.taddr.toNat
  ++ leBytes 8 m.tval.toNat ++ leBytes 1 m.fcause.toNat ++ leBytes 1 m.ocause.toNat ++ leBytes 1 m.hop ++ leBytes 1 m.len
  ++ leBytes 2 m.origin ++ leBytes 1 m.octx ++ leBytes 1 (if m.ten < 16 then m.ten else 0xFF) ++ leBytes 4 m.ctxid.toNat
  ++ leBytes 8 m.time.toNat ++ leBytes 4 0

/-- CHMSG j: the head of the inbox; 0 while it is empty. -/
def Core.chmsg (k : Core) (j : Nat) : W64 :=
  match k.inbox with
  | m :: _ => w64 (recNat m.toBytes (8 * j) 8)
  | [] => 0

/-- The value of a virtual counter (06 R118). -/
def Core.counterValue (k : Core) (c : Nat) : W64 :=
  let raw := Tab.get k.vcnt 0 c
  let v := if k.tcnt = 0 then 0 else min (2 ^ 63 - 1) (raw * k.tlive / k.tcnt)
  w64 (v + (if k.tcnt < k.tlive then 2 ^ 63 else 0))

/-! ## MFS (R268 to R271) -/

/-- What an access to a system register meets. -/
inductive RegRes where
  | illegal
  | priv
  | ok (v : W64) (s : State)

/-- The registers that read 0 on a core without a tenant, with writes discarded (R269). -/
def tenantReg (n : Nat) : Bool :=
  decide ((0x010 ≤ n ∧ n ≤ 0x015) ∨ (0x020 ≤ n ∧ n ≤ 0x023) ∨ (0x031 ≤ n ∧ n ≤ 0x037) ∨ n = 0x053)

/-- The registers that R269 assigns. -/
def assignedReg (n : Nat) : Bool :=
  decide (n ≤ 0x00A ∨ (0x010 ≤ n ∧ n ≤ 0x016) ∨ n = 0x018 ∨ n = 0x019 ∨ (0x020 ≤ n ∧ n ≤ 0x024)
    ∨ (0x031 ≤ n ∧ n ≤ 0x037) ∨ (0x040 ≤ n ∧ n ≤ 0x048) ∨ (0x050 ≤ n ∧ n ≤ 0x053) ∨ (0x200 ≤ n ∧ n ≤ 0x281))

/-- The least privilege that reads a register. -/
def readPl (n : Nat) : Nat :=
  if 0x200 ≤ n then 2
  else if (0x001 ≤ n ∧ n ≤ 0x007) ∨ n = 0x021 ∨ (0x040 ≤ n ∧ n ≤ 0x053) then 1 else 0

/-- Register r of tenant t in monitor space. -/
def State.monReg (s : State) (r t : Nat) : W64 :=
  let n := s.tenantAt t
  match r with
  | 0 => n.trect
  | 1 => n.tecr
  | 2 => n.tsubcfg
  | 3 => n.testr
  | 4 => n.hwbase
  | 5 => n.hwsize
  | 6 => n.ptbase
  | _ => n.tfwin

/-- The value of a register that the issuing context may read. -/
def State.regValue (s : State) (n : Nat) : W64 × State :=
  let x := s.me
  let k := s.myCore
  let t := s.tenantAt (s.tenOf s.core)
  if 0x200 ≤ n ∧ n < 0x280 then (s.monReg ((n - 0x200) / 16) (n % 16), s)
  else if 0x031 ≤ n ∧ n ≤ 0x037 then (k.awdAt (n - 0x030), s)
  else if 0x040 ≤ n ∧ n < 0x048 then (k.chmsg (n - 0x040), s)
  else match n with
    | 0x000 => (x.status, s)
    | 0x001 => (x.tstatus, s)
    | 0x002 => (x.taddr, s)
    | 0x003 => (x.tcause, s)
    | 0x004 => (x.tval, s)
    | 0x005 => (k.tvec, s)
    | 0x006 => (k.hchain, s)
    | 0x007 => (k.pvec, s)
    | 0x008 => (x.uivec, s)
    | 0x009 => (x.uistat, s)
    | 0x00A => (x.uiaddr, s)
    | 0x010 => (k.partw, s)
    | 0x011 => (w64 (s.lcoreOf s.core + x.dlev.toNat * 2 ^ 32), s)
    | 0x012 => (s.jobseedOf s.core, s)
    | 0x013 => (zext x.vgrant, s)
    | 0x014 => (w64 (s.tenOf s.core), s)
    | 0x015 => (zext (s.ctxidOf s.core), s)
    | 0x016 => (x.rndctr, s)
    | 0x018 => (s.podTime (dieOf s.core), s.setMe { x with timef := s.podFraction (dieOf s.core) })
    | 0x019 => (zext x.timef, s)
    | 0x020 => (t.lmapb, s)
    | 0x021 => (t.ptbase, s)
    | 0x022 => (t.esth, s)
    | 0x023 => (t.estl, s)
    | 0x024 => (zext s.ageus, s)
    | 0x050 => (w64 (k.cxctx.toNat + k.cxsel.toNat * 2 ^ 4 + b2n k.cxerr * 2 ^ 11), s)
    | 0x051 => s.cxRead s.core
    | 0x053 => ((s.clusterAt (clusterOf s.core)).accsv, s)
    | 0x280 => (w64 (b2n s.mcerr), s)
    | 0x281 => (s.fwroot, s)
    | _ => (0, s)

/-- MFS. -/
def execMfs (d : BitVec 5) (n : BitVec 10) (s : State) : Out :=
  let i : Instr := .mfs d n
  if ! assignedReg n.toNat then s.illegal (encode64 i)
  else if s.me.pl < readPl n.toNat then .next (s.trap 0x02 (encode64 i))
  else if ! isArray s.core && tenantReg n.toNat then s.done d 0
  else
    let (v, t) := s.regValue n.toNat
    t.done d v

/-! ## MTS -/

/-- The least privilege at which an MTS does not trap. -/
def writePl (n : Nat) : Nat :=
  if 0x200 ≤ n then 2
  else if n = 0 ∨ (0x008 ≤ n ∧ n ≤ 0x00A) ∨ n = 0x011 ∨ n = 0x016 ∨ n = 0x022 ∨ n = 0x023 ∨ (0x031 ≤ n ∧ n ≤ 0x037) then 0
  else 1

/-- STATUS after a write (09 R170). -/
def writeStatus (st v : W64) : W64 :=
  let rm := bitsAt v 8 3
  let a := putBits (putBits st 5 1 (bitsAt v 5 1)) 8 3 (if rm = 5 ∨ rm = 7 then bitsAt st 8 3 else rm)
  let b := putBits a 11 10 (bitsAt v 11 10)
  if bitsAt st 2 2 = 0 then b else putBits (putBits b 4 1 (bitsAt v 4 1)) 6 1 (bitsAt v 6 1)

/-- A write of monitor space at PL 2. -/
def State.writeMonReg (s : State) (r t : Nat) (v : W64) : State :=
  let n := s.tenantAt t
  match r with
  | 0 => s.orMcerr (s.writeTrect t v)
  | 1 => s.orMcerr (s.writeTecr t v)
  | 2 => s.orMcerr (s.writeTsubcfg t v)
  | 3 => s.orMcerr (s.writeTestr t v)
  | 4 => s.setTenant t { n with hwbase := putBits v 0 12 0 }
  | 5 => s.setTenant t { n with hwsize := w64 (bitsAt v 0 32) }
  | 6 => s.setTenant t { n with ptbase := w64 (bitsAt v 16 36 * 2 ^ 16) }
  | _ => s.orMcerr (s.writeTfwin t v)

/-- LCORE: only DLEV is written, and a level that the launch does not have is discarded. -/
def State.writeDlev (s : State) (v : W64) : State :=
  let d := bitsAt v 32 3
  match s.launchOf s.core with
  | some l => if d < l.nlev then s.setMe { s.me with dlev := BitVec.ofNat 3 d } else s
  | none => s

/-- The effect of an MTS that the issuing context may make; a discarded write leaves the state. -/
def State.writeReg (s : State) (n : Nat) (v : W64) : State :=
  let x := s.me
  let k := s.myCore
  let ten := s.tenOf s.core
  let t := s.tenantAt ten
  if 0x200 ≤ n ∧ n < 0x280 then s.writeMonReg ((n - 0x200) / 16) (n % 16) v
  else if 0x031 ≤ n ∧ n ≤ 0x037 then
    if badAwd v then s else s.setMyCore { k with awd := Tab.set k.awd (n - 0x030) (maskAwd v) }
  else match n with
    | 0x000 => s.setMe { x with status := writeStatus x.status v }
    | 0x001 => s.setMe { x with tstatus := v }
    | 0x002 => s.setMe { x with taddr := v }
    | 0x003 => s.setMe { x with tcause := writeTcause x.tcause v }
    | 0x004 => s.setMe { x with tval := v }
    | 0x005 => s.setMyCore { k with tvec := putBits v 0 2 0 }
    | 0x006 => s.setMyCore { k with hchain := hchainMask v }
    | 0x008 => s.setMe { x with uivec := putBits v 0 2 0 }
    | 0x009 => s.setMe { x with uiovf := x.uiovf && ! bitOn v 15 }
    | 0x00A => s.setMe { x with uiaddr := v }
    | 0x011 => s.writeDlev v
    | 0x016 => s.setMe { x with rndctr := v }
    | 0x020 =>
      if bitsAt v 0 5 > 24 then s else s.setTenant ten { t with lmapb := w64 (bitsAt v 0 5 + bitsAt v 12 52 * 2 ^ 12) }
    | 0x021 => if x.pl = 2 then s.setTenant ten { t with ptbase := w64 (bitsAt v 16 36 * 2 ^ 16) } else s
    | 0x022 => s.writeEsth s.core s.ctx v
    | 0x023 => (s.setTenant ten { t with estl := putBits v 0 12 0 }).flushReports ten
    | 0x024 => if bitsAt v 0 16 = 0 then s else { s with ageus := v.setWidth 16 }
    | 0x048 => s.chreply s.core v
    | 0x050 =>
      s.setMyCore { k with cxctx := v.setWidth 4, cxsel := BitVec.ofNat 7 (bitsAt v 4 7), cxerr := k.cxerr && ! bitOn v 11 }
    | 0x051 => s.cxWrite s.core v
    | 0x053 => s.writeAccsv s.core v
    | 0x280 => { s with mcerr := s.mcerr && ! bitOn v 0 }
    | 0x281 => { s with fwroot := w64 (bitsAt v 16 36 * 2 ^ 16) }
    | _ => s

/-- MTS. A write of PRECTL may end the save of the issuing thread, whose context is then gone. -/
def execMts (r : BitVec 5) (n : BitVec 10) (s : State) : Out :=
  let i : Instr := .mts r n
  let v := s.rd r
  if ! assignedReg n.toNat then s.illegal (encode64 i)
  else if s.me.pl < writePl n.toNat then .next (s.trap 0x02 (encode64 i))
  else if ! isArray s.core && tenantReg n.toNat then .next s.retire
  else if n = 0x052 then (if s.saveWaits s.core s.ctx v then s.wait 14 else .next (s.retire.prectl s.core s.ctx v))
  else if n = 0x048 then .next (s.retire.writeReg 0x048 v)
  else .next ((s.writeReg n.toNat v).retire)

/-! ## WFI, HALT, YIELD, RDCTR -/

/-- A condition that ends WFI holds. -/
def State.wfiEnds (s : State) : Bool :=
  let x := s.me
  let k := s.myCore
  ! x.asyncs.isEmpty || x.uiReady || ! k.recvq.isEmpty
  || (! k.inbox.isEmpty && x.kind != .helper && x.kind != .continuation)
  || (isService s.core && (upTo 0 2).any (fun r =>
      let m := s.mboxAt (s.core - 4096) r
      m.wake && m.tail != m.head))
  || k.saving.isSome

/-- WFI. -/
def execWfi (s : State) : Out := if s.wfiEnds then .next s.retire else s.wait stWfi

/-- A JOINH of the core that waits for context `h` has its answer in the clk in which that context stops being live
(R277): a helper number that is taken again does not prolong the wait. (Mark: DEDUCED, unsafe, log 89) -/
def Core.joined (k : Core) (h : Nat) : Core :=
  let waits := fun (y : Ctx) => y.joining && decide (y.stall = 9) && (match y.ir with
    | some w => match decode w.toNat with
      | .ok (.joinh _ a) => decide (bitsAt (y.rd a) 0 4 = h)
      | _ => false
    | none => false)
  { k with ctxs := Tab.mapV k.ctxs (fun _ y => if waits y then { y with grant := some 0 } else y) }

/-- The issuing context is the last live one of its core. -/
def State.lastAlive (s : State) : Bool := ! s.myCore.ctxs.any (fun p => p.2.live && decide (p.1 ≠ s.ctx))

/-- A HALT awaits the reply stores of its context, and where it ends the thread also what the thread has posted to other
modules: a lock, estate or fulfilling request may be among it (R273; 10 R199). (Mark: DEDUCED, unsafe, log 89) -/
def State.haltAwaits (s : State) : Bool :=
  ! s.me.amodReply.isEmpty
  || (s.lastAlive && s.myCore.ctxs.any (fun p => ! p.2.amodReply.isEmpty || s.outward s.core p.1))

/-- HALT: after the replies the context stops being live; its stores still drain. Groups whose last thread is over die,
barriers count the core out, and the estate handler it may have been is no longer registered. (Mark: DEDUCED, unsafe, log 89) -/
def execHalt (s : State) : Out :=
  if ! isArray s.core then s.illegal (encode64 .halt)
  else if s.me.outstanding ≠ 0 then s.wait 1
  else if s.haltAwaits then s.wait 15
  else
    let x := s.me
    let s0 := s.countOn s.core 2 1
    let s1 := s0.setMe { x with live := false, stall := 0, uiq := [], uiovf := false, asyncs := [], pends := [], due := [],
                                parked := none, yielded := false, heirless := false, grant := none, joining := false }
    let ten := s.tenOf s.core
    let n := s1.tenantAt ten
    let reg := n.registered (s.ctxidOf s.core) (s.lcoreOf s.core) && decide (n.esthCtx = s.ctx)
    let s2 := ((s1.setTenant ten (n.unregister (s.ctxidOf s.core) reg)).flushReports ten).setMyCore (s1.myCore.joined s.ctx)
    let s3 := if s2.myCore.anyLive then s2 else s2.checkTrees s.core
    .next ((s3.naturalDeaths s.core).ended (clusterOf s.core))

/-- YIELD. (Mark: DEDUCED, unsafe, log 89) -/
def execYield (s : State) : Out := .next (s.setMe { s.me with yielded := true }).retire

/-- RDCTR. -/
def execRdctr (d : BitVec 5) (c : BitVec 3) (s : State) : Out :=
  s.done d (if isArray s.core then s.myCore.counterValue c.toNat else 0)

/-! ## The context group -/

/-- START. -/
def execStart (d a b : BitVec 5) (s : State) : Out :=
  let i : Instr := .start d a b
  onArray i s
    (if s.me.kind ≠ .control then s.illegal (encode64 i)
     else if (s.rd a).toNat % 4 ≠ 0 then .next (s.trap 0x03 (s.rd a))
     else match s.myCore.freeHelper, s.launchOf s.core with
       | some n, some l => (s.putCtx s.core n (helperCtx .helper l (s.rd a) s.me.pl [(9, s.rd b)])).done d (w64 n)
       | _, _ => s.done d 0)

/-- JOINH. (Mark: DEDUCED, unsafe, log 89) -/
def execJoinh (d a : BitVec 5) (s : State) : Out :=
  onArray (.joinh d a) s
    (let k := bitsAt (s.rd a) 0 4
     if k = 0 ∨ k > 10 then s.done d 2
     else if s.me.grant.isNone && (s.ctxAt s.core k).live then .next (s.setMe { s.me with stall := 9, joining := true })
     else s.done d 0)

/-- The module a record's KEY names. -/
def State.keyModule (s : State) (key : W64) : Option Nat :=
  let node := bitsAt key 56 8
  if node = 0 then some s.modid else if 0x40 ≤ node ∧ node < 0x80 then some (node % 64) else none

/-- A KEY in the issuing core's own pool, as the address by index of the same byte (07 R133); any other KEY as it is.
(Mark: DEDUCED, unsafe, log 114) -/
def ownKey (c : Nat) (key : W64) : W64 :=
  if bitsAt key 48 8 = 0xFF ∧ bitsAt key 36 12 = 0 then putBits (putBits key 48 8 0xFE) 36 12 c else key

/-- Post a continuation record. (Mark: DEDUCED, unsafe, log 114) -/
def State.postRecord (s : State) (rec : List Byte) (l : Launch) : Out :=
  let key := w64 (recNat rec 8 8)
  match s.keyModule key with
  | none => .next (s.trap 0x05 key)
  | some m =>
    if ! (s.modsOf l).contains m then .next (s.trap 0x05 key)
    else if m = s.modid then
      let r : ContRec := { bytes := rec, ctxid := l.ctxid, ten := l.ten, key := ownKey s.core key, home := homeOf l (ownKey s.core key), core := s.core, ctx := s.ctx,
                           remote := none }
      { s.countOn s.core 0x0A 1 with contFlight := s.contFlight ++ [r] }.wait 9
    else if ! s.reachable m then .next (s.trap 0x08 key)
    else
      let b : Body := { op := .cont, va := key, bytes := rec }
      let q : Pend := { s.pendOf 0 key 64 false (.remote m) with keep := true }
      let u := ((s.sendPacket (s.request m 0 b)).countOn s.core 9 1).countOn s.core 0x0A 1
      (u.setMe { u.me with pends := u.me.pends ++ [q] }).wait 9

/-- CONT: the record is read, checked, and posted; it retires once its home has accepted it.
(Mark: DEDUCED, unsafe, log 53; DEDUCED, unsafe, log 114) -/
def execCont (a : BitVec 5) (s : State) : Out :=
  onArray (.cont a) s
    (let va := s.rd a
     if va.toNat % 64 ≠ 0 then .next (s.trap 0x03 va)
     else match s.me.grant with
       | some _ => .next s.retire
       | none =>
         if s.contFlight.any (fun r => r.remote.isNone && decide (r.core = s.core ∧ r.ctx = s.ctx)) then s.wait 9
         else
           match s.me.pends.find? (fun q => q.keep && decide (q.nb = 64)) with
           | some q => if q.answer.isSome then .next s.dropKept.retire else s.wait 9
           | none => s.readRecord va 8 [] (fun rec t =>
             let entry := w64 (recNat rec 0 8)
             if entry.toNat % 4 ≠ 0 then .next (t.trap 0x03 entry)
             else match t.launchOf t.core with
               | some l => t.postRecord rec l
               | none => .next t.retire))

/-- LAUNCH: Halyard's answer reaches the register with the step. -/
def execLaunch (d a : BitVec 5) (s : State) : Out :=
  onArray (.launch d a) s
    (let va := s.rd a
     if va.toNat % 64 ≠ 0 then .next (s.trap 0x03 va)
     else s.readRecord va 24 [] (fun rec t =>
       let ten := t.tenOf t.core
       let prio := min (recNat rec 0 8 / 16 % 8) (bitsAt (t.tenantAt ten).tsubcfg 9 3)
       match t.enterLaunch ten va rec prio none (16 + t.core) t.now with
       | (0, id, u) => if t.depthFull ten then t.done d 5 else u.done d (w64 (id.toNat * 2 ^ 32))
       | (st, _, _) => t.done d (w64 st)))

/-! ## Messages (R280 to R282; 03 R60, R61) -/

/-- The core a SEND address names, on which module; none where the address is not one. (Mark: DEDUCED, unsafe, log 53) -/
def State.sendTarget (s : State) (v : W64) : Option (Nat × Nat) :=
  let sp := bitsAt v 48 8
  let c := bitsAt v 36 12
  if bitsAt v 32 4 ≠ 15 ∨ bitsAt v 0 32 ≠ 0 then none
  else match s.keyModule v with
    | none => none
    | some m =>
      if sp = 0xFE then some (m, c)
      else if sp = 0xFF ∧ c = 0 ∧ m = s.modid then some (m, s.core)
      else none

/-- SEND. (Mark: DEDUCED, unsafe, log 53) -/
def execSend (d a : BitVec 5) (s : State) : Out :=
  let v := s.rd a
  match s.sendTarget v with
  | none => .next (s.trap 0x05 v)
  | some (m, c) =>
    let k := s.myCore
    if m = s.modid && c != s.core && ! s.inRect (s.tenOf s.core) (clusterOf c) then .next (s.trap 0x07 v)
    else if m ≠ s.modid ∧ ¬ s.reachable m then (s.postAsync s.core s.ctx 0x08 (noseqRecord m 4)).done d 0
    else if k.injq.length ≥ 16 then s.done d 1
    else
      let msg : Msg := { bytes := sliceBytes k.build 0 64, srcCore := s.core, srcMod := s.modid, remote := m != s.modid }
      (s.setMyCore { k with injq := k.injq ++ [{ node := m, core := c, msg := msg, ctx := s.ctx, owner := k.thread, sent := false }] }).done d 0

/-- A message reaches a core: the receive queue, the overflow area, or neither. (Mark: DEDUCED, unsafe, log 88) -/
def State.takeMessage (s : State) (c : Nat) (m : Msg) : Option State :=
  let k := s.coreAt c
  if k.recvq.length < 64 ∧ k.overflow = [] then some (s.setCore c { k with recvq := k.recvq ++ [m] })
  else if k.overflow.length < 1024 then
    let (s1, m1) := s.spillMessage c (nextSlot k.overflow) m
    some (s1.setCore c { s1.coreAt c with overflow := k.overflow ++ [m1] })
  else none

/-- A core that a kill has reached discards a message that names its context, until the purge is confirmed (03 R62). -/
def State.barred (s : State) (ten : Nat) (ctxid : W32) (c : Nat) : Bool :=
  s.kills.any (fun k => decide (k.ten = ten ∧ k.ctxid = ctxid) && k.reached.contains (.cluster (BitVec.ofNat 8 (clusterOf c))))

/-- The head of a core's injection queue goes to its destination: taken, or refused FULL; to another module it leaves
as a packet and stays at the head until it is answered. (Mark: DESIGN CHOICE, safe, log 108) -/
def State.injectHead (s : State) (c : Nat) : State :=
  let k := s.coreAt c
  match k.injq with
  | [] => s
  | m :: r =>
    let o := m.owner.getD (s.tenOf c, 0, 0)
    if m.sent then s
    else if m.node = s.modid then
      if s.barred o.1 o.2.1 m.core then s.setCore c { k with injq := r, rejAt := none }
      else match s.takeMessage m.core m.msg with
        | some t => t.setCore c { t.coreAt c with injq := r, rejAt := none }
        | none => s.setCore c { k with rej := true, rejAt := some s.now }
    else
      let b : Body := { op := .sendMsg, bytes := m.msg.bytes, sel := m.core, core := c, ctx := m.ctx, ctxid := o.2.1 }
      let p : Packet := { src := BitVec.ofNat 6 s.modid, dst := BitVec.ofNat 6 m.node, ten := BitVec.ofNat 4 o.1,
                          stream := 4, body := b }
      ((s.setCore c { k with injq := { m with sent := true } :: r, rejAt := none }).sendPacket p).countOn c 9 1

/-- MESSAGE_DELIVER. -/
def execMessageDeliver (core : Nat) (s : State) : Out :=
  if (s.coreAt core).rejAt.isSome then .next s else .next (s.injectHead core)

/-- MESSAGE_RESEND: 2,000 clk after the refusal. -/
def execMessageResend (core : Nat) (s : State) : Out :=
  match (s.coreAt core).rejAt with
  | some t => if s.now ≥ t + 2000 then .next (s.injectHead core) else .next s
  | none => .next s

/-- The descriptor of the head message. -/
def Core.headMessage (k : Core) : W64 :=
  match k.recvq with
  | [] => 0
  | m :: _ => w64 (k.rhead % 64 + m.srcCore % 4096 * 2 ^ 12 + m.srcMod % 64 * 2 ^ 24 + b2n m.remote * 2 ^ 30 + 2 ^ 63)

/-- RECV. (Mark: DEDUCED, unsafe, log 88) -/
def execRecv (d : BitVec 5) (p w : BitVec 1) (s : State) : Out :=
  whenWf (.recv d p w) s
    (let k := s.myCore
     if p = 1 then
       match k.recvq with
       | [] => s.done d 0
       | _ :: r =>
         ((s.setMyCore { k with recvq := r, rhead := (k.rhead + 1) % 64 }).refillQueue s.core 1).done d (w64 r.length)
     else if k.recvq.isEmpty && w = 1 then s.wait 15
     else s.done d k.headMessage)

/-- QSTAT. -/
def execQstat (d : BitVec 5) (s : State) : Out := s.done d s.myCore.mqstat

/-! ## Privileged instructions (R283 to R288) -/

/-- TLBINV. -/
def execTlbinv (a b : BitVec 5) (s : State) : Out :=
  privileged (.tlbinv a b) s
    (let va := s.rd a
     let r := s.rd b
     let ten := bitsAt r 32 4
     if va.toNat % 65536 ≠ 0 then .next (s.trap 0x03 va)
     else if r.toNat / 2 ^ 36 ≠ 0 ∨ (isArray s.core ∧ ten ≠ s.tenOf s.core) then .next (s.trap 0x05 r)
     else if bitsAt r 0 32 = 0 then .next (s.tlbInvalidate ten 0 (2 ^ 39)).retire
     else .next (s.tlbInvalidate ten (bitsAt va 16 39) (bitsAt r 0 32)).retire)

/-- KILL. -/
def execKill (d a b : BitVec 5) (s : State) : Out :=
  privileged (.kill d a b) s
    (let r := s.rd b
     let ten := bitsAt r 0 4
     let id : W32 := (s.rd a).setWidth 32
     if r.toNat / 16 ≠ 0 ∨ (isArray s.core ∧ ten ≠ s.tenOf s.core) then .next (s.trap 0x05 r)
     else match s.launchBy ten id with
       | none => s.done d 1
       | some _ =>
         let t := s.injectKill ten id s.core 0x1A false
         if t.me.live then t.done d 0 else .next t)

/-- FQPOP. -/
def execFqpop (d a b : BitVec 5) (s : State) : Out :=
  let i : Instr := .fqpop d a b
  if isArray s.core then s.illegal (encode64 i)
  else privileged i s
      (let t := bitsAt (s.rd a) 0 4
       let va := s.rd b
       let n := s.tenantAt t
       if va.toNat % 32 ≠ 0 then .next (s.trap 0x03 va)
       else if n.fqhead = n.fqtail ∨ ¬ bitOn n.fqcfg 8 then s.done d 0
       else match n.fq, s.resolve s.core s.ctx va 8 true false with
         | [], _ => s.done d 0
         | _, .trap cause v => .next (s.trap cause v)
         | _, .miss v => s.miss v (accBits false true false false false)
         | e :: r, .bytes (key :: _) =>
           let s1 := s.setTenant t { n with fqhead := n.fqhead + 1, fq := r }
           ((s1.drainQueue s1.core s1.ctx).pokeN key (fqBytes t e)).done d 1
         | e :: r, .place (.control off) =>
           let s1 := s.setTenant t { n with fqhead := n.fqhead + 1, fq := r }
           ((upTo 0 4).foldl (fun u j => u.controlWrite u.core (off + 8 * j) (sliceBytes (fqBytes t e) (8 * j) 8)) s1).done d 1
         | _, _ => .next (s.trap 0x05 va))

/-- The completed entry is copied back into the image. -/
def State.monReturn (s : State) (d : BitVec 5) (va : W64) (e : List Byte) : Out :=
  let status := recNat e 12 2
  if status = 1 then .next (s.trap 0x1C (w64 (recNat e 8 2 + recNat e 10 2 * 2 ^ 16)))
  else match s.resolve s.core s.ctx va 8 true false with
    | .trap cause v => .next (s.trap cause v)
    | .miss v => s.miss v (accBits false true false false false)
    | .bytes (key :: _) =>
      (((s.drainQueue s.core s.ctx).pokeN (key + 12) (sliceBytes e 12 2)).pokeN (key + 48) (sliceBytes e 48 16)).done d (w64 status)
    | _ => .next (s.trap 0x05 va)

/-- MONCALL: the entry is placed, then the context waits for DONE; the slot it waits on is kept meanwhile. -/
def execMoncall (d a : BitVec 5) (s : State) : Out :=
  let i : Instr := .moncall d a
  if ! isService s.core then s.illegal (encode64 i)
  else privileged i s
      (let va := s.rd a
       let v := s.core - 4096
       let m := s.mboxAt v 3
       match s.me.grant with
       | some slot =>
         let e := sliceBytes (Tab.get m.ents [] (slot.toNat % 64)) 0 64
         if recNat e 0 8 / 256 % 2 = 0 then s.wait 15 else s.monReturn d va e
       | none =>
         if va.toNat % 64 ≠ 0 then .next (s.trap 0x03 va)
         else s.readRecord va 8 [] (fun img t =>
           if (m.tail - m.head).toNat ≥ 64 then t.wait 15
           else
             let e := leBytes 8 (0x20 + s.core % 4096 * 2 ^ 16 + m.tail.toNat * 2 ^ 32) ++ sliceBytes img 8 56
             let t1 := t.setMbox v 3 { m with
               ents := Tab.set m.ents (m.tail.toNat % 64) e, tail := m.tail + 1, stamps := m.stamps ++ [s.nextStamp] }
             .next (t1.setMe { t1.me with stall := 15, grant := some (zext m.tail) })))

end Sys2Proof.Machine
end

