-- ==== Sys2Proof/Machine/Estates.lean ====
section
/-! DEFINITION. The estate instructions (19 R371 to R377): the lock ops of AMO, HOLD, RELQ, HEIR, PROMISE, ESTQ and
ORPHCL, each one step at the Cleat of its reference. -/

namespace Sys2Proof.Machine

open Sys2Proof

/-! ## The operations at the Cleat -/

/-- A heir specification is valid (R371) for a tenant, as the Cleat of a die sees its launches.
(Mark: DEDUCED, unsafe, log 57) -/
def State.heirOk (s : State) (die ten : Nat) (h : W64) : Bool :=
  let mode := bitsAt h 28 4
  decide (mode < 3) && (decide (mode = 0) || decide (bitsAt h 0 28 = 0)) && (decide (mode ≠ 0) || decide (bitsAt h 24 4 ≤ 8))
    && (decide (bitsAt h 32 32 = 0) || s.launchLive die ten (BitVec.ofNat 32 (bitsAt h 32 32)))

/-- Free a lock that its group holds, and look at its waiters. -/
def State.unlockAt (s : State) (home : Nat) : State := (s.freeEstate 1 home).serveLock home

/-- A promise given up: the creations it held back join the word's waiters, which are looked at (10 R197). -/
def State.dropPromise (s : State) (home : Nat) : State :=
  let held := fun (v : Waiter) => decide (v.key = home ∧ v.kind = .heldBack)
  let joined := (s.waiters.filter held).map (fun v => { v with kind := .create })
  { s.freeEstate 3 home with waiters := s.waiters.filter (fun v => ! held v) ++ joined }.serveWord home

/-- HOLD: the status and the state after it. (Mark: DEDUCED, unsafe, log 57) -/
def State.holdAt (s : State) (home ten : Nat) (ctxid group : W32) (ref heir : W64) : Nat × State :=
  let f := s.objFlags home
  if ! s.heirOk (keyDie home) ten heir || hasFlag f oFREE || hasFlag f oPOISON then (6, s)
  else if hasFlag f oHELD || (s.estateAt 2 home).isSome then (4, s)
  else match s.createEstate 2 home ten ctxid group ref heir with
    | some t => (0, t.headerWrite home (setFlag f oHELD))
    | none => (3, s)

/-- PROMISE. (Mark: DEDUCED, unsafe, log 57) -/
def State.promiseMake (s : State) (home ten : Nat) (ctxid group : W32) (ref heir : W64) : Nat × State :=
  if ! s.heirOk (keyDie home) ten heir then (6, s)
  else if (s.estateAt 3 home).isSome then (4, s)
  else match s.createEstate 3 home ten ctxid group ref heir with
    | some t => (0, t)
    | none => (3, s)

/-- What RELQ and HEIR find: 0 the group's own entry, 2 an orphaned lock, 5 anything else (R375). -/
def State.heldState (s : State) (kind home : Nat) (ctxid group : W32) : Nat :=
  match s.estateAt kind home with
  | none => 5
  | some e => if kind = 1 ∧ e.state = 2 then 2 else if e.ctxid = ctxid ∧ e.holder = group then 0 else 5

/-- RELQ; unlock is its form for a lock. -/
def State.relqAt (s : State) (kind home : Nat) (ctxid group : W32) : Nat × State :=
  match s.heldState kind home ctxid group with
  | 0 =>
    (0, match kind with
      | 1 => s.unlockAt home
      | 2 => (s.headerWrite home (clearFlag (s.objFlags home) oHELD)).freeEstate 2 home
      | _ => s.dropPromise home)
  | n => (n, s)

/-- HEIR. (Mark: DEDUCED, unsafe, log 57) -/
def State.heirAt (s : State) (kind home ten : Nat) (ctxid group : W32) (heir : W64) : Nat × State :=
  match s.heldState kind home ctxid group with
  | 0 =>
    if ! s.heirOk (keyDie home) ten heir then (6, s)
    else (0, s.updEstate kind home (fun e =>
      { e with heir := heir.setWidth 32, heirctx := BitVec.ofNat 32 (bitsAt heir 32 32) }))
  | n => (n, s)

/-- ORPHCL. -/
def State.orphclAt (s : State) (home : Nat) : Nat × State :=
  match s.estateAt 1 home with
  | some e => if e.state = 2 then (0, s.unlockAt home) else (5, s)
  | none => (5, s)

/-- lock and trylock; none where a lock has to wait. -/
def State.lockAt (s : State) (home ten : Nat) (ctxid group : W32) (ref heir : W64) : Option (Nat × State) :=
  if ! s.heirOk (keyDie home) ten heir then some (6, s) else s.acquire home ten ctxid group ref heir

/-- What an estate operation asks of the Cleat. -/
inductive EstOp where
  | lock | unlock | trylock | hold | relq | heir | promise | read | orphcl
deriving DecidableEq, Repr

/-- The code of an operation in a packet. -/
def EstOp.code : EstOp → Nat
  | .lock => 0 | .unlock => 1 | .trylock => 2 | .hold => 3 | .relq => 4 | .heir => 5 | .promise => 6 | .read => 7
  | .orphcl => 8

/-- The operation of a code. -/
def EstOp.ofCode (n : Nat) : EstOp :=
  match n with
  | 0 => .lock | 1 => .unlock | 2 => .trylock | 3 => .hold | 4 => .relq | 5 => .heir | 6 => .promise | 7 => .read
  | _ => .orphcl

/-- The request of an operation: who asks, about which entry, with which heir specification. -/
structure EstAsk where
  op : EstOp
  kind : Nat
  ten : Nat
  ctxid : W32
  group : W32
  ref : W64
  heir : W64
deriving DecidableEq, Repr

/-- An operation at its Cleat: the result register's value, the entry that a read copies, and the state; none where a
lock has to wait. -/
def State.estateOp (s : State) (home : Nat) (q : EstAsk) : Option (W64 × List Byte × State) :=
  let st := fun (r : Nat × State) => some (w64 r.1, ([] : List Byte), r.2)
  match q.op with
  | .lock => (s.lockAt home q.ten q.ctxid q.group q.ref q.heir).bind st
  | .trylock => match s.lockAt home q.ten q.ctxid q.group q.ref q.heir with
    | some r => st r
    | none => st (4, s)
  | .unlock => st (s.relqAt 1 home q.ctxid q.group)
  | .hold => st (s.holdAt home q.ten q.ctxid q.group q.ref q.heir)
  | .relq => st (s.relqAt q.kind home q.ctxid q.group)
  | .heir => st (s.heirAt q.kind home q.ten q.ctxid q.group q.heir)
  | .promise => st (s.promiseMake home q.ten q.ctxid q.group q.ref q.heir)
  | .read => match s.estateAt q.kind home with
    | some e => some (1, e.toBytes, s)
    | none => some (0, [], s)
  | .orphcl => st (s.orphclAt home)

/-! ## References (R344, R373, R374) -/

/-- An object's header: 16-byte aligned, on this module, in a plain page or in a cluster memory; `k` with its key. -/
def State.objectAt (s : State) (va : W64) (wr : Bool) (k : Nat → Out) : Out :=
  if va.toNat % 16 ≠ 0 then .next (s.trap 0x03 va)
  else if bitsAt va 56 8 ≠ 0 then .next (s.trap 0x05 va)
  else
    let plain := fun (key : Nat) => if (poolOf key).isSome then Host.Outcome.next (s.trap 0x05 va) else s.whenFree (upTo key 16) (k key)
    match s.resolve s.core s.ctx va 16 wr false with
    | .trap cause v => .next (s.trap cause v)
    | .miss v => s.miss v (accBits (! wr) wr false false false)
    | .bytes keys =>
      (match keys with
      | key :: _ => plain key
      | [] => .next (s.trap 0x05 va))
    | .place (.mem key) => plain key
    | .place _ => .next (s.trap 0x05 va)

/-- The reference of a kind: a lock's word, an object's header, a promised word; `far` for another module. -/
def State.estRef (s : State) (kind : Nat) (va : W64) (wr : Bool) (far : Nat → Out) (k : Nat → Out) : Out :=
  if kind = 2 then s.objectAt va wr k
  else if va.toNat % 8 ≠ 0 then .next (s.trap (if kind = 1 then 0x03 else 0x05) va)
  else match s.resolve s.core s.ctx va 8 wr false with
    | .trap cause v => .next (s.trap cause v)
    | .miss v => s.miss v (accBits (! wr) wr false (kind == 3) false)
    | .place (.sync pa) => if kind = 1 then s.whenFree (upTo pa 8) (k pa) else .next (s.trap 0x05 va)
    | .place (.vers f _ off) => if kind = 3 then k (verHeader f off) else .next (s.trap 0x05 va)
    | .place (.remote m) => far m
    | _ => .next (s.trap 0x05 va)

/-- What the issuing context asks. -/
def State.estAsk (s : State) (op : EstOp) (kind : Nat) (va heir : W64) : EstAsk :=
  { op := op, kind := kind, ten := s.tenOf s.core, ctxid := s.ctxidOf s.core, group := s.groupOf s.core s.ctx,
    ref := w64 (va.toNat % 2 ^ 56), heir := heir }

/-- The body of a request to the Cleat of another module. -/
def EstAsk.body (q : EstAsk) (va : W64) (d : BitVec 5) : Body :=
  { op := .estate, va := va, val := q.heir, cmp := w64 q.kind, nb := 8, sel := q.op.code, reg := d,
    bytes := leBytes 4 q.group.toNat }

/-- A lock waiter's request as its bytes hold it. -/
def EstAsk.lockBytes (q : EstAsk) : List Byte :=
  leBytes 8 q.heir.toNat ++ leBytes 4 q.group.toNat ++ leBytes 2 q.ten ++ leBytes 2 0 ++ leBytes 8 q.ref.toNat

/-- An operation with a status: earlier accesses reach memory before it (R371), a lock waits with stall reason 15, and
an entry on another module is asked for there. (Mark: DEDUCED, unsafe, log 55) -/
def State.estate (s : State) (i : Instr) (d : BitVec 5) (op : EstOp) (kind : Nat) (va heir : W64) : Out :=
  onArray i s
    (let q := s.estAsk op kind va heir
     s.estRef kind va true (fun m => s.farWait 15 d va m (q.body va d))
      (fun home =>
        match s.me.grant with
        | some v => s.done d v
        | none =>
          if s.deaf (keyDie home) q.ten q.ctxid || s.waiters.any (fun w => w.remote.isNone && decide (w.core = s.core ∧ w.ctx = s.ctx)) then s.wait 15
          else if kind = 2 && s.poisoned home 16 then s.consume va 4 (fun t => .next t.retire)
          else match (s.performModule s.core s.ctx).estateOp home q with
            | some (v, _, t) => t.done d v
            | none =>
              let w : Waiter := { kind := .lock, key := home, core := s.core, ctx := s.ctx, since := s.now, remote := none,
                                  bytes := q.lockBytes }
              let t := s.performModule s.core s.ctx
              { t with waiters := t.waiters ++ [w] }.wait 15))

/-! ## The instructions -/

/-- AMO with op lock: x[b] is the heir specification. -/
def execAmoLock (d a b : BitVec 5) (s : State) : Out := s.estate (.amoLock d a b) d .lock 1 (s.rd a) (s.rd b)

/-- AMO with op unlock. -/
def execAmoUnlock (d a b : BitVec 5) (s : State) : Out := s.estate (.amoUnlock d a b) d .unlock 1 (s.rd a) (s.rd b)

/-- AMO with op trylock. -/
def execAmoTrylock (d a b : BitVec 5) (s : State) : Out := s.estate (.amoTrylock d a b) d .trylock 1 (s.rd a) (s.rd b)

/-- HOLD. -/
def execHold (d a b : BitVec 5) (s : State) : Out := s.estate (.hold d a b) d .hold 2 (s.rd a) (s.rd b)

/-- RELQ. -/
def execRelq (d a : BitVec 5) (k : BitVec 2) (s : State) : Out :=
  whenWf (.relq d a k) s (s.estate (.relq d a k) d .relq k.toNat (s.rd a) 0)

/-- HEIR. -/
def execHeir (d a b : BitVec 5) (k : BitVec 2) (s : State) : Out :=
  whenWf (.heir d a b k) s (s.estate (.heir d a b k) d .heir k.toNat (s.rd a) (s.rd b))

/-- PROMISE. -/
def execPromise (d a b : BitVec 5) (s : State) : Out := s.estate (.promise d a b) d .promise 3 (s.rd a) (s.rd b)

/-- The context registered in ESTH. -/
def State.registered (s : State) : Bool :=
  let n := s.tenantAt (s.tenOf s.core)
  bitOn n.esth 48 && decide (bitsAt n.esth 16 32 = (s.ctxidOf s.core).toNat ∧ n.esthLcore = s.lcoreOf s.core
    ∧ n.esthCtx = s.ctx) && s.myCore.thread.isSome

/-- ORPHCL (R377). -/
def execOrphcl (d a : BitVec 5) (s : State) : Out :=
  onArray (.orphcl d a) s
    (if ! s.registered && decide (s.me.pl = 0) then .next (s.trap 0x02 (encode64 (.orphcl d a)))
     else s.estate (.orphcl d a) d .orphcl 1 (s.rd a) 0)

/-! ## ESTQ (R376) -/

/-- A word of an output record that cannot be written: how the turn ends. (Mark: DEDUCED, unsafe, log 58) -/
def State.outCheck (s : State) (va : W64) (n : Nat) : Option Out :=
  (upTo 0 n).findSome? (fun i =>
    match s.resolve s.core s.ctx (va + w64 (8 * i)) 8 true false with
    | .trap cause v => some (.next (s.trap cause v))
    | .miss v => some (s.miss v (accBits false true false false false))
    | _ => none)

/-- Store words in ascending order; none while one of them waits for the floor of a versioned word. -/
def State.storeWords (s : State) (va : W64) (l : List W64) : Option State :=
  match l with
  | [] => some s
  | v :: r => (s.lateStore s.core s.ctx va v).bind (fun t => t.storeWords (va + 8) r)

/-- Words of a byte list. -/
def wordsOf (l : List Byte) (n : Nat) : List W64 := (upTo 0 n).map (fun i => w64 (recNat l (8 * i) 8))

/-- The issuing context writes an output record, all of it or, where a word faults, nothing. (Mark: DEDUCED, unsafe, log 58) -/
def State.putRecord (s : State) (va : W64) (bytes : List Byte) (k : State → Out) : Out :=
  match s.outCheck va (bytes.length / 8) with
  | some o => o
  | none => match s.storeWords va (wordsOf bytes (bytes.length / 8)) with
    | some t => k t
    | none => s.wait 6

/-- An entry read at the Cleat of another module: asked for once, then waited for with stall reason 15.
(Mark: DEDUCED, unsafe, log 55) -/
def State.farEntry (s : State) (d b : BitVec 5) (m : Nat) (q : EstAsk) (va : W64) : Out :=
  match s.me.pends.find? (fun p => p.keep && decide (p.va = va)) with
  | some p => match p.answer with
    | some v =>
      if v = 0 then s.dropKept.done d 0
      else s.putRecord (s.rd b) p.got (fun t => t.dropKept.done d v)
    | none => s.wait 15
  | none =>
    let p : Pend := { s.pendOf d va 8 false (.remote m) with keep := true }
    if ! s.reachable m then .next (s.trap 0x08 va)
    else if s.me.outstanding ≥ 8 ∨ s.myCore.outstanding ≥ 32 then s.wait 1
    else
      let t := (s.sendPacket (s.request m 0 (q.body va d))).countOn s.core 9 1
      (t.setMe { t.me with pends := t.me.pends ++ [p] }).wait 15

/-- The output address of ESTQ. (Mark: DEDUCED, unsafe, log 58) -/
def State.estOut (s : State) (i : Instr) (b : BitVec 5) (k : Out) : Out :=
  onArray i s (if (s.rd b).toNat % 32 ≠ 0 then .next (s.trap 0x03 (s.rd b)) else k)

/-- ESTQ read. (Mark: DEDUCED, unsafe, log 58) -/
def execEstq (d a b : BitVec 5) (k : BitVec 2) (s : State) : Out :=
  whenWf (.estq d a b k) s (s.estOut (.estq d a b k) b
    (let va := s.rd a
     let q := s.estAsk .read k.toNat va 0
     s.estRef k.toNat va false (fun m => s.farEntry d b m q va)
      (fun home =>
        match (s.performModule s.core s.ctx).estateOp home q with
        | some (v, bytes, t) => t.putRecord (t.rd b) bytes (fun u => u.done d v)
        | none => s.wait 15)))

/-- The arrival record (R376). -/
def Arrival.toBytes (a : Arrival) : List Byte :=
  leBytes 4 a.dseq.toNat ++ leBytes 4 a.dctx.toNat ++ leBytes 4 a.dgroup.toNat ++ leBytes 4 a.nrec.toNat
  ++ leBytes 4 a.hctx.toNat ++ leBytes 4 a.hgroup.toNat ++ leBytes 8 a.time.toNat

/-- The oldest arrival of the holder group. -/
def State.firstArrival (s : State) : Option (Nat × Nat × Arrival) :=
  findAt (fun a => decide (a.1 = s.tenOf s.core ∧ a.2.hctx = s.ctxidOf s.core ∧ a.2.hgroup = s.groupOf s.core s.ctx))
    s.arrivals

/-- Pop an arrival, or go on with `none`. -/
def State.popArrival (s : State) (d b : BitVec 5) (none : Out) : Out :=
  match s.firstArrival with
  | some (i, a) =>
    (s.performModule s.core s.ctx).putRecord (s.rd b) a.2.toBytes
      (fun t => { t with arrivals := dropNth t.arrivals i }.done d 1)
  | .none => none

/-- ESTQ pop. -/
def execEstqPop (d b : BitVec 5) (s : State) : Out := s.estOut (.estqPop d b) b (s.popArrival d b (s.done d 0))

/-- ESTQ wait-pop. -/
def execEstqWait (d b : BitVec 5) (s : State) : Out := s.estOut (.estqWait d b) b (s.popArrival d b (s.wait 15))

end Sys2Proof.Machine
end

