-- ==== Sys2Proof/Machine/Graph.lean ====
section
/-! DEFINITION. The graph engine (19 R343 to R363; 12 R246, R247): accesses of an engine to a tenant's memory, snapshots
of objects, walks with their record, GCOPY, GSEND with its receiver, GCMP, GHASH, GFREE, and OALLOC, OSTP and GSTAT. A
turn of the waiting context is one visit of its walk; GRAPH_WALK_COMPLETE ends it. -/

namespace Sys2Proof.Machine

open Sys2Proof

/-! ## Accesses of an engine -/

/-- On whose behalf an engine accesses memory: tenant, privilege, and the issuing core and context where it is of this
module; `thread` for an ordinary access of the tenant that the engine makes, as of a walk's descriptor (R346). -/
structure EngWho where
  ten : Nat
  pl : Nat
  core : Option Nat
  ctx : Nat := 0
  thread : Bool := false
deriving DecidableEq, Repr

/-- The leaf that translates a page for an engine: an entry of its cluster's TLB, else a walk; none while that is waited for.
(Mark: DESIGN CHOICE, unsafe, log 63) -/
def State.engLeaf (s : State) (q : EngWho) (va : W64) (wr : Bool) : Option WalkRes :=
  match q.core with
  | some c => s.clientLeaf (s.clusterTlb (clusterOf c) q.ten (bitsAt va 16 39)) c q.ctx q.ten q.pl va wr
  | none => some (s.walk q.ten va q.pl wr false)

/-- Where the bytes of a window of a core's pool stand for an engine: a number no memory key has. -/
def winKey (d w off : Nat) : Nat := 2 ^ 62 + (d * 8 + w) * 2 ^ 32 + off
/-- The core, window and offset of such a number. -/
def winOf (k : Nat) : Option (Nat × Nat × Nat) :=
  if k < 2 ^ 62 then none else some ((k - 2 ^ 62) / 2 ^ 35, (k - 2 ^ 62) / 2 ^ 32 % 8, k % 2 ^ 32)

/-- The check of pool bytes: a thread's, or an engine's, which touches only E tiles (07 R124). -/
def Core.engineCheck (k : Core) (thread : Bool) (l : List Nat) : Option Nat :=
  if thread then (k.bytesCheck l).map (fun p => p.1)
  else match l.find? (fun b => decide (b ≥ k.windowTiles * 1024)), l.find? (fun b => ! k.tileE (b / 1024)) with
    | some _, _ => some 0x05
    | none, some _ => some 0x0B
    | none, none => none

/-- `n` bytes of a core's pool for an engine, through window 0 or an alias window (07 R122, R124, R130). -/
def State.engPool (s : State) (q : EngWho) (d : Nat) (va : W64) (n : Nat) : Except GErr Nat :=
  let k := s.coreAt d
  let win := bitsAt va 32 4
  let off := bitsAt va 0 32
  if win > 7 ∨ (win = 0 ∧ off + n > 2 ^ 18) then .error (.trap 0x05 va)
  else if win ≠ 0 ∧ (off % 4 ≠ 0 ∨ n % 4 ≠ 0) then .error (.trap 0x03 va)
  else if q.core ≠ some d && ! s.inRect q.ten (clusterOf d) then .error (.trap 0x07 va)
  else if win ≠ 0 ∧ bitsAt (k.awdAt win) 0 3 = 7 then .error (.trap 0x05 va)
  else match k.engineCheck q.thread (if win = 0 then upTo off n else fmtBytes (k.awdAt win) (off / 4) (n / 4)) with
    | some cause => .error (.trap cause va)
    | none => .ok (if win = 0 then poolKey d off else winKey d win off)

/-- Key of `n` bytes that lie within one 64 KiB page; `obj` for an object, which R344 confines. -/
def State.engRun (s : State) (q : EngWho) (va : W64) (n : Nat) (wr obj : Bool) : Except GErr Nat :=
  let node := bitsAt va 56 8
  let sp := bitsAt va 48 8
  let bad : GErr := if obj then .gf 6 va else .trap 0x05 va
  if node ≠ 0 ∧ (obj ∨ node ≠ 0x40 + s.modid) then .error bad
  else if sp < 0x80 then
    match s.engLeaf q va wr with
    | none => .error (.miss va wr)
    | some (.leaf t) =>
      if pteVD t.pte ≠ 0 then .error (if obj then bad else .trap 0x0E va)
      else if pteS t.pte then .error bad else .ok (t.pa va)
    | some (.park c) => .error (.park c va wr)
    | some (.fail c) => .error (.trap c va)
  else if sp = 0xFD then
    if bitsAt va 22 18 ≠ 0 ∨ bitsAt va 0 22 + n > 2 ^ 22 then .error bad
    else if ! s.inRect q.ten (bitsAt va 40 8) then .error (.trap 0x07 va)
    else .ok (cmemKey (bitsAt va 40 8) (bitsAt va 0 22))
  else if obj then .error bad
  else match (if sp = 0xFE then some (bitsAt va 36 12) else if sp = 0xFF ∧ bitsAt va 36 12 = 0 then q.core else none) with
    | none => .error bad
    | some d => s.engPool q d va n

/-- The runs of keys that `n` bytes lie in, split at 64 KiB; `fuel` bounds the pages. -/
def State.engRuns (s : State) (q : EngWho) (va : W64) (n : Nat) (wr obj : Bool) (fuel : Nat) :
    Except GErr (List (Nat × Nat)) :=
  match fuel with
  | 0 => .ok []
  | k + 1 =>
    if n = 0 then .ok []
    else
      let m := min n (65536 - va.toNat % 65536)
      match s.engRun q va m wr obj with
      | .error e => .error e
      | .ok key =>
        match s.engRuns q (va + w64 m) (n - m) wr obj k with
        | .error e => .error e
        | .ok r => .ok ((key, m) :: r)

/-- Runs of an engine's access. -/
def State.engKeys (s : State) (q : EngWho) (va : W64) (n : Nat) (wr obj : Bool) : Except GErr (List (Nat × Nat)) :=
  s.engRuns q va n wr obj (n / 65536 + 2)

/-- A byte as an engine of a core's cluster sees it: its port buffer, then memory (08 R151, R153). -/
def State.engByte (s : State) (q : EngWho) (k : Nat) : Byte := match q.core with
  | some c => s.seen c k
  | none => s.peek k

/-- Bytes of runs; those of an alias window decoded (07 R128). -/
def State.runBytes (s : State) (l : List (Nat × Nat)) : List Byte := l.flatMap (fun r => match winOf r.1 with
  | some (d, w, off) => (s.fmtRead d w (off / 4) (r.2 / 4)).1.flatMap (leBytes 4)
  | none => s.peekN r.1 r.2)

/-- Write bytes to runs; those of an alias window are encoded, in the rounding mode of the issuing context where the window
leaves it open (07 R129). -/
def State.runWrite (s : State) (l : List (Nat × Nat)) (bytes : List Byte) : State :=
  match l with
  | [] => s
  | (k, n) :: r =>
    let s1 := match winOf k with
      | some (d, w, off) =>
        let mode := resolveMode (bitsAt ((s.coreAt d).awdAt w) 5 3) s.me.rm
        let s0 := if mode = 6 then s.advanceRnd (n / 4) else s
        let (u, f) := s0.fmtWrite d w (off / 4) mode ((upTo 0 (n / 4)).map (fun i => recNat bytes (4 * i) 4))
          (if mode = 6 then s.draws (n / 4) else [])
        u.orFlags f
      | none => s.pokeN k (bytes.take n)
    s1.runWrite r (bytes.drop n)

/-- Some of the bytes of runs are poisoned. -/
def State.runPoisoned (s : State) (l : List (Nat × Nat)) : Bool := l.any (fun r => match winOf r.1 with
  | some (d, w, off) => (s.fmtKeys d w off r.2).any (fun k => s.poison.contains (k / 8))
  | none => s.poisoned r.1 r.2)

/-- `n` bytes at offset `o` within runs. -/
def subRuns (l : List (Nat × Nat)) (o n : Nat) : List (Nat × Nat) :=
  match l with
  | [] => []
  | (k, m) :: r =>
    if m ≤ o then subRuns r (o - m) n
    else
      let t := min n (m - o)
      if t = 0 then [] else (k + o, t) :: subRuns r 0 (n - t)

/-- An engine reads bytes; poison is consumed. -/
def State.engRead (s : State) (q : EngWho) (va : W64) (n : Nat) (obj : Bool) : Except GErr (List Byte) :=
  match s.engKeys q va n false obj with
  | .error e => .error e
  | .ok l => if s.runPoisoned l then .error (.poison va) else .ok (s.runBytes l)

/-- An engine reads a word. -/
def State.engWord (s : State) (q : EngWho) (va : W64) (obj : Bool) : Except GErr W64 :=
  (s.engRead q va 8 obj).map (fun l => w64 (ofLeBytes l))

/-- An engine writes bytes. -/
def State.engWrite (s : State) (q : EngWho) (va : W64) (bytes : List Byte) (obj : Bool) : Except GErr State :=
  (s.engKeys q va bytes.length true obj).map (fun l => s.runWrite l bytes)

/-- An engine's miss parks the issuing context with the ENG bit (07 R147).
(Mark: DESIGN CHOICE, unsafe, log 63; DEDUCED, unsafe, log 103) -/
def State.parkEngine (s : State) (cause : Nat) (va : W64) : State :=
  let bits := accBits false false false false true
  let ten := s.tenOf s.core
  let p : Parked := { ten := ten, page := bitsAt va 16 39, bits := bits, va := va }
  ((s.setMe { s.me with parked := some p, stall := 10 }).countOn s.core 7 1).fqFault ten
    (newFault va cause s.core (s.ctxidOf s.core) bits)

/-- ENGINE_FAULT of a graph engine, once (08 R155; 17 R332). (Mark: DESIGN CHOICE, unsafe, log 63) -/
def State.graphFault (s : State) : State :=
  if s.me.asyncs.any (fun a => a.cause == 0x0E) then s else s.postAsync s.core s.ctx 0x0E (w64 (5 * 2 ^ 16 + 3 * 2 ^ 24))

/-- What an engine's error does to the issuing context: a walk of the page tables is waited for with stall reason 2 (07
R144), and an access to a versioned page stops the command with ENGINE_FAULT. -/
def State.engFail (s0 : State) (e : GErr) : State :=
  let s := match e with
    | .miss .. => s0
    | _ => s0.engSettled s0.core s0.ctx (s0.tenOf s0.core)
  match e with
  | .gf why va => if why = 8 then s.trap 0x08 va else s.trap 0x10 va
  | .trap c va => if c = 0x0E then s.graphFault else s.trap c va
  | .park c va _ => s.parkEngine c va
  | .miss va wr => (s.engMiss s.core s.ctx (s.tenOf s.core) s.me.pl va wr).setMe { s.me with stall := 2 }
  | .poison va => s.consumePoison s.core s.ctx va 5

/-- The issuing context as an engine's client. -/
def State.engMe (s : State) : EngWho := { ten := s.tenOf s.core, pl := s.me.pl, core := some s.core, ctx := s.ctx }

/-! ## Objects (R343, R351; 12 R246) -/

/-- LEN of a header word 0. -/
def objLen (w0 : W64) : Nat := bitsAt w0 16 24
/-- Units of 16 bytes of an object of LEN words (R345). -/
def objUnits (len : Nat) : Nat := (31 + 8 * len) / 16

/-- Words of bytes. -/
def wordsAll (l : List Byte) : List W64 := wordsOf l (l.length / 8)

/-- The layout of a type under LMAPB: NFIX, STRIDE and the classes; every failure is WHY 2 of the object. -/
def State.layoutOf (s : State) (q : EngWho) (type : Nat) (obj : W64) : Except GErr (Nat × Nat × Nat) :=
  let lm := (s.tenantAt q.ten).lmapb
  let base := lm.toNat / 4096 * 4096
  if base = 0 ∨ type ≥ 2 ^ bitsAt lm 0 5 then .error (.gf 2 obj)
  else match s.engRead q (w64 (base + 32 * type)) 32 false with
    | .error e => .error e
    | .ok e =>
      let w0 := w64 (recNat e 0 8)
      let cls := recNat e 8 12
      let mapva := w64 (recNat e 24 8)
      let nfix := bitsAt w0 0 24
      let stride := bitsAt w0 24 16
      let n := nfix + stride
      if ! bitOn w0 41 || decide (bitsAt w0 42 22 ≠ 0 ∨ recNat e 20 4 ≠ 0) then .error (.gf 2 obj)
      else if bitOn w0 40 then
        if cls ≠ 0 ∨ mapva.toNat % 8 ≠ 0 then .error (.gf 2 obj)
        else (s.engRead q mapva (8 * ((n + 31) / 32)) false).map (fun l => (nfix, stride, ofLeBytes l))
      else if n > 48 ∨ mapva ≠ 0 ∨ cls / 4 ^ n ≠ 0 then .error (.gf 2 obj)
      else .ok (nfix, stride, cls)

/-- The class of word `i` of an object. -/
def GObj.classOf (o : GObj) (i : Nat) : Nat :=
  o.cls / 4 ^ (if i < o.nfix then i else o.nfix + (i - o.nfix) % o.stride) % 4

/-- An object as a snapshot and its checks give it; with `check` off, only what a layout needs (a visited object read
again after a resumption). (Mark: DESIGN CHOICE, safe, log 59) -/
def State.snapshot (s : State) (q : EngWho) (va : W64) (free check : Bool) : Except GErr GObj :=
  if va.toNat % 16 ≠ 0 then .error (.gf 6 va)
  else match s.engRead q va 16 true with
    | .error (.gf w _) => .error (.gf w va)
    | .error e => .error e
    | .ok h =>
      let w0 := w64 (recNat h 0 8)
      let w1 := w64 (recNat h 8 8)
      let len := objLen w0
      match s.engRead q (va + 16) (8 * len) true with
      | .error (.gf w _) => .error (.gf w va)
      | .error e => .error e
      | .ok body =>
        if check && hasFlag (bitsAt w0 0 16) oFREE then .error (.gf 1 va)
        else if check && ! free && hasFlag (bitsAt w0 0 16) oPOISON then .error (.gf 3 va)
        else match s.layoutOf q (bitsAt w0 40 24) va with
          | .error e => .error e
          | .ok (nfix, stride, cls) =>
            if len < nfix ∨ (stride = 0 ∧ len ≠ nfix) ∨ (stride > 0 ∧ (len - nfix) % stride ≠ 0) then .error (.gf 2 va)
            else if check && decide (bitsAt w0 5 11 ≠ 0) then .error (.gf 2 va)
            else .ok { w0 := w0, w1 := w1, words := wordsAll body, nfix := nfix, stride := stride, cls := cls }

/-! ## The walk descriptor and the record (R346 to R348) -/

/-- A word of the descriptor. -/
def dWord (d : List Byte) (o : Nat) : W64 := w64 (recNat d o 8)
/-- WRSIZE. -/
def dSize (d : List Byte) : Nat := recNat d 48 4
/-- WEAK is 1: weak pointers are nulled. -/
def dNull (d : List Byte) : Bool := decide (recNat d 24 4 % 4 = 1)
/-- AUX. -/
def dAux (d : List Byte) : W64 := dWord d 56

/-- A reserved field of a descriptor is non-zero, or WEAK is reserved. -/
def descReserved (d : List Byte) : Bool := decide (recNat d 24 4 ≥ 2 ∨ recNat d 28 4 ≠ 0 ∨ recNat d 52 4 ≠ 0)

/-- The arena fields break an alignment or a bound. -/
def arenaBad (d : List Byte) : Bool :=
  decide ((dWord d 0).toNat % 4096 ≠ 0 ∨ (dWord d 16).toNat % 16 ≠ 0 ∨ (dWord d 0).toNat + 512 > (dWord d 16).toNat
    ∨ (dWord d 16).toNat > (dWord d 8).toNat)

/-- A descriptor is malformed for an operation. (Mark: DEDUCED, unsafe, log 61) -/
def descBad (d : List Byte) (op : Nat) : Bool :=
  descReserved d || decide ((dWord d 40).toNat % 64 ≠ 0 ∨ dSize d % 64 ≠ 0 ∨ dSize d < 4096)
  || (match op with
    | 1 => decide (dWord d 0 ≠ 0 ∨ dWord d 8 ≠ 0 ∨ dWord d 16 ≠ 0 ∨ bitsAt (dAux d) 62 2 ≠ 1)
    | 3 => arenaBad d || decide ((dAux d).toNat % 32 ≠ 0)
    | 4 => arenaBad d || decide ((dAux d).toNat % 8 ≠ 0)
    | _ => arenaBad d)

/-- STATUS. -/
def statusWord (state op why skip count : Nat) : W64 :=
  w64 (state + op * 2 ^ 4 + why * 2 ^ 8 + min skip 0xFFFF * 2 ^ 16 + count % 2 ^ 32 * 2 ^ 32)

/-- The header of the record. -/
def GWalk.header (w : GWalk) : List Byte :=
  leBytes 8 w.root.toNat ++ leBytes 8 (dAux w.desc).toNat ++ leBytes 8 w.base.toNat ++ leBytes 1 (w.op + 16 * b2n w.v)
  ++ leBytes 3 0 ++ leBytes 4 w.stack.length ++ leBytes 4 w.visited.length ++ leBytes 28 0
  ++ (if w.op = 3 then sliceBytes w.hash 0 104 ++ leBytes 24 0 else leBytes 128 0)

/-- A stack entry's bytes. -/
def GStk.toBytes (e : GStk) : List Byte :=
  leBytes 8 e.src.toNat ++ leBytes 8 e.oth.toNat ++ leBytes 8 e.next ++ leBytes 8 e.n

/-- A visited entry's bytes. -/
def GVis.toBytes (e : GVis) (i : Nat) : List Byte :=
  leBytes 8 e.src.toNat ++ leBytes 8 e.oth.toNat ++ leBytes 8 (i % 2 ^ 32 + e.ver.toNat * 2 ^ 32) ++ leBytes 8 0

/-- Write into the record. (Mark: DESIGN CHOICE, safe, log 60) -/
def State.recWrite (s : State) (w : GWalk) (o : Nat) (bytes : List Byte) : State :=
  s.runWrite (subRuns w.rrun o bytes.length) bytes

/-- A word of a walk descriptor is written back. -/
def State.descPut (s : State) (dkey o v : Nat) : State := s.runWrite [(dkey + o, 8)] (leBytes 8 v)
/-- A word of a walk descriptor. -/
def State.descWord (s : State) (dkey o : Nat) : W64 := w64 (ofLeBytes (s.runBytes [(dkey + o, 8)]))

/-- The on-chip state goes into the record, and STATUS is written. (Mark: DESIGN CHOICE, safe, log 60) -/
def State.saveWalk (s : State) (w : GWalk) (state why : Nat) : State :=
  let s1 := (s.recWrite w 0 w.header).recWrite w 192 (w.stack.reverse.flatMap GStk.toBytes)
  s1.descPut w.dkey 32 (statusWord state w.op why w.skip w.visited.length).toNat

/-- The walk that a context waits for. -/
def State.walkOf (s : State) (c x : Nat) : Option GWalk := s.walks.find? (fun w => decide (w.core = c ∧ w.ctx = x))
/-- End the walk of a context. -/
def State.dropWalk (s : State) (c x : Nat) : State :=
  { s with walks := s.walks.filter (fun w => ! decide (w.core = c ∧ w.ctx = x)) }
/-- Keep the on-chip state of a context's walk. -/
def State.putWalk (s : State) (w : GWalk) : State :=
  { s with walks := s.walks.filter (fun u => ! decide (u.core = w.core ∧ u.ctx = w.ctx)) ++ [w] }

/-- A walk stops short at an error (R352, R363): STATE 4 with its WHY for a GRAPH_FAULT, else STATE 1; it stands while a
walk of the page tables is under way. (Mark: DESIGN CHOICE, safe, log 60) -/
def State.stopWalk (s : State) (w : GWalk) (e : GErr) : State :=
  match e with
  | .miss .. => (s.putWalk w).engFail e
  | .gf why va => ((s.saveWalk w 4 why).dropWalk w.core w.ctx).engFail (.gf why (if why = 8 then dAux w.desc else va))
  | _ => ((s.saveWalk w 1 0).dropWalk w.core w.ctx).engFail e

/-! ## GHASH (R357) -/

/-- HSTATE at the start. -/
def hashStart : List Byte := shaInit.flatMap be4 ++ leBytes 72 0

/-- Absorb bytes into HSTATE. -/
def hashAbsorb (h data : List Byte) : List Byte :=
  let cv := (upTo 0 8).map (fun i => ofBe4 (sliceBytes h (4 * i) 4))
  let count := recNat h 32 8
  let buf := (h.drop 40).take (count % 64) ++ data
  (shaBlocks cv buf (buf.length / 64)).flatMap be4 ++ leBytes 8 (count + data.length)
    ++ sliceBytes (buf.drop (buf.length / 64 * 64)) 0 64

/-- The digest. -/
def hashEnd (h : List Byte) : List Byte :=
  let cv := (upTo 0 8).map (fun i => ofBe4 (sliceBytes h (4 * i) 4))
  let count := recNat h 32 8
  let buf := (h.drop 40).take (count % 64) ++ [0x80] ++ List.replicate ((119 - count % 64) % 64) 0
    ++ (leBytes 8 (8 * count)).reverse
  (shaBlocks cv buf (buf.length / 64)).flatMap be4

/-- The visit index of an object. -/
def GWalk.indexOf (w : GWalk) (va : W64) : Option Nat := (findAt (fun e => e.src == va) w.visited).map (fun p => p.1)
/-- The destination or second object of a visited one. -/
def GWalk.destOf (w : GWalk) (va : W64) : Option W64 := (w.visited.find? (fun e => e.src == va)).map (fun e => e.oth)
/-- The visit index under which a second object was paired. -/
def GWalk.pairOf (w : GWalk) (va : W64) : Option Nat := (findAt (fun e => e.oth == va) w.visited).map (fun p => p.1)

/-- The snapshot of a visited object: as the engine holds it, else read again. -/
def State.snapOf (s : State) (q : EngWho) (w : GWalk) (va : W64) : Except GErr GObj :=
  match w.snaps.find? (fun p => p.1 == va) with
  | some p => .ok p.2
  | none => s.snapshot q va true false

/-- The words of an object with strong pointers as visit index + 1; none while a target has not been visited.
(Mark: DEDUCED, unsafe, log 61) -/
def GWalk.serial (w : GWalk) (o : GObj) (null : Bool) (i : Nat) (l : List W64) : Option (List W64) :=
  match l with
  | [] => some []
  | v :: r =>
    let u : Option W64 := match o.classOf i with
      | 1 => if v = 0 then some 0 else (w.indexOf v).map (fun n => w64 (n + 1))
      | 2 => some (if null then 0 else v)
      | _ => some v
    match u, w.serial o null (i + 1) r with
    | some a, some t => some (a :: t)
    | _, _ => none

/-- The header word 0 with FLAGS zeroed. -/
def noFlags (w0 : W64) : W64 := putBits w0 0 16 0

/-- The hash goes on over the visited objects whose serialisation is known, in visit order; `n` bounds them.
(Mark: DEDUCED, unsafe, log 61) -/
def State.hashOn (s : State) (q : EngWho) (w : GWalk) (n : Nat) : Except GErr GWalk :=
  match n with
  | 0 => .ok w
  | k + 1 =>
    match w.visited.drop w.hashed with
    | [] => .ok w
    | e :: _ =>
      match s.snapOf q w e.src with
      | .error f => .error f
      | .ok o => match w.serial o (dNull w.desc) 0 o.words with
        | none => .ok w
        | some l =>
          let data := leBytes 8 (noFlags o.w0).toNat ++ l.flatMap (fun v => leBytes 8 v.toNat)
          s.hashOn q { w with hash := hashAbsorb w.hash data, hashed := w.hashed + 1 } k

/-! ## Visits (R351, R353 to R358) -/

/-- GCOPY: the destination object, with the strong pointers whose targets are allocated. -/
def GWalk.copyBytes (w : GWalk) (o : GObj) : List Byte :=
  leBytes 8 (noFlags o.w0).toNat ++ leBytes 8 0
  ++ (indexed 0 o.words).flatMap (fun p => leBytes 8 (match o.classOf p.1 with
    | 1 => (match w.destOf p.2 with
      | some y => y.toNat
      | none => 0)
    | 2 => if dNull w.desc then 0 else p.2.toNat
    | _ => p.2.toNat))

/-- GCMP: data, handle and weak words, TYPE or LEN differ. -/
def objsDiffer (a b : GObj) : Bool :=
  decide (a.w0.toNat / 2 ^ 16 ≠ b.w0.toNat / 2 ^ 16)
  || (indexed 0 a.words).any (fun p => decide (a.classOf p.1 ≠ 1) && p.2 != nth b.words 0 p.1)

/-- What an operation does at a visit: the state, the walk, the second address, and the words to follow. -/
def State.visitOp (s : State) (q : EngWho) (w : GWalk) (x y : W64) (o : GObj) (parent : Option W64) :
    Except GErr (State × GWalk × W64 × Nat) :=
  let n := o.words.length
  let u := objUnits n
  match w.op with
  | 0 =>
    let bump := s.descWord w.dkey 16
    if bump.toNat + 16 * u > (dWord w.desc 8).toNat then .error (.gf 4 x)
    else do
      let s1 ← s.engWrite q bump (w.copyBytes o) false
      let s2 := s1.descPut w.dkey 16 (bump.toNat + 16 * u)
      match parent with
      | none => .ok (s2, w, bump, n)
      | some p => do
        let s3 ← s2.engWrite q p (leBytes 8 bump.toNat) false
        .ok (s3, w, bump, n)
  | 1 => .ok (s, { w with off := w.off + u }, w.base + w64 (16 * w.off), n)
  | 2 => do
    let b ← s.snapshot q y false true
    let w1 := { w with snaps := w.snaps ++ [(y, b)] }
    .ok (s, if objsDiffer o b then { w1 with result := some (w64 (1 + w.visited.length)) } else w1, y, n)
  | 3 => .ok (s, w, 0, n)
  | _ =>
    let f := bitsAt o.w0 0 16
    if hasFlag f oHELD || hasFlag f oPINNED then
      let k := w.skip + 1
      let w1 := { w with skip := k }
      if k ≤ 512 then do
        let s1 ← s.engWrite q (dAux w.desc + w64 (8 * (k - 1))) (leBytes 8 x.toNat) false
        .ok (s1, w1, 0, 0)
      else .ok (s, w1, 0, 0)
    else do
      let base := dWord w.desc 0
      let chain := base + w64 (8 * (min u 64 - 1))
      let head ← s.engWord q chain false
      let link := if head = 0 then 0 else (head - base).toNat / 16 % 2 ^ 32
      let count := (bitsAt o.w1 32 32 + 1) % 2 ^ 32
      let s1 ← s.engWrite q x (leBytes 8 (o.w0.toNat + 1) ++ leBytes 8 (link + count * 2 ^ 32)) true
      let s2 ← s1.engWrite q chain (leBytes 8 x.toNat) false
      .ok (s2, w, 0, n)

/-- Visit an object: its checks, what the operation does, its visited entry, and its place on the stack.
(Mark: DESIGN CHOICE, safe, log 59) -/
def State.visit (s : State) (q : EngWho) (w : GWalk) (x y : W64) (parent : Option W64) : Except GErr (State × GWalk) :=
  let n := w.visited.length
  if 192 + 32 * (w.stack.length + 1) + 32 * (n + 1) > dSize w.desc then .error (.gf 5 x)
  else if w.op = 4 ∧ ¬ ((dWord w.desc 0).toNat ≤ x.toNat ∧ x.toNat < (dWord w.desc 8).toNat) then .error (.gf 6 x)
  else do
    let o ← s.snapshot q x (w.op == 4) true
    let (s1, w1, y1, follow) ← s.visitOp q w x y o parent
    let e : GVis := { src := x, oth := y1, ver := BitVec.ofNat 32 (bitsAt o.w1 32 32) }
    let t : GStk := { src := x, oth := y1, next := 0, n := follow, sent := false }
    let w2 := { w1 with visited := w1.visited ++ [e], stack := t :: w1.stack, snaps := w1.snaps ++ [(x, o)] }
    let s2 := s1.recWrite w2 (dSize w.desc - 32 * (n + 1)) (e.toBytes n)
    if w.op = 3 then do
      let w3 ← s2.hashOn q w2 w2.visited.length
      .ok (s2, w3)
    else .ok (s2, w2)

/-- What the scan of the object on top of the stack finds. -/
inductive GScan where
  | child (i : Nat) (v y : W64)
  | exhausted
  | differs
deriving DecidableEq, Repr

/-- Scan the strong pointers from word `i` on, `n` words at most: the first target not yet visited, a difference of GCMP,
or none; with the words that GCOPY writes because their targets are allocated by now. -/
def GWalk.scan (w : GWalk) (e : GStk) (o : GObj) (o2 : Option GObj) (n i : Nat) (out : List (W64 × W64)) :
    GScan × List (W64 × W64) :=
  match n with
  | 0 => (.exhausted, out)
  | k + 1 =>
    let v := nth o.words 0 i
    if o.classOf i ≠ 1 then w.scan e o o2 k (i + 1) out
    else
      let y := match o2 with
        | some b => nth b.words 0 i
        | none => 0
      if w.op = 2 ∧ ((v = 0 ∧ y ≠ 0) ∨ (v ≠ 0 ∧ y = 0) ∨ (v ≠ 0 ∧ w.indexOf v ≠ w.pairOf y)) then (.differs, out)
      else if v = 0 then w.scan e o o2 k (i + 1) out
      else match w.indexOf v with
        | none => (.child i v y, out)
        | some _ =>
          let more := match w.op, w.destOf v with
            | 0, some d => [(e.oth + w64 (16 + 8 * i), d)]
            | _, _ => []
          w.scan e o o2 k (i + 1) (out ++ more)

/-- Engine writes of words. -/
def State.engWords (s : State) (q : EngWho) (l : List (W64 × W64)) : Except GErr State :=
  match l with
  | [] => .ok s
  | (a, v) :: r => do
    let t ← s.engWrite q a (leBytes 8 v.toNat) false
    t.engWords q r

/-! ## The receiver of a GSEND (R355, R379 to R381) -/

/-- What the receiving engine answers. -/
inductive GAns where
  | value (v : W64)
  | refuse (why : Nat)
  | cause (c : Nat) (va : W64)
  | park (p : Parked) (cause : Nat)
deriving DecidableEq, Repr

/-- An error of the receiver's accesses as its answer. -/
def GErr.answer (e : GErr) (ten : Nat) : GAns :=
  match e with
  | .gf why _ => .refuse why
  | .trap c va => .cause c va
  | .park c va _ => .park { ten := ten, page := bitsAt va 16 39, bits := accBits false false false false true, va := va } c
  | .miss .. => .refuse 9
  | .poison _ => .refuse 9

/-- A binding is the sender's for a descriptor. -/
def GRecv.isOf (r : GRecv) (src : BitVec 6) (ten : BitVec 4) (ctxid : W32) (desc : W64) : Bool :=
  decide (r.src = src ∧ r.ten = ten ∧ r.ctxid = ctxid ∧ r.desc = desc)

/-- The receive descriptor on this module. -/
def localVa (va : W64) : W64 := putBits va 56 8 0

/-- Opening: the descriptor is bound unless it is in progress, and the base is granted. -/
def State.recvOpen (s : State) (o : GraphOpen) : GAns × State :=
  let q : EngWho := { ten := o.ten.toNat, pl := o.pl, core := none }
  let d := localVa o.desc
  if d.toNat % 64 ≠ 0 then (.refuse 9, s)
  else match s.engKeys q d 64 true false with
    | .error e => (e.answer o.ten.toNat, s)
    | .ok l =>
      let b := s.runBytes l
      if descReserved b || arenaBad b || decide (bitsAt (dWord b 32) 0 4 = 1) then (.refuse 9, s)
      else
        let r : GRecv := { src := o.src, ten := o.ten, ctxid := o.ctxid, desc := d, base := dWord b 16, fwd := [],
                           top := dWord b 16 }
        let s1 := { s with grecvs := s.grecvs.filter (fun (g : GRecv) => ! decide (g.ten = o.ten ∧ g.desc = d)) ++ [r] }
        (.value (dWord b 16), s1.runWrite (subRuns l 32 8) (leBytes 8 (statusWord 1 1 0 0 0).toNat))

/-- An object, or a part of one: refused when the transfer is no longer bound, else written at base + offset and recorded.
(Mark: DEDUCED, unsafe, log 62; DEDUCED, unsafe, log 125) -/
def State.recvObject (s : State) (o : GraphObject) : GAns × State :=
  let q : EngWho := { ten := o.ten.toNat, pl := o.pl, core := none }
  let d := localVa o.desc
  match s.grecvs.find? (fun g => g.isOf o.src o.ten o.ctxid d) with
  | none => (.refuse 9, s)
  | some g =>
    match s.engKeys q d 64 true false with
    | .error e => (e.answer o.ten.toNat, s)
    | .ok l =>
      let b := s.runBytes l
      let va := g.base + w64 (16 * o.offset)
      let stop := va.toNat + 16 * objUnits (o.first + o.words.length + o.rest)
      if bitsAt (dWord b 32) 0 4 ≠ 1 then (.refuse 9, s)
      else if stop > (dWord b 8).toNat then (.refuse 4, s)
      else
        let body := (indexed 0 o.words).flatMap (fun p =>
          leBytes 8 (if o.nullWeak && nth o.classes 0 p.1 == 2 then 0 else p.2.toNat))
        let head := leBytes 8 (noFlags o.word0).toNat ++ leBytes 8 0
        let known := (Tab.get g.fwd (va, []) o.index).2
        match (if o.first = 0 then s.engWrite q va (head ++ body) false
            else s.engWrite q (va + w64 (16 + 8 * o.first)) body false) with
        | .error e => (e.answer o.ten.toNat, s)
        | .ok s1 =>
          let top := if stop > g.top.toNat then w64 stop else g.top
          let classes := if o.first = 0 then o.classes else known ++ o.classes
          let g1 := { g with fwd := Tab.set g.fwd o.index (va, classes), top := top }
          (.value 0, { s1 with grecvs := s1.grecvs.map (fun h => if h.isOf o.src o.ten o.ctxid d then g1 else h) })

/-- Rewrite the strong-pointer words of the received objects through the forwarding table. (Mark: DEDUCED, unsafe, log 62) -/
def State.rewrite (s : State) (q : EngWho) (fwd : Tab (W64 × List (BitVec 2))) (l : Tab (W64 × List (BitVec 2))) :
    Except GErr State :=
  match l with
  | [] => .ok s
  | (_, va, cls) :: r => do
    let t ← (indexed 0 cls).foldlM (fun u p =>
      if p.2 ≠ 1 then Except.ok u
      else do
        let a := va + w64 (16 + 8 * p.1)
        let v ← State.engWord u q a false
        if v = 0 then Except.ok u
        else u.engWrite q a (leBytes 8 (Tab.get fwd (0, []) (v.toNat - 1)).1.toNat) false) s
    t.rewrite q fwd r

/-- The end: pointers rewritten, ABUMP and STATUS written, the binding released. -/
def State.recvFinish (s : State) (f : GraphFinish) : GAns × State :=
  let q : EngWho := { ten := f.ten.toNat, pl := f.pl, core := none }
  let d := localVa f.desc
  match s.grecvs.find? (fun g => g.isOf f.src f.ten f.ctxid d) with
  | none => (.refuse 9, s)
  | some g =>
    match s.engKeys q d 64 true false with
    | .error e => (e.answer f.ten.toNat, s)
    | .ok l =>
      if bitsAt (dWord (s.runBytes l) 32) 0 4 ≠ 1 then (.refuse 9, s)
      else match s.rewrite q g.fwd g.fwd with
        | .error e => (e.answer f.ten.toNat, s)
        | .ok s1 =>
          let s2 := s1.runWrite (subRuns l 16 8) (leBytes 8 g.top.toNat)
          let s3 := s2.runWrite (subRuns l 32 8) (leBytes 8 (statusWord 2 1 0 0 g.fwd.length).toNat)
          (.value 0, { s3 with grecvs := s3.grecvs.filter (fun h => ! h.isOf f.src f.ten f.ctxid d) })

/-! ## The packets of a GSEND -/

/-- An opening as a packet. -/
def graphOpenPacket (o : GraphOpen) : Packet :=
  let b : Body := { op := .graphOpen, va := o.desc, ctxid := o.ctxid, pl := o.pl, reg := 0 }
  { src := o.src, ten := o.ten, stream := 5, body := b }
/-- An object as a packet: its words, then a byte for the class of each. -/
def graphObjectPacket (o : GraphObject) : Packet :=
  let b : Body := { op := .graphObject, va := o.desc, ctxid := o.ctxid, pl := o.pl, reg := 1, val := o.word0, sel := o.index,
                    cmp := w64 o.offset, nb := b2n o.nullWeak + 2 * o.first + 2 ^ 33 * o.rest,
                    bytes := o.words.flatMap (fun v => leBytes 8 v.toNat) ++ o.classes.map (fun c => c.setWidth 8) }
  { src := o.src, ten := o.ten, stream := 3, body := b }
/-- The end as a packet. -/
def graphFinishPacket (f : GraphFinish) : Packet :=
  let b : Body := { op := .graphFinish, va := f.desc, ctxid := f.ctxid, pl := f.pl, reg := 2, sel := f.count }
  { src := f.src, ten := f.ten, stream := 3, body := b }

/-- An opening from its packet. -/
def graphOpenOf (p : Packet) : GraphOpen :=
  { src := p.src, ten := p.ten, ctxid := p.body.ctxid, desc := p.body.va, pl := p.body.pl }
/-- An object from its packet. -/
def graphObjectOf (p : Packet) : GraphObject :=
  let n := p.body.bytes.length / 9
  { src := p.src, ten := p.ten, ctxid := p.body.ctxid, desc := p.body.va, pl := p.body.pl, index := p.body.sel,
    offset := p.body.cmp.toNat, word0 := p.body.val, words := wordsOf p.body.bytes n,
    classes := ((p.body.bytes.drop (8 * n)).take n).map (fun b => b.setWidth 2), nullWeak := decide (p.body.nb % 2 = 1),
    first := p.body.nb / 2 % 2 ^ 32, rest := p.body.nb / 2 ^ 33 }
/-- The end from its packet. -/
def graphFinishOf (p : Packet) : GraphFinish :=
  { src := p.src, ten := p.ten, ctxid := p.body.ctxid, desc := p.body.va, pl := p.body.pl, count := p.body.sel }

/-- The receiving engine serves a packet of a GSEND. (Mark: DEDUCED, unsafe, log 62) -/
def State.graphServe (s : State) (p : Packet) : GAns × State :=
  match p.body.op with
  | .graphOpen => s.recvOpen (graphOpenOf p)
  | .graphObject => s.recvObject (graphObjectOf p)
  | _ => s.recvFinish (graphFinishOf p)

/-- Words of an object that one packet carries, with the class of each (02 R29: at most 4,096 bytes of body).
(Mark: DEDUCED, unsafe, log 125) -/
def partWords : Nat := 448

/-- The answer of the receiver reaches the waiting walk: an object of more than one packet goes on, a sent one is left. -/
def GWalk.answer (w : GWalk) (a : GAns) : GWalk :=
  let kind := w.waiting
  let w1 := { w with waiting := none }
  match a with
  | .value v =>
    (match kind with
    | some 0 => { w1 with base := localVa v }
    | some 1 =>
      if w.more then { w1 with part := w.part + partWords, more := false } else { w1 with stack := w1.stack.drop 1, part := 0 }
    | _ => { w1 with ready := true })
  | .refuse why =>
    let va := match w.stack, kind with
      | e :: _, some 1 => e.src
      | _, _ => w.root
    { w1 with err := some (.gf why va) }
  | .cause c va => { w1 with err := some (.trap c (putBits va 56 8 (bitsAt (dAux w.desc) 56 8))) }
  | .park .. => w

/-- The receiver's answer as a packet. -/
def State.graphReply (s : State) (p : Packet) (a : GAns) : Packet :=
  match a with
  | .value v => s.replyTo p .reply v
  | .refuse why => s.replyTo p .replyFault (w64 (0x10 + 256 * why))
  | .cause c va => { s.replyTo p .replyFault (w64 c) with body := { (s.replyTo p .replyFault (w64 c)).body with va := va } }
  | .park .. => s.replyTo p .none 0

/-- A reply packet as the receiver's answer. -/
def graphAnswer (p : Packet) : GAns :=
  match p.body.op with
  | .replyFault => if bitsAt p.body.val 0 8 = 0x10 then .refuse (bitsAt p.body.val 8 8) else .cause (bitsAt p.body.val 0 8) p.body.va
  | _ => .value p.body.val

/-- A request that parks on a translation miss at this module (03 R58): it is kept until a REPLAY, and PENDING is
acknowledged. -/
def State.parkPacket (s : State) (p : Packet) (k : Parked) (cause : Nat) : State :=
  let s1 := { s with parkedRemote := s.parkedRemote ++ [(p, k)] }
  s1.fqFault k.ten (newFault k.va cause (if p.src.toNat = s.ownNumber then p.body.core else 0xFFFF) p.body.ctxid k.bits)

/-- An acknowledgement of a packet; its kind-specific bit 0 is PENDING (02 R34; 03 R58). -/
def State.ackTo (s : State) (p : Packet) (spec : BitVec 56) : Packet :=
  { src := BitVec.ofNat 6 s.ownNumber, dst := p.src, ten := p.ten, stream := p.stream, seq := p.seq, kind := 1, spec := spec }

/-- A packet of a GSEND is served for another module: answered, or parked. -/
def State.graphRequest (s : State) (p : Packet) : State :=
  match s.graphServe p with
  | (.park k c, t) => (t.parkPacket p k c).sendPacket (s.ackTo p 1)
  | (a, t) => t.replyOnly p (s.graphReply p a)

/-- GSEND_OPEN. -/
def execGsendOpen (o : GraphOpen) (s : State) : Out := .next (s.graphRequest (graphOpenPacket o))
/-- GSEND_OBJECT. -/
def execGsendObject (o : GraphObject) (s : State) : Out := .next (s.graphRequest (graphObjectPacket o))
/-- GSEND_FINISH. -/
def execGsendFinish (f : GraphFinish) (s : State) : Out := .next (s.graphRequest (graphFinishPacket f))

/-! ## Turns of a walk -/

/-- m of a GSEND: the module of the receive descriptor. -/
def GWalk.peer (w : GWalk) : Nat := bitsAt (dAux w.desc) 56 6

/-- The engine sends a packet to the receiver; on its own module the receiver serves it at once. -/
def State.graphSend (s : State) (w : GWalk) (kind : Nat) (p : Packet) : State :=
  let w1 := { w with waiting := some kind }
  if w.peer = s.modid then
    let q := { p with src := BitVec.ofNat 6 s.modid, body := { p.body with core := w.core, ctx := w.ctx } }
    match s.graphServe q with
    | (.park k c, t) => (t.parkPacket q k c).putWalk w1
    | (a, t) => t.putWalk (w1.answer a)
  else if ! s.reachable w.peer then s.putWalk { w with err := some (.gf 8 (dAux w.desc)) }
  else
    let q : Packet := { s.request w.peer p.stream.toNat p.body with ten := p.ten }
    (s.sendPacket q).putWalk w1

/-- The object that a walk leaves, as a GSEND sends it: the part that is due. (Mark: DEDUCED, unsafe, log 125) -/
def State.objectPacket (s : State) (w : GWalk) (e : GStk) (o : GObj) : Packet :=
  let words := match w.serial o (dNull w.desc) 0 o.words with
    | some l => l
    | none => []
  let g : GraphObject :=
    { src := BitVec.ofNat 6 s.modid, ten := BitVec.ofNat 4 (s.tenOf w.core), ctxid := s.ctxidOf w.core, desc := dAux w.desc,
      index := (w.indexOf e.src).getD 0, offset := (e.oth - w.base).toNat / 16, word0 := noFlags o.w0, words := (words.drop w.part).take partWords,
      classes := (((upTo 0 o.words.length).map (fun i => BitVec.ofNat 2 (o.classOf i))).drop w.part).take partWords, nullWeak := dNull w.desc,
      pl := (s.ctxAt w.core w.ctx).pl, first := w.part, rest := words.length - (w.part + partWords) }
  graphObjectPacket g

/-- The walk goes on to its next visit; what it leaves on the way is popped, or sent. `n` bounds the objects left. -/
def State.advance (s : State) (q : EngWho) (w : GWalk) (n : Nat) : State :=
  match n with
  | 0 => s.putWalk w
  | k + 1 =>
    match w.stack with
    | [] =>
      if w.op = 1 then
        let f : GraphFinish := { src := 0, ten := BitVec.ofNat 4 q.ten, ctxid := s.ctxidOf w.core, desc := dAux w.desc,
                                 count := w.visited.length, pl := q.pl }
        s.graphSend w 2 (graphFinishPacket f)
      else s.putWalk { w with ready := true }
    | e :: rest =>
      match s.snapOf q w e.src with
      | .error f => s.stopWalk w f
      | .ok o =>
        match (if w.op = 2 then (s.snapOf q w e.oth).map some else .ok none) with
        | .error f => s.stopWalk w f
        | .ok o2 =>
          let (r, out) := w.scan e o o2 (e.n - e.next) e.next []
          match s.engWords q out with
          | .error f => s.stopWalk w f
          | .ok s1 =>
            match r with
            | .differs => s1.putWalk { w with result := some (w64 (1 + (w.indexOf e.src).getD 0)), ready := true }
            | .exhausted =>
              if w.op = 1 then
                s1.graphSend { w with more := decide (w.part + partWords < o.words.length) } 1 (s1.objectPacket w e o)
              else s1.advance q { w with stack := rest } k
            | .child i v y =>
              match s1.visit q w v y (some (e.oth + w64 (16 + 8 * i))) with
              | .error f => s1.stopWalk w f
              | .ok (s2, w2) =>
                let up := match w2.stack with
                  | t :: _ :: l => t :: { e with next := i + 1 } :: l
                  | l => l
                s2.putWalk { w2 with stack := up, ready := w2.result.isSome }

/-- The engine must stop at the next object boundary (R352). -/
def State.walkInterrupted (s : State) (c x : Nat) : Bool :=
  let k := s.ctxAt c x
  (k.nextAsync asyncOrder).isSome || k.uiReady || (s.coreAt c).saving.isSome
    || (s.coreAt c).ctxs.any (fun p => p.2.asyncs.any (fun a => a.cause == 0x19))

/-- One turn of a waiting graph instruction. -/
def State.graphTurn (s0 : State) (w : GWalk) : Out :=
  let s := if s0.me.stall = 2 then s0.setMe { s0.me with stall := stGraph } else s0
  match w.err with
  | some e => .next (s.stopWalk w e)
  | none =>
    if w.waiting.isSome then s.wait (if s.me.stall = stGsend then stGsend else stGraph)
    else if w.ready then s.wait stGraph
    else if s.walkInterrupted w.core w.ctx then
      let t := (s.saveWalk w 1 0).dropWalk w.core w.ctx
      .next (t.setMe { t.me with stall := 0 })
    else
      let q := s.engMe
      let t := if w.op = 1 ∧ w.base = 0 then
          let o : GraphOpen := { src := 0, ten := BitVec.ofNat 4 q.ten, ctxid := s.ctxidOf w.core, desc := dAux w.desc, pl := q.pl }
          s.graphSend w 0 (graphOpenPacket o)
        else if w.visited.isEmpty then
          match s.visit q w w.root (if w.op = 2 then dAux w.desc else 0) none with
          | .error e => s.stopWalk w e
          | .ok (u, w1) => u.putWalk { w1 with ready := w1.result.isSome }
        else s.advance q w (w.stack.length + 1)
      if t.me.stall = 2 then .next t else if (t.walkOf w.core w.ctx).isSome then t.wait stGraph else .next t

/-! ## Starting and resuming (R350) -/

/-- The stack of a record, the top first. -/
def readStack (r : List Byte) (n : Nat) : List GStk :=
  ((upTo 0 n).map (fun i =>
    let e : GStk := { src := w64 (recNat r (192 + 32 * i) 8), oth := w64 (recNat r (200 + 32 * i) 8),
                      next := recNat r (208 + 32 * i) 8, n := recNat r (216 + 32 * i) 8, sent := false }
    e)).reverse

/-- The visited entries of a record. -/
def readVisited (r : List Byte) (size n : Nat) : List GVis :=
  (upTo 1 n).map (fun i =>
    let o := size - 32 * i
    let e : GVis := { src := w64 (recNat r o 8), oth := w64 (recNat r (o + 8) 8), ver := BitVec.ofNat 32 (recNat r (o + 20) 4) }
    e)

/-- How many visited objects HSTATE covers: their serialised lengths add up to its byte count. -/
def State.hashedOf (s : State) (q : EngWho) (l : List GVis) (count : Nat) : Except GErr Nat :=
  match l with
  | [] => .ok 0
  | e :: r =>
    if count = 0 then .ok 0
    else do
      let w0 ← s.engWord q e.src true
      let n ← s.hashedOf q r (count - (8 + 8 * objLen w0))
      .ok (n + 1)

/-- The record matches (R350). (Mark: DEDUCED, unsafe, log 61) -/
def recMatches (r d : List Byte) (op : Nat) (v : Bool) (root : W64) : Bool :=
  decide (recNat r 24 1 = op + 16 * b2n v ∧ recNat r 0 8 = root.toNat ∧ recNat r 8 8 = (dAux d).toNat
    ∧ (op = 1 ∨ recNat r 16 8 = (dWord d 0).toNat)
    ∧ 192 + 32 * recNat r 28 4 + 32 * recNat r 32 4 ≤ dSize d)

/-- Take a walk up from its record. -/
def State.resumeWalk (s : State) (q : EngWho) (w : GWalk) (r : List Byte) : Except GErr GWalk := do
  let vis := readVisited r (dSize w.desc) (recNat r 32 4)
  let base := w64 (recNat r 16 8)
  let hash := sliceBytes r 64 104
  let hashed ← if w.op = 3 then s.hashedOf q vis (recNat hash 32 8) else .ok 0
  let off ← match w.op, vis.getLast? with
    | 1, some e => do
      let w0 ← s.engWord q e.src true
      .ok ((e.oth - base).toNat / 16 + objUnits (objLen w0))
    | _, _ => .ok 0
  .ok { w with base := base, stack := readStack r (recNat r 28 4), visited := vis, skip := bitsAt (dWord w.desc 32) 16 16,
               off := off, hash := if w.op = 3 then hash else [], hashed := hashed }

/-- A walk that ends at once: null roots (R350). -/
def State.finishNull (s : State) (w : GWalk) (d : BitVec 5) : Out :=
  let s1 := s.saveWalk w 2 0
  match w.op with
  | 2 => s1.done d (if dAux w.desc = 0 ∧ w.root = 0 then 0 else 1)
  | 3 => (match s1.engWrite s.engMe (dAux w.desc) (hashEnd w.hash) false with
    | .ok t => t.done d 0
    | .error e => .next ((s1.saveWalk w 1 0).engFail e))
  | _ => s1.done d 0

/-- Start an execution of a walk, or resume it. -/
def State.startWalk (s : State) (op : Nat) (v : Bool) (d : BitVec 5) (va root : W64) : Out :=
  let q := s.engMe
  match s.engKeys { q with thread := true } va 64 true false with
  | .error e => .next (s.engFail e)
  | .ok [(dkey, _)] =>
    let b := s.runBytes [(dkey, 64)]
    if descBad b op then .next (s.trap 0x05 va)
    else match s.engKeys q (dWord b 40) (dSize b) true false with
      | .error e => .next (s.engFail e)
      | .ok rrun =>
        let w : GWalk :=
          { core := s.core, ctx := s.ctx, reg := d, op := op, v := v, root := root, desc := b, dkey := dkey, rrun := rrun,
            base := if op = 1 then 0 else dWord b 0, stack := [], visited := [], snaps := [], skip := 0, off := 0,
            result := none, hash := if op = 3 then hashStart else [], hashed := 0, torn := false, part := 0, more := false, ready := false,
            waiting := none, err := none }
        let st := bitsAt (dWord b 32) 0 4
        if st = 1 ∨ st = 4 then
          let old := s.runBytes rrun
          if ! recMatches old b op v root then
            let kept := putBits (putBits (dWord b 32) 0 16 (4 + op * 16 + 7 * 256)) 0 4 4
            .next ((s.descPut dkey 32 kept.toNat).trap 0x10 root)
          else match s.resumeWalk q w old with
            | .error e => .next (s.engFail e)
            | .ok w1 =>
              let s1 := s.descPut dkey 32 (statusWord 1 op 0 w1.skip w1.visited.length).toNat
              (s1.putWalk w1).graphTurn w1
        else
          let s1 := (s.recWrite w 0 w.header).descPut dkey 32 (statusWord 1 op 0 0 0).toNat
          if root = 0 ∨ (op = 2 ∧ dAux b = 0) then s1.finishNull w d else (s1.putWalk w).graphTurn w
  | .ok _ => .next (s.trap 0x05 va)

/-- The walks of a quadrant. -/
def State.quadWalks (s : State) (c : Nat) : Nat :=
  (s.walks.filter (fun w => quadrantOf (clusterOf w.core) == quadrantOf (clusterOf c))).length

/-- A graph instruction that walks. (Mark: DEDUCED, unsafe, log 61) -/
def State.graphOp (s : State) (i : Instr) (op : Nat) (v : Bool) (d a b : BitVec 5) : Out :=
  onArray i s
    (match s.walkOf s.core s.ctx with
    | some w => s.graphTurn w
    | none =>
      if (s.rd a).toNat % 64 ≠ 0 then .next (s.trap 0x03 (s.rd a))
      else if s.quadWalks s.core ≥ 4 then s.wait 15
      else (s.performModule s.core s.ctx).startWalk op v d (s.rd a) (s.rd b))

/-- GCOPY. -/
def execGcopy (d a b : BitVec 5) (v : BitVec 1) (s : State) : Out := s.graphOp (.gcopy d a b v) 0 (v == 1) d a b
/-- GSEND. -/
def execGsend (d a b : BitVec 5) (v : BitVec 1) (s : State) : Out := s.graphOp (.gsend d a b v) 1 (v == 1) d a b
/-- GCMP. -/
def execGcmp (d a b : BitVec 5) (v : BitVec 1) (s : State) : Out := s.graphOp (.gcmp d a b v) 2 (v == 1) d a b
/-- GHASH. -/
def execGhash (d a b : BitVec 5) (v : BitVec 1) (s : State) : Out := s.graphOp (.ghash d a b v) 3 (v == 1) d a b
/-- GFREE. -/
def execGfree (d a b : BitVec 5) (s : State) : Out := s.graphOp (.gfree d a b) 4 false d a b

/-! ## The end of a walk (R353) -/

/-- A visited object's OVER has changed. -/
def State.overChanged (s : State) (q : EngWho) (l : List GVis) : Except GErr Bool :=
  match l with
  | [] => .ok false
  | e :: r => do
    let w1 ← s.engWord q (e.src + 8) true
    let b ← s.overChanged q r
    .ok (b || decide (bitsAt w1 32 32 ≠ e.ver.toNat))

/-- x[d] of a completed walk. -/
def GWalk.value (w : GWalk) : W64 :=
  let first := match w.visited with
    | e :: _ => e.oth
    | [] => 0
  match w.op with
  | 0 => first
  | 1 => putBits first 56 8 (0x40 + w.peer)
  | 2 => w.result.getD 0
  | 3 => w64 w.visited.length
  | _ => w64 (w.visited.length - w.skip)

/-- GRAPH_WALK_COMPLETE: the re-check of a .v walk, STATE 2 or 3, the digest of GHASH, the result. -/
def execGraphWalkComplete (core ctx : Nat) (s : State) : Out :=
  match s.walkOf core ctx with
  | none => .next s
  | some w =>
    if ! w.ready || w.err.isSome then .next s
    else
      let t := s.at core ctx
      let q := t.engMe
      match (if w.v then t.overChanged q w.visited else .ok false) with
      | .error e => .next (t.stopWalk w e)
      | .ok changed =>
        match (if w.op = 3 then t.engWrite q (dAux w.desc) (hashEnd w.hash) false else .ok t) with
        | .error e => .next (t.stopWalk w e)
        | .ok u => ((u.saveWalk w (if changed || w.torn then 3 else 2) 0).dropWalk core ctx).done w.reg w.value

/-! ## OALLOC, OSTP, GSTAT (R359 to R361) -/

/-- The address and version that an allocation takes, with the change to its arena; none where the arena is full. -/
def State.allocAt (s : State) (q : EngWho) (b : List Byte) (dkey u : Nat) : Except GErr (Option (W64 × Nat × State)) := do
  let base := dWord b 0
  let bump := dWord b 16
  let chain := base + w64 (8 * (u - 1))
  let head ← if u < 64 then s.engWord q chain false else .ok 0
  if head ≠ 0 then
    let w1 ← s.engWord q (head + 8) true
    let link := bitsAt w1 0 32
    let s1 ← s.engWrite q chain (leBytes 8 (if link = 0 then 0 else (base + w64 (16 * link)).toNat)) false
    .ok (some (head, (bitsAt w1 32 32 + 1) % 2 ^ 32, s1))
  else if bump.toNat + 16 * u ≤ (dWord b 8).toNat then
    .ok (some (bump, 0, s.descPut dkey 16 (bump.toNat + 16 * u)))
  else .ok none

/-- OALLOC. -/
def execOalloc (d a b : BitVec 5) (s : State) : Out :=
  onArray (.oalloc d a b) s
    (let va := s.rd a
     let image := s.rd b
     let len := objLen image
     if va.toNat % 64 ≠ 0 then .next (s.trap 0x03 va)
     else
      let s0 := s.performModule s.core s.ctx
      let q := s0.engMe
      match s0.engKeys { q with thread := true } va 64 true false with
      | .error e => .next (s0.engFail e)
      | .ok [(dkey, _)] =>
        let desc := s0.runBytes [(dkey, 64)]
        if arenaBad desc then .next (s0.trap 0x05 va)
        else if bitsAt image 0 16 ≠ 0 then .next (s0.trap 0x05 image)
        else (match s0.allocAt q desc dkey (objUnits len) with
          | .error e => .next (s0.engFail e)
          | .ok none => s0.done d 0
          | .ok (some (o, ver, s1)) =>
            match s1.engWrite q o (leBytes 8 image.toNat ++ leBytes 8 (ver * 2 ^ 32) ++ leBytes (8 * len) 0) false with
            | .error e => .next (s0.engFail e)
            | .ok t => t.done d o)
      | .ok _ => .next (s0.trap 0x05 va))

/-- OSTP: x[d] is the word index, and receives the new version. -/
def execOstp (d a b : BitVec 5) (s : State) : Out :=
  onArray (.ostp d a b) s
    (let va := s.rd a
     let i := (s.rd d).toNat
     if va.toNat % 16 ≠ 0 then .next (s.trap 0x03 va)
     else if i ≥ 2 ^ 24 then .next (s.trap 0x05 (s.rd d))
     else s.objectAt va true (fun home =>
      if s.poisoned home 16 then s.consume va 4 (fun t => .next t.retire)
      else
        let t := s.performModule s.core s.ctx
        if hasFlag (t.objFlags home) oFREE then .next (t.trap 0x10 va)
        else if i ≥ objLen (w64 (t.peekLe home 8)) then .next (t.trap 0x10 va)
        else
          let put := fun (key : Nat) =>
            let count := t.objOver home + 1
            t.whenFree (upTo key 8) (((t.pokeLe key 8 (s.rd b).toNat).pokeLe (home + 12) 4 count.toNat).done d (zext count))
          let word := va + w64 (16 + 8 * i)
          match t.resolve t.core t.ctx word 8 true false with
          | .trap cause v => .next (t.trap cause v)
          | .miss v => t.miss v (accBits false true false false false)
          | .bytes (key :: _) => put key
          | .place (.mem key) => put key
          | _ => .next (t.trap 0x05 va)))

/-- GSTAT. -/
def execGstat (d a : BitVec 5) (s : State) : Out :=
  onArray (.gstat d a) s
    (s.objectAt (s.rd a) false (fun home =>
      let t := s.performModule s.core s.ctx
      let v := w64 (t.objFlags home + (t.objOver home).toNat * 2 ^ 32)
      if t.poisoned home 16 then t.consume (s.rd a) 1 (fun u => u.done d v) else t.done d v))

end Sys2Proof.Machine
end

