-- ==== Sys2Proof/Machine/Sfu.lean ====
section
/-! DEFINITION. The special functions of VSFU (16 R314): the exact value where it is a dyadic number, else the value to
640 fraction bits with a sticky bit below them (log 10), rounded once. -/

namespace Sys2Proof.Machine

/-- Fraction bits of the fixed-point numbers. -/
def fxP : Nat := 640
/-- 1 in fixed point. -/
def fxOne : Nat := 2 ^ 640

/-- A sum of odd powers z − z³/3 + z⁵/5 − … (alternating) or with plus signs, `n` terms from term `k`; `p` is the present
power and `z2` the square of the argument. -/
def fxOdd (alt : Bool) (z2 p k n : Nat) (acc : Int) : Int :=
  match n with
  | 0 => acc
  | m + 1 =>
    let t : Int := (p / (2 * k + 1) : Nat)
    fxOdd alt z2 (p * z2 / fxOne) (k + 1) m (if alt && decide (k % 2 = 1) then acc - t else acc + t)

/-- atanh of z, for z at most 1/3. -/
def fxAtanh (z : Nat) : Nat := (fxOdd false (z * z / fxOne) z 0 210 0).toNat
/-- atan of 1/q. -/
def fxAtanInv (q : Nat) : Nat := (fxOdd true (fxOne / (q * q)) (fxOne / q) 0 145 0).toNat
/-- ln 2. -/
def fxLn2 : Nat := 2 * fxAtanh (fxOne / 3)
/-- π, by Machin's formula. -/
def fxPi : Nat := 16 * fxAtanInv 5 - 4 * fxAtanInv 239

/-- The terms of e^r from term `k`, `n` of them; `t` is the present term. -/
def fxExpTerms (r t k n acc : Nat) : Nat :=
  match n with
  | 0 => acc
  | m + 1 => fxExpTerms r (t * r / fxOne / (k + 1)) (k + 1) m (acc + t)

/-- e^r for r below 1. -/
def fxExp (r : Nat) : Nat := fxExpTerms r fxOne 0 160 0

/-- The terms of sin r from term `k`. -/
def fxSinTerms (r2 t k n : Nat) (acc : Int) : Int :=
  match n with
  | 0 => acc
  | m + 1 =>
    let s : Int := (t : Nat)
    fxSinTerms r2 (t * r2 / fxOne / ((2 * k + 2) * (2 * k + 3))) (k + 1) m (if k % 2 = 1 then acc - s else acc + s)

/-- sin r for r at most π/2. -/
def fxSin (r : Nat) : Nat := (fxSinTerms (r * r / fxOne) r 0 90 0).toNat

/-- A value that is not dyadic: its leading bits with a sticky bit. (Mark: DEDUCED, unsafe, log 10) -/
def sticky (s : Bool) (q : Nat) (e : Int) : Num := .fin s (2 * q + 1) (e - 1)

/-- A finite value in fixed point; exact for every code of f32, bf16 and f16 of magnitude below 2^2048.
(Mark: DEDUCED, unsafe, log 10) -/
def fxOf (m : Nat) (e : Int) : Nat := if 0 ≤ e then m * 2 ^ e.toNat * fxOne else m * fxOne / 2 ^ (-e).toNat

/-- |m · 2^e| is at least 2^12. -/
def isHuge (m : Nat) (e : Int) : Bool := decide ((Nat.log2 m : Int) + e ≥ 12)

/-- e^x of a finite non-zero x as a leading number in [1, 2) and an exponent: x = k · ln 2 + r. -/
def expParts (s : Bool) (m : Nat) (e : Int) : Nat × Int :=
  let x : Int := if s then -(fxOf m e : Int) else (fxOf m e : Int)
  let k := x / (fxLn2 : Int)
  (fxExp (x - k * (fxLn2 : Int)).toNat, k)

/-- exp of a finite x. (Mark: DEDUCED, unsafe, log 10) -/
def sfuExp (s : Bool) (m : Nat) (e : Int) : Num :=
  if m = 0 then .fin false 1 0
  else if isHuge m e then (if s then .fin false 1 (-4000) else .fin false 1 4000)
  else
    let (q, k) := expParts s m e
    sticky false q (k - 640)

/-- exp2 of a finite x. -/
def sfuExp2 (s : Bool) (m : Nat) (e : Int) : Num :=
  if m = 0 then .fin false 1 0
  else if isHuge m e then (if s then .fin false 1 (-4000) else .fin false 1 4000)
  else
    let x : Int := if s then -(fxOf m e : Int) else (fxOf m e : Int)
    let k := x / (fxOne : Int)
    let f := (x - k * (fxOne : Int)).toNat
    if f = 0 then .fin false 1 k else sticky false (fxExp (f * fxLn2 / fxOne)) (k - 640)

/-- log2 of a finite positive x. (Mark: DEDUCED, unsafe, log 10) -/
def sfuLog2 (m : Nat) (e : Int) : Num :=
  let n := Nat.log2 m
  let top : Int := (n : Int) + e
  if m = 2 ^ n then (if top < 0 then .fin true (-top).toNat 0 else .fin false top.toNat 0)
  else
    let y := m * fxOne / 2 ^ n
    let l := 2 * fxAtanh ((y - fxOne) * fxOne / (y + fxOne)) * fxOne / fxLn2
    let v : Int := top * (fxOne : Int) + (l : Int)
    sticky (decide (v < 0)) v.natAbs (-640)

/-- 1/√x of a finite positive x. (Mark: DEDUCED, unsafe, log 10) -/
def sfuRsqrt (m : Nat) (e : Int) : Num :=
  let m1 := if e % 2 = 0 then m else 2 * m
  let e1 := if e % 2 = 0 then e else e - 1
  let r := isqrt (2 ^ 1280 / m1)
  let v : Num := if r * r * m1 = 2 ^ 1280 then .fin false r (-640) else sticky false r (-640)
  v.scale (-(e1 / 2))

/-- sin(π u) for u in fixed point, any size: the sign by the half turn, then the first quadrant. -/
def sinTurn (u : Nat) : Num :=
  let v := u % (2 * fxOne)
  let neg := decide (v ≥ fxOne)
  let w := if neg then v - fxOne else v
  let q := if 2 * w > fxOne then fxOne - w else w
  if q = 0 then .fin false 0 0
  else if 2 * q = fxOne then .fin neg 1 0
  else sticky neg (fxSin (q * fxPi / fxOne)) (-640)

/-- sin(π x): zero of an integer x takes the sign of x. (Mark: DEDUCED, unsafe, log 10) -/
def sfuSinpi (s : Bool) (m : Nat) (e : Int) : Num :=
  if 0 ≤ e then .fin s 0 0
  else match sinTurn (fxOf m e) with
    | .fin t n k => if n = 0 then .fin s 0 0 else .fin (t != s) n k
    | v => v

/-- cos(π x). -/
def sfuCospi (m : Nat) (e : Int) : Num :=
  if 1 ≤ e then .fin false 1 0 else sinTurn (fxOf m e + fxOne / 2)

/-- tanh of a finite x. (Mark: DEDUCED, unsafe, log 10) -/
def sfuTanh (s : Bool) (m : Nat) (e : Int) : Num :=
  if m = 0 then .fin s 0 0
  else if isHuge m e then sticky s (fxOne - 1) (-640)
  else
    let (q, k) := expParts true (2 * m) e
    let t := q / 2 ^ (-k).toNat
    sticky s (min (fxOne - 1) ((fxOne - t) * fxOne / (fxOne + t))) (-640)

/-- 1 / (1 + e^−x) of a finite x. (Mark: DEDUCED, unsafe, log 10) -/
def sfuSigm (s : Bool) (m : Nat) (e : Int) : Num :=
  if m = 0 then .fin false 1 (-1)
  else if isHuge m e then (if s then .fin false 1 (-4000) else sticky false (fxOne - 1) (-640))
  else
    let (q, k) := expParts true m e
    let t := q / 2 ^ (-k).toNat
    if s then sticky false (q * fxOne / (fxOne + t)) (k - 640) else sticky false (min (fxOne - 1) (fxOne * fxOne / (fxOne + t))) (-640)

/-- VSFU: the function of a code, rounded once. (Mark: DEDUCED, unsafe, log 10) -/
def Fmt.sfu (f : Fmt) (fn mode d : Nat) (sat : Bool) (a : Nat) : Nat × Nat :=
  let x := f.decode a
  let out := fun (v : Num) => f.encode mode d sat v
  let infinity := fun (s : Bool) => (if s then f.signBit else 0) + f.infCode
  match x with
  | .nan .. => f.nanResult [x]
  | .inf s =>
    (match fn with
    | 0 => out (if s then .fin false 0 0 else .inf false)
    | 1 => if s then (f.nanCode, fNV) else out (.inf false)
    | 2 => out (.fin s 0 0)
    | 3 => if s then (f.nanCode, fNV) else out (.fin false 0 0)
    | 4 => (f.nanCode, fNV)
    | 5 => (f.nanCode, fNV)
    | 6 => out (.fin s 1 0)
    | 7 => out (if s then .fin false 0 0 else .fin false 1 0)
    | _ => out (if s then .fin false 0 0 else .inf false))
  | .fin s m e =>
    match fn with
    | 0 => out (sfuExp2 s m e)
    | 1 => if m = 0 then (infinity true, fDZ) else if s then (f.nanCode, fNV) else out (sfuLog2 m e)
    | 2 =>
      if m = 0 then (infinity s, fDZ)
      else
        let k := Nat.log2 m + 640
        let q := 2 ^ k / m
        out (if q * m = 2 ^ k then .fin s q (-(k : Int) - e) else sticky s q (-(k : Int) - e))
    | 3 => if m = 0 then (infinity s, fDZ) else if s then (f.nanCode, fNV) else out (sfuRsqrt m e)
    | 4 => if m = 0 then out (.fin s 0 0) else out (sfuSinpi s m e)
    | 5 => if m = 0 then out (.fin false 1 0) else out (sfuCospi m e)
    | 6 => out (sfuTanh s m e)
    | 7 => out (sfuSigm s m e)
    | _ => out (sfuExp s m e)

end Sys2Proof.Machine
end

