-- ==== Sys2Proof/Machine/Vector.lean ====
section
/-! DEFINITION. The vector unit (06 R110 to R112; 16 R293 to R318): what each command names, its checks at issue, the
queue, the octet arbiter, the passes and the effects. Passes of non-memory commands only take time: their effect on
the registers stands at the last pass. -/

namespace Sys2Proof.Machine

open Sys2Proof

/-! ## What a command names -/

/-- The registers a command reads and writes, the CTL bits it may set (none: the control word is not read), whether it
accesses memory, and the x register that receives its result. -/
structure VUse where
  rd : List (BitVec 5) := []
  wr : List (BitVec 5) := []
  kr : List Nat := []
  kw : List Nat := []
  ctl : Option Nat := none
  mem : Bool := false
  xd : Option (BitVec 5) := none
deriving DecidableEq, Repr

/-- CTL fields KSEL and ZERO. -/
def cKZ : Nat := 0x0F
/-- KSEL, ZERO and SAT. -/
def cKZS : Nat := 0x8F
/-- KSEL, ZERO and RM. -/
def cKZR : Nat := 0x7F
/-- KSEL, ZERO, RM and SAT. -/
def cAll : Nat := 0xFF

/-- The mask register that a command selects with KSEL, or in a memory command's second value, is added at issue. -/
def vuse (i : Instr) : VUse :=
  match i with
  | .vaddF _ d a b _ => { rd := [a, b], wr := [d], ctl := some cAll }
  | .vsubF _ d a b _ => { rd := [a, b], wr := [d], ctl := some cAll }
  | .vmulF _ d a b _ => { rd := [a, b], wr := [d], ctl := some cAll }
  | .vfma _ d a b _ => { rd := [a, b, d], wr := [d], ctl := some cAll }
  | .vminF _ d a b _ => { rd := [a, b], wr := [d], ctl := some cKZ }
  | .vmaxF _ d a b _ => { rd := [a, b], wr := [d], ctl := some cKZ }
  | .vdiv _ d a b _ => { rd := [a, b], wr := [d], ctl := some cAll }
  | .vsqrt _ d a _ => { rd := [a], wr := [d], ctl := some cKZR }
  | .vabsF _ d a _ => { rd := [a], wr := [d], ctl := some cKZ }
  | .vaddI _ d a b _ => { rd := [a, b], wr := [d], ctl := some cKZS }
  | .vsubI _ d a b _ => { rd := [a, b], wr := [d], ctl := some cKZS }
  | .vmulI _ d a b _ => { rd := [a, b], wr := [d], ctl := some cKZS }
  | .vmulh _ d a b _ => { rd := [a, b], wr := [d], ctl := some cKZ }
  | .vminI _ d a b _ => { rd := [a, b], wr := [d], ctl := some cKZ }
  | .vmaxI _ d a b _ => { rd := [a, b], wr := [d], ctl := some cKZ }
  | .vabsI _ d a _ => { rd := [a], wr := [d], ctl := some cKZS }
  | .vand _ d a b _ => { rd := [a, b], wr := [d], ctl := some cKZ }
  | .vor _ d a b _ => { rd := [a, b], wr := [d], ctl := some cKZ }
  | .vxor _ d a b _ => { rd := [a, b], wr := [d], ctl := some cKZ }
  | .vshl _ d a b _ => { rd := [a, b], wr := [d], ctl := some cKZ }
  | .vshr _ d a b _ => { rd := [a, b], wr := [d], ctl := some cKZ }
  | .vshra _ d a b _ => { rd := [a, b], wr := [d], ctl := some cKZ }
  | .vcmpeq _ _ k a b _ => { rd := [a, b], kw := [k.toNat], ctl := some cKZ }
  | .vcmpne _ _ k a b _ => { rd := [a, b], kw := [k.toNat], ctl := some cKZ }
  | .vcmplt _ _ k a b _ => { rd := [a, b], kw := [k.toNat], ctl := some cKZ }
  | .vcmple _ _ k a b _ => { rd := [a, b], kw := [k.toNat], ctl := some cKZ }
  | .vsel _ d a b _ => { rd := [a, b], wr := [d], ctl := some 0x07 }
  | .kand d a b _ => { kr := [a.toNat, b.toNat], kw := [d.toNat] }
  | .kor d a b _ => { kr := [a.toNat, b.toNat], kw := [d.toNat] }
  | .kxor d a b _ => { kr := [a.toNat, b.toNat], kw := [d.toNat] }
  | .knot d a _ => { kr := [a.toNat], kw := [d.toNat] }
  | .kpopc d a _ => { kr := [a.toNat], xd := some d }
  | .vld _ d _ => { wr := [d], mem := true }
  | .vst _ d _ => { rd := [d], mem := true }
  | .vlds _ d _ => { wr := [d], mem := true }
  | .vsts _ d _ => { rd := [d], mem := true }
  | .vgath _ d b _ => { rd := [b], wr := [d], mem := true }
  | .vscat _ d b _ => { rd := [d, b], mem := true }
  | .vbcast _ d _ => { wr := [d], ctl := some cKZ }
  | .vperm _ d a b _ => { rd := [a, b], wr := [d], ctl := some cKZ }
  | .vslide _ d a _ => { rd := [a], wr := [d], ctl := some cKZ }
  | .vred _ d a c o _ => { rd := [a], wr := [d], ctl := some (if c = 1 ∧ (o = 0 ∨ o = 3) then 0xF7 else 0x77) }
  | .vmovx _ d a _ => { rd := [a], xd := some d }
  | .vidx _ d _ => { wr := [d], ctl := some cKZ }
  | .vcvt _ d a _ _ _ _ => { rd := [a], wr := [d], ctl := some cAll }
  | .vqnt _ d a b _ => { rd := [a, b], wr := [d, b], ctl := some 0x1F0 }
  | .vdqnt _ d a b _ => { rd := [a, b], wr := [d], ctl := some 0 }
  | .vsfu _ d a _ _ => { rd := [a], wr := [d], ctl := some cAll }
  | .vpopq d _ => { wr := [d] }
  | _ => { }

/-- A VRED. -/
def isVred (i : Instr) : Bool := match i with
  | .vred .. => true
  | _ => false
/-- A VMOVX. -/
def isVmovx (i : Instr) : Bool := match i with
  | .vmovx .. => true
  | _ => false
/-- A vector load. -/
def isVload (i : Instr) : Bool := match i with
  | .vld .. => true
  | .vlds .. => true
  | .vgath .. => true
  | _ => false

/-- The lowest vector register a command names that PARTW does not give (R296). -/
def VUse.absent (u : VUse) (n : Nat) : Option Nat :=
  (upTo n (32 - n)).find? (fun r => (u.rd ++ u.wr).any (fun v => v.toNat == r))

/-- The control word and a memory command's second value are legal (R295, R238): unused and reserved bits 0, RM not 7. -/
def VUse.valuesOk (u : VUse) (i : Instr) (v1 v2 : W64) : Bool :=
  (match u.ctl with
    | none => true
    | some m => decide (Nat.land v1.toNat (2 ^ 64 - 1 - m) = 0) && ! (decide (m / 16 % 8 = 7) && decide (bitsAt v1 4 3 = 7)))
  && (! u.mem || decide (v2.toNat / 2 ^ 51 = 0)) && (! isVmovx i || decide (v1.toNat < 256))

/-- The mask register that governs a command's elements. -/
def VCmd.ksel (m : VCmd) : Nat :=
  let u := vuse m.insn
  if u.mem then bitsAt m.v2 48 3
  else match u.ctl with
    | some c => if c % 8 = 7 then bitsAt m.v1 0 3 else 0
    | none => 0

/-- CTL.ZERO of a command. -/
def VCmd.zeroes (m : VCmd) : Bool := bitOn m.v1 3
/-- CTL.SAT of a command. -/
def VCmd.sat (m : VCmd) : Bool := bitOn m.v1 7
/-- Passes of a command (R110): 16 elements each; VPOPQ takes four and VFENCE none. -/
def VCmd.passes (m : VCmd) : Nat := if isPop m.insn then 4 else if isFence m.insn then 0 else m.grant / 16

/-- What a command reads, as numbers: vector registers 0 to 31, the mask registers of its context above. -/
def VCmd.reads (m : VCmd) : List Nat :=
  (vuse m.insn).rd.map BitVec.toNat
    ++ ((m.ksel :: (vuse m.insn).kr).filter (fun k => decide (k ≠ 0))).map (fun k => 32 + 8 * m.ctx + k)
/-- What a command writes. -/
def VCmd.writes (m : VCmd) : List Nat :=
  (vuse m.insn).wr.map BitVec.toNat ++ ((vuse m.insn).kw.filter (fun k => decide (k ≠ 0))).map (fun k => 32 + 8 * m.ctx + k)

/-- An earlier command holds a later one back (R297). -/
def VCmd.blocks (e m : VCmd) : Bool :=
  e.writes.any m.reads.contains || (e.reads ++ e.writes).any m.writes.contains

/-! ## Elements (R293) -/

/-- Offset of vector register `r` in its core's pool (07 R122). -/
def Core.vregAt (k : Core) (r : Nat) : Nat := (254 - k.nvr + r) * 1024

/-- Element `i` of width `e` of a vector register. -/
def State.vGet (s : State) (c : Nat) (r : BitVec 5) (e i : Nat) : Nat :=
  let o := poolKey c ((s.coreAt c).vregAt r.toNat)
  if e = 4 then (s.peek (o + i / 2)).toNat / (if i % 2 = 0 then 1 else 16) % 16 else s.peekLe (o + i * (e / 8)) (e / 8)

/-- Write element `i` of width `e`; the other bytes of the register stay. -/
def State.vPut (s : State) (c : Nat) (r : BitVec 5) (e i v : Nat) : State :=
  let o := poolKey c ((s.coreAt c).vregAt r.toNat)
  if e = 4 then
    let old := (s.peek (o + i / 2)).toNat
    s.pokeLe (o + i / 2) 1 (if i % 2 = 0 then old / 16 * 16 + v % 16 else old % 16 + v % 16 * 16)
  else s.pokeLe (o + i * (e / 8)) (e / 8) (v % 2 ^ e)

/-- Width of a type under the integer and the width codings (R293): 32, 16, 8, three signed then three natural. -/
def intWidth (t : Nat) : Nat := match t % 3 with
  | 0 => 32 | 1 => 16 | _ => 8
/-- A signed type of the integer coding. -/
def intSigned (t : Nat) : Bool := decide (t < 3)
/-- An element as an integer. -/
def intOf (t c : Nat) : Int := if intSigned t && decide (c ≥ 2 ^ (intWidth t - 1)) then (c : Int) - 2 ^ intWidth t else c
/-- Largest value of an integer type. -/
def intMax (t : Nat) : Int := if intSigned t then 2 ^ (intWidth t - 1) - 1 else 2 ^ intWidth t - 1
/-- Smallest value of an integer type. -/
def intMin (t : Nat) : Int := if intSigned t then -2 ^ (intWidth t - 1) else 0
/-- An integer as an element: clamped to the type's range, or modulo 2^e. -/
def intTo (t : Nat) (clamp : Bool) (v : Int) : Nat :=
  ((if clamp then max (intMin t) (min (intMax t) v) else v) % 2 ^ intWidth t).toNat

/-! ## Element-wise commands (R299 to R302, R311, R314) -/

/-- An element-wise operation: source and destination widths, and the result with its flags from the mode, the draw,
SAT and the elements of va, vb and vd. -/
structure VOp where
  es : Nat
  ed : Nat
  f : Nat → Nat → Bool → Nat → Nat → Nat → Nat × Nat

/-- With SAT, an overflow gives the largest finite magnitude with the value's sign (11 R223). -/
def Fmt.satFix (f : Fmt) (sat : Bool) (r : Nat × Nat) : Nat × Nat :=
  if sat && decide (Nat.land r.2 fOF ≠ 0) then (r.1 / f.signBit % 2 * f.signBit + f.maxCode, r.2) else r

/-- A float operation. -/
def floatOp (t : BitVec 3) (g : Fmt → Nat → Nat → Nat → Nat → Nat → Nat × Nat) : VOp :=
  { es := fmtBits t.toNat, ed := fmtBits t.toNat,
    f := fun rm d sat a b c => (fmtOf t.toNat).satFix sat (g (fmtOf t.toNat) rm d a b c) }

/-- An integer operation, which raises no flag. -/
def intOp (t : BitVec 3) (g : Int → Int → Int) : VOp :=
  { es := intWidth t.toNat, ed := intWidth t.toNat,
    f := fun _ _ sat a b _ => (intTo t.toNat sat (g (intOf t.toNat a) (intOf t.toNat b)), 0) }

/-- A bit operation under the width coding. -/
def bitOp (t : BitVec 3) (g : Nat → Nat → Nat → Nat) : VOp :=
  { es := intWidth t.toNat, ed := intWidth t.toNat,
    f := fun _ _ _ a b _ => (g (intWidth t.toNat) a b % 2 ^ intWidth t.toNat, 0) }

/-- The value of a VCVT source: vb[3] is set for the integer coding. -/
def vcvtSource (isInt : BitVec 1) (t : BitVec 3) (c : Nat) : Num :=
  if isInt = 1 then ofInt (intSigned t.toNat) (intWidth t.toNat) c else (fmtOf t.toNat).decode c

/-- A conversion: one rounding. -/
def vcvtOp (t : BitVec 3) (j i : BitVec 1) (src : BitVec 3) : VOp :=
  { es := if i = 1 then intWidth src.toNat else fmtBits src.toNat,
    ed := if j = 1 then intWidth t.toNat else fmtBits t.toNat,
    f := fun rm d sat a _ _ =>
      if j = 1 then toInt (intSigned t.toNat) (intWidth t.toNat) rm d (vcvtSource i src a)
      else (fmtOf t.toNat).encode rm d sat (vcvtSource i src a) }

/-- The operation of an element-wise command. -/
def vop (i : Instr) : Option VOp :=
  match i with
  | .vaddF t _ _ _ _ => some (floatOp t (fun f rm d a b _ => f.add rm d a b))
  | .vsubF t _ _ _ _ => some (floatOp t (fun f rm d a b _ => f.sub rm d a b))
  | .vmulF t _ _ _ _ => some (floatOp t (fun f rm d a b _ => f.mul rm d a b))
  | .vfma t _ _ _ _ => some (floatOp t (fun f rm d a b c => f.fma rm d a b c))
  | .vminF t _ _ _ _ => some (floatOp t (fun f _ _ a b _ => f.minMax true a b))
  | .vmaxF t _ _ _ _ => some (floatOp t (fun f _ _ a b _ => f.minMax false a b))
  | .vdiv t _ _ _ _ => some (floatOp t (fun f rm d a b _ => f.div rm d a b))
  | .vsqrt t _ _ _ => some (floatOp t (fun f rm d a _ _ => f.sqrt rm d a))
  | .vabsF t _ _ _ => some (floatOp t (fun f _ _ a _ _ => (a % f.signBit, 0)))
  | .vaddI t _ _ _ _ => some (intOp t (· + ·))
  | .vsubI t _ _ _ _ => some (intOp t (· - ·))
  | .vmulI t _ _ _ _ => some (intOp t (· * ·))
  | .vmulh t _ _ _ _ => some (intOp t (fun a b => a * b / 2 ^ intWidth t.toNat))
  | .vminI t _ _ _ _ => some (intOp t min)
  | .vmaxI t _ _ _ _ => some (intOp t max)
  | .vabsI t _ _ _ => some (intOp t (fun a _ => if a < 0 then -a else a))
  | .vand t _ _ _ _ => some (bitOp t (fun _ a b => Nat.land a b))
  | .vor t _ _ _ _ => some (bitOp t (fun _ a b => Nat.lor a b))
  | .vxor t _ _ _ _ => some (bitOp t (fun _ a b => Nat.xor a b))
  | .vshl t _ _ _ _ => some (bitOp t (fun e a b => a * 2 ^ (b % e)))
  | .vshr t _ _ _ _ => some (bitOp t (fun e a b => a / 2 ^ (b % e)))
  | .vshra t _ _ _ _ => some (bitOp t (fun e a b =>
      (((if a ≥ 2 ^ (e - 1) then (a : Int) - 2 ^ e else a) / 2 ^ (b % e)) % 2 ^ e).toNat))
  | .vcvt t _ _ j i src _ => some (vcvtOp t j i src)
  | .vsfu t _ _ fn _ => some (floatOp t (fun f rm d a _ _ => f.sfu fn.toNat rm d false a))
  | _ => none

/-! ## Effects of commands -/

/-- What a command does: elements to write (register, width, index, value), a mask, an x value, and flags. -/
structure VEff where
  put : List (BitVec 5 × Nat × Nat × Nat) := []
  k : Option (Nat × BitVec 256) := none
  x : Option W64 := none
  flags : Nat := 0
deriving DecidableEq, Repr

/-- The elements a command with a governing mask writes: on, the value; off, 0 with ZERO, else nothing. -/
def VCmd.mask (m : VCmd) (km : BitVec 256) (d : BitVec 5) (e : Nat) (f : Nat → Nat × Nat) : VEff :=
  (upTo 0 m.grant).foldr (fun i (acc : VEff) =>
    if km.getLsbD i then { acc with put := (d, e, i, (f i).1) :: acc.put, flags := fOr acc.flags (f i).2 }
    else if m.zeroes then { acc with put := (d, e, i, 0) :: acc.put }
    else acc) { }

/-- A mask made of bits. -/
def maskOf (f : Nat → Bool) : BitVec 256 :=
  BitVec.ofNat 256 ((upTo 0 256).foldl (fun acc i => acc + b2n (f i) * 2 ^ i) 0)

/-- A comparison (R303) under the float coding: 0 EQ, 1 NE, 2 LT, 3 LE. -/
def vcmpF (cc t a b : Nat) : Bool × Nat :=
  let f := fmtOf t
  match cc with
  | 0 => f.cmp 0 a b
  | 1 => (! (f.cmp 0 a b).1, (f.cmp 0 a b).2)
  | 2 => f.cmp 1 a b
  | _ => f.cmp 2 a b
/-- A comparison under the integer coding. -/
def vcmpI (cc t a b : Nat) : Bool :=
  match cc with
  | 0 => decide (a = b)
  | 1 => decide (a ≠ b)
  | 2 => decide (intOf t a < intOf t b)
  | _ => decide (intOf t a ≤ intOf t b)

/-- VCMPcc. -/
def State.vcmpEff (s : State) (c : Nat) (m : VCmd) (km old : BitVec 256) (cc : Nat) (t : BitVec 3) (isInt : BitVec 1)
    (k : BitVec 3) (a b : BitVec 5) : VEff :=
  let e := if isInt = 1 then intWidth t.toNat else fmtBits t.toNat
  let r := fun (i : Nat) =>
    if isInt = 1 then (vcmpI cc t.toNat (s.vGet c a e i) (s.vGet c b e i), 0)
    else vcmpF cc t.toNat (s.vGet c a e i) (s.vGet c b e i)
  { k := some (k.toNat, maskOf (fun i =>
      if m.grant ≤ i then old.getLsbD i else if km.getLsbD i then (r i).1 else if m.zeroes then false else old.getLsbD i)),
    flags := (upTo 0 m.grant).foldl (fun fl i => if km.getLsbD i then fOr fl (r i).2 else fl) 0 }

/-- KAND, KOR, KXOR, KNOT: bits below G. -/
def kEff (m : VCmd) (d : BitVec 3) (old v : BitVec 256) : VEff :=
  { k := some (d.toNat, maskOf (fun i => if i < m.grant then v.getLsbD i else old.getLsbD i)) }

/-- VRED (R309, R228): op 0 add, 1 min, 2 max, 3 multiply. -/
def State.vredEff (s : State) (c : Nat) (m : VCmd) (km : BitVec 256) (t : BitVec 3) (d a : BitVec 5) (isInt : BitVec 1)
    (op : BitVec 2) : VEff :=
  let mode := if m.rm = 6 then 0 else m.rm
  if isInt = 1 then
    let n := t.toNat
    let e := intWidth n
    let ident : Int := match op.toNat with
      | 0 => 0 | 1 => intMax n | 2 => intMin n | _ => 1
    let comb := fun (x y : Nat) =>
      let p := intOf n x
      let q := intOf n y
      (intTo n m.sat (match op.toNat with
        | 0 => p + q | 1 => min p q | 2 => max p q | _ => p * q), 0)
    let l := (upTo 0 m.grant).map (fun i => if km.getLsbD i then s.vGet c a e i else intTo n false ident)
    { put := [(d, e, 0, nth (pairTree comb 9 l 0).1 0 0)] }
  else
    let f := fmtOf t.toNat
    let e := fmtBits t.toNat
    let ident := match op.toNat with
      | 0 => f.signBit | 1 => f.infCode | 2 => f.signBit + f.infCode | _ => f.bias * 2 ^ f.fb
    let comb := fun (x y : Nat) => match op.toNat with
      | 0 => f.add mode 0 x y | 1 => f.minMax true x y | 2 => f.minMax false x y | _ => f.mul mode 0 x y
    let l := (upTo 0 m.grant).map (fun i => if km.getLsbD i then s.vGet c a e i else ident)
    let r := pairTree comb 9 l 0
    { put := [(d, e, 0, nth r.1 0 0)], flags := r.2 }

/-- The positions of the blocks of 32 elements that a grant covers: first element and how many are present. -/
def vblocks (g : Nat) : List (Nat × Nat × Nat) := (upTo 0 ((g + 31) / 32)).map (fun j => (j, 32 * j, min 32 (g - 32 * j)))

/-- VQNT (R312), one block. -/
def State.vqntBlock (s : State) (c : Nat) (m : VCmd) (draw : Nat → Nat) (t : Nat) (d a b : BitVec 5) (blk : Nat × Nat × Nat) :
    VEff :=
  let (j, i0, n) := blk
  let vals := (upTo i0 n).map (fun i => fp32.decode (s.vGet c a 32 i))
  let fresh := ! bitOn m.v1 8
  let sc := if fresh then selectScale vals t else s.vGet c b 8 j
  let scPut := if fresh then [(b, 8, j, sc)] else []
  let rescale := fun (v : Num) => if sc = 0xFF then Num.fin false 0 0 else v.scale (127 - (sc : Int))
  if t = 6 then
    let r := iqEncode m.rm m.sat (fun i => draw (i0 + i)) ((upTo 0 32).map (fun i => rescale (nth vals (.fin false 0 0) i)))
    { put := scPut ++ (indexed 0 r.1).map (fun p => (d, 8, 16 * j + p.1, p.2.toNat)), flags := r.2 }
  else
    let one := fun (p : Nat × Num) =>
      if sc = 0xFF then (0, 0) else (fmtOf t).encode m.rm (draw (i0 + p.1)) m.sat (rescale p.2)
    { put := scPut ++ (indexed 0 vals).map (fun p => (d, fmtBits t, i0 + p.1, (one p).1)),
      flags := (indexed 0 vals).foldl (fun fl p => fOr fl (one p).2) 0 }

/-- VDQNT (R313), one block; the elements of IQ4 are decoded left to right as far as they are present. -/
def State.vdqntBlock (s : State) (c : Nat) (t : Nat) (d a b : BitVec 5) (blk : Nat × Nat × Nat) : VEff :=
  let (j, i0, n) := blk
  let sc := s.vGet c b 8 j
  let iq := (upTo 0 n).foldl (iqDecStep ((upTo (16 * j) 16).map (fun i => BitVec.ofNat 8 (s.vGet c a 8 i)))) (([], -1, 0, []) : IqDec)
  let vals := if t = 6 then iq.2.2.2.reverse else (upTo i0 n).map (fun i => (fmtOf t).decode (s.vGet c a (fmtBits t) i))
  { put := (indexed 0 vals).map (fun p => (d, 32, i0 + p.1, (scaleValue p.2 sc).1)),
    flags := (indexed 0 vals).foldl (fun fl p => fOr fl (scaleValue p.2 sc).2) (if t = 6 then iq.2.2.1 else 0) }

/-- Effects together. -/
def VEff.join (l : List VEff) : VEff :=
  { put := l.flatMap (fun e => e.put), flags := l.foldl (fun fl e => fOr fl e.flags) 0 }

/-- The effect of a command other than a memory command, from the state before it (R297, R299). -/
def State.veff (s : State) (c : Nat) (m : VCmd) : VEff :=
  let x := s.ctxAt c m.ctx
  let km := x.krd m.ksel
  let draw := fun (i : Nat) => if m.rm = 6 then srDraw (s.jobseedOf c) (w64 (s.lcoreOf c)) (m.base + w64 i) else 0
  let each := fun (d a b : BitVec 5) (o : VOp) =>
    m.mask km d o.ed (fun i => o.f m.rm (draw i) m.sat (s.vGet c a o.es i) (s.vGet c b o.es i) (s.vGet c d o.ed i))
  match m.insn with
  | .vcmpeq t j k a b _ => s.vcmpEff c m km (x.krd k.toNat) 0 t j k a b
  | .vcmpne t j k a b _ => s.vcmpEff c m km (x.krd k.toNat) 1 t j k a b
  | .vcmplt t j k a b _ => s.vcmpEff c m km (x.krd k.toNat) 2 t j k a b
  | .vcmple t j k a b _ => s.vcmpEff c m km (x.krd k.toNat) 3 t j k a b
  | .vsel t d a b _ =>
    let e := intWidth t.toNat
    { put := (upTo 0 m.grant).map (fun i => (d, e, i, if km.getLsbD i then s.vGet c a e i else s.vGet c b e i)) }
  | .kand d a b _ => kEff m d (x.krd d.toNat) (x.krd a.toNat &&& x.krd b.toNat)
  | .kor d a b _ => kEff m d (x.krd d.toNat) (x.krd a.toNat ||| x.krd b.toNat)
  | .kxor d a b _ => kEff m d (x.krd d.toNat) (x.krd a.toNat ^^^ x.krd b.toNat)
  | .knot d a _ => kEff m d (x.krd d.toNat) (~~~ x.krd a.toNat)
  | .kpopc _ a _ => { x := some (w64 ((upTo 0 m.grant).filter (fun i => (x.krd a.toNat).getLsbD i)).length) }
  | .vbcast t d _ => m.mask km d (intWidth t.toNat) (fun _ => (m.v2.toNat % 2 ^ intWidth t.toNat, 0))
  | .vperm t d a b _ =>
    let e := intWidth t.toNat
    m.mask km d e (fun i => (if s.vGet c b e i < m.grant then s.vGet c a e (s.vGet c b e i) else 0, 0))
  | .vslide t d a _ =>
    let e := intWidth t.toNat
    m.mask km d e (fun i =>
      let j := (i : Int) + m.v2.toInt
      (if 0 ≤ j ∧ j < m.grant then s.vGet c a e j.toNat else 0, 0))
  | .vidx t d _ => m.mask km d (intWidth t.toNat) (fun i => (i % 2 ^ intWidth t.toNat, 0))
  | .vred t d a j o _ => s.vredEff c m km t d a j o
  | .vmovx t _ a _ =>
    let j := m.v1.toNat % 256
    { x := some (if j < m.grant then BitVec.ofInt 64 (intOf t.toNat (s.vGet c a (intWidth t.toNat) j)) else 0) }
  | .vqnt t d a b _ => VEff.join ((vblocks m.grant).map (s.vqntBlock c m draw t.toNat d a b))
  | .vdqnt t d a b _ => VEff.join ((vblocks m.grant).map (s.vdqntBlock c t.toNat d a b))
  | i => match vop i, (vuse i).wr, (vuse i).rd with
    | some o, d :: _, [a] => each d a a o
    | some o, d :: _, a :: b :: _ => each d a b o
    | _, _, _ => { }

/-- Perform an effect for a command's context. -/
def State.vApply (s : State) (c : Nat) (m : VCmd) (f : VEff) : State :=
  let s1 := f.put.foldl (fun (t : State) p => t.vPut c p.1 p.2.1 p.2.2.1 p.2.2.2) s
  let x := s1.ctxAt c m.ctx
  let x1 := match f.k with
    | some (k, v) => x.kwr k v
    | none => x
  s1.setCtx c m.ctx (if f.flags = 0 then x1 else x1.orFlags f.flags)

/-! ## The queue -/

/-- The x register of a command's context receives its result (R238): the oldest register that awaits one. -/
def State.vResult (s : State) (c x : Nat) (v : W64) : State :=
  let k := s.ctxAt c x
  match findAt (fun (p : Pend) => decide (p.place = .vec)) k.pends with
  | some (i, p) => s.receive c x i p v
  | none => s

/-- The context of a memory command or VFENCE goes on. -/
def State.vGrant (s : State) (c x : Nat) : State := s.setCtx c x { s.ctxAt c x with grant := some 0 }

/-- A command leaves the queue. -/
def State.vRemove (s : State) (c i : Nat) : State := s.setCore c { s.coreAt c with vq := dropNth (s.coreAt c).vq i }

/-- A command that has no pass completes: no element effect, x results 0 (R294, R316). -/
def State.vEmpty (s : State) (c : Nat) (m : VCmd) : State :=
  if (vuse m.insn).xd.isSome then s.vResult c m.ctx 0
  else if (vuse m.insn).mem || isFence m.insn then s.vGrant c m.ctx
  else s

/-- Commands without passes complete as they reach the head; `n` bounds them. -/
def State.vSettleN (s : State) (c n : Nat) : State :=
  match n with
  | 0 => s
  | k + 1 =>
    match (s.coreAt c).vq with
    | [] => s
    | m :: _ => if m.passes = 0 then ((s.vRemove c 0).vEmpty c m).vSettleN c k else s

/-- Commands without passes complete as they reach the head. -/
def State.vSettle (s : State) (c : Nat) : State := s.vSettleN c (s.coreAt c).vq.length

/-- The first command of a queue that satisfies a test, with its position. -/
def Core.vFind (k : Core) (p : VCmd → Bool) : Option (Nat × VCmd) := findAt p k.vq

/-! ## Issue (R296, R299) -/

/-- The rounding mode a command carries: CTL.RM with DYN resolved; a memory command's STATUS.RM. -/
def VUse.modeOf (u : VUse) (v1 : W64) (rm : Nat) : Nat :=
  if u.mem then rm
  else match u.ctl with
    | some c => if c / 16 % 8 = 7 then resolveMode (bitsAt v1 4 3) rm else 0
    | none => 0

/-- Draws a command reserves at issue (R299, R306): G in SR; a store counts when its base lies in a window of SR. -/
def State.vDraws (s : State) (i : Instr) (v1 : W64) (mode : Nat) : Nat :=
  let u := vuse i
  let win := bitsAt v1 32 4
  let sp := bitsAt v1 48 16
  let own := decide (sp = 0xFF ∧ bitsAt v1 36 12 = 0) || decide (sp = 0xFE ∧ bitsAt v1 36 12 = s.core)
  if u.mem then
    if ! isVload i && own && decide (1 ≤ win ∧ win ≤ 7) && decide (resolveMode (bitsAt (s.myCore.awdAt win) 5 3) mode = 6)
    then s.me.vgrant.toNat else 0
  else if mode = 6 && ! isVred i then s.me.vgrant.toNat else 0

/-- A command of the issuing context waits in the queue for its context. -/
def State.vWaiting (s : State) : Option VCmd :=
  s.myCore.vq.find? (fun m => decide (m.ctx = s.ctx) && ((vuse m.insn).mem || isFence m.insn))

/-- How a context waits for its memory command or VFENCE. -/
def State.vWait (s : State) (m : VCmd) : Out :=
  s.wait (if isFence m.insn then 15 else if m.parked.isSome then 10 else stVec)

/-- A command enters the queue, its draws reserved and its x register pending; a memory command's or VFENCE's context
waits for it. -/
def State.vEnter (s : State) (i : Instr) (v1 v2 : W64) : Out :=
  if s.myCore.vq.length ≥ 16 then s.wait 3
  else
    let u := vuse i
    let mode := u.modeOf v1 s.me.rm
    let m : VCmd := { insn := i, ctx := s.ctx, v1 := v1, v2 := v2, grant := s.me.vgrant.toNat, rm := mode,
                      base := s.me.rndctr, bound := 0, done := 0, parked := none }
    let s1 := ((s.advanceRnd (s.vDraws i v1 mode)).setCore s.core
      { (s.advanceRnd (s.vDraws i v1 mode)).coreAt s.core with vq := s.myCore.vq ++ [m] }).countOn s.core 3 1
    let s2 := match u.xd with
      | some d => s1.setMe { s1.me with pends := s1.me.pends ++ [s1.pendOf d 0 8 false .vec] }
      | none => s1
    let s3 := s2.vSettle s.core
    if u.mem || isFence i then
      (match s3.me.grant with
        | some _ => .next s3.retire
        | none => s3.vWait m)
    else .next s3.retire

/-- A vector command at issue. (Mark: DEDUCED, unsafe, log 64) -/
def State.vIssue (s : State) (i : Instr) : Out :=
  whenWf i s (onArray i s
    (let u := vuse i
     let v1 := s.rd (nth (xregs i) 0 0)
     let v2 := s.rd (nth (xregs i) 0 1)
     let go : Out := match u.absent s.myCore.nvr with
       | some r => .next (s.trap 0x0A (w64 r))
       | none => if u.valuesOk i v1 v2 then s.vEnter i v1 v2 else s.illegal (encode64 i)
     if u.mem || isFence i then
       (match s.me.grant with
         | some _ => .next s.retire
         | none => match s.vWaiting with
           | some m => s.vWait m
           | none => go)
     else go))

/-! ## Control commands (R112, R315, R317) -/

/-- VWT of the launch on a core. -/
def State.vwtOf (s : State) (c : Nat) : Nat := match s.launchOf c with
  | some l => l.vwt
  | none => 0

/-- A context of a core holds a grant. -/
def Core.granted (k : Core) : Bool := k.ctxs.any (fun p => p.2.live && decide (p.2.vgrant ≠ 0))

/-- The grant that VCLAIM gives for a request. -/
def State.vclaimGrant (s : State) (q : Nat) : Nat :=
  if q = 0 then 0
  else
    let me := s.vwtOf s.core
    let w := (upTo (octetOf s.core * 8) 8).foldl (fun acc c =>
      if c = s.core ∨ (s.coreAt c).granted then acc + s.vwtOf c else acc) 0
    min ((min q 256 + 15) / 16 * 16) (16 * max 1 (16 * me / w))

/-- VCLAIM: sets VGRANT.G and returns it. -/
def execVclaim (d : BitVec 5) (x : BitVec 4) (s : State) : Out :=
  whenWf (.vclaim d x) s (onArray (.vclaim d x) s
    (let g := s.vclaimGrant (s.rd (pairLo x)).toNat
     ((s.setMe { s.me with vgrant := BitVec.ofNat 9 g }).countOn s.core 3 1).done d (w64 g)))

/-- Lane groups bound to a core's commands. (Mark: DEDUCED, unsafe, log 65) -/
def Core.vBound (k : Core) : Nat := k.vq.foldl (fun acc m => acc + (m.bound - m.done)) 0

/-- VSTAT. (Mark: DEDUCED, unsafe, log 36) -/
def execVstat (d : BitVec 5) (x : BitVec 4) (s : State) : Out :=
  whenWf (.vstat d x) s (onArray (.vstat d x) s
    (let k := s.myCore
     (s.countOn s.core 3 1).done d (w64 (k.vq.length + 32 * b2n (k.vq.any (fun m => m.ctx == s.ctx)) + 2 ^ 8 * k.vBound
       + 2 ^ 16 * s.me.vgrant.toNat))))

/-- VFENCE. (Mark: DEDUCED, unsafe, log 36) -/
def execVfence (x : BitVec 4) (s : State) : Out := s.vIssue (.vfence x)

/-- How many entries of a list are a context's. -/
def countResv (c x : Nat) (l : List (Nat × Nat)) : Nat := (l.filter (fun r => decide (r.1 = c ∧ r.2 = x))).length

/-- Position of the last entry of a context. -/
def lastResv (c x : Nat) (l : List (Nat × Nat)) (i : Nat) (acc : Nat) : Nat :=
  match l with
  | [] => acc
  | r :: t => lastResv c x t (i + 1) (if r.1 = c ∧ r.2 = x then i else acc)

/-- VPOPQ: waits for its row in the octet's order, then enters the vector queue.
(Mark: DEDUCED, unsafe, log 36; DEDUCED, unsafe, log 67) -/
def execVpopq (d : BitVec 5) (x : BitVec 4) (s : State) : Out :=
  whenWf (.vpopq d x) s (onArray (.vpopq d x) s
    (match (vuse (.vpopq d x)).absent s.myCore.nvr with
      | some r => .next (s.trap 0x0A (w64 r))
      | none =>
        let o := s.octetAt (octetOf s.core)
        let resv := if countResv s.core s.ctx o.resv > s.myCore.pops s.ctx then o.resv else o.resv ++ [(s.core, s.ctx)]
        let s1 := s.setOctet (octetOf s.core) { o with resv := resv }
        if lastResv s.core s.ctx resv 0 0 < o.accq.length then s1.vEnter (.vpopq d x) 0 0 else s1.wait 15))

/-- The oldest reserved row of a context leaves the accumulator queue for a register. -/
def State.vPop (s : State) (c : Nat) (m : VCmd) (d : BitVec 5) : State :=
  let o := s.octetAt (octetOf c)
  match findAt (fun (r : Nat × Nat) => decide (r.1 = c ∧ r.2 = m.ctx)) o.resv with
  | some (i, _) =>
    let row := nth o.accq [] i
    let s1 := (indexed 0 (row.take 64)).foldl (fun (t : State) p => t.vPut c d 32 p.1 p.2.toNat) s
    s1.setOctet (octetOf c) { o with resv := dropNth o.resv i, accq := dropNth o.accq i }
  | none => s

/-! ## The octet arbiter (R111) -/

/-- A command may bind its next pass: earlier conflicting commands are complete (R297), and it is not parked. -/
def Core.vReady (k : Core) (i : Nat) (m : VCmd) : Bool :=
  ! (decide (m.bound = 0) && (k.vq.take i).any (fun e => e.blocks m))
    && m.parked.isNone

/-- The command of a core whose pass is bound next, if the core needs a lane group. -/
def Core.vNext (k : Core) : Option (Nat × VCmd) :=
  match k.vFind (fun m => decide (m.bound < m.passes)) with
  | some (i, m) => if k.vReady i m then some (i, m) else none
  | none => none

/-- The round pointer, the deficits, and whether a core was found. -/
abbrev Arb := Nat × Tab Nat × Bool

/-- Weighted deficit round robin: at most `n` visits. -/
def arbitrate (needs : Nat → Bool) (vwt : Nat → Nat) (n rr : Nat) (d : Tab Nat) : Arb :=
  if needs rr && decide (Tab.get d 0 rr ≠ 0) then (rr, d, true)
  else
    match n with
    | 0 => (rr, d, false)
    | k + 1 =>
      let d1 := if needs rr then d else Tab.set d rr 0
      let r := (rr + 1) % 8
      arbitrate needs vwt k r (if needs r then Tab.set d1 r (Tab.get d1 0 r + vwt r) else d1)

/-- VECTOR_PASS_BIND: a free lane group of the octet is bound to the next pass that the arbiter finds.
(Mark: DEDUCED, unsafe, log 64) -/
def execVectorPassBind (octet : BitVec 9) (s : State) : Out :=
  let o := s.octetAt octet.toNat
  let core := fun (r : Nat) => octet.toNat * 8 + r
  let busy := (upTo 0 8).foldl (fun acc r => acc + (s.coreAt (core r)).vBound) 0
  if busy ≥ 16 then .next s
  else
    let (rr, d, found) := arbitrate (fun r => ((s.coreAt (core r)).vNext).isSome) (fun r => s.vwtOf (core r)) 9 (o.rr % 8) o.deficit
    let s1 := s.setOctet octet.toNat { o with rr := rr, deficit := if found then Tab.set d rr (Tab.get d 0 rr - 1) else d }
    let k := s1.coreAt (core rr)
    match found, k.vNext with
    | true, some (i, m) =>
      .next ((s1.setCore (core rr) { k with vq := setNth k.vq i { m with bound := m.bound + 1 } }).countOn (core rr) 4 1)
    | _, _ => .next s1

/-! ## Vector memory (R305 to R307) -/

/-- Where an element lies: consecutive bytes from a key, or a view element of a window of the core's own pool. -/
inductive VEl where
  | key (k : Nat)
  | win (w off : Nat)
deriving DecidableEq, Repr

/-- The checks of a pass: every element's place, or the first that fails. -/
inductive VChk where
  | ok (l : List (Nat × VEl))
  | trap (cause : Nat) (va : W64)
  | park (cause page : Nat)
  | miss (va : W64)

/-- The address of element `i` (R305). -/
def State.vAddr (s : State) (c : Nat) (m : VCmd) (e i : Nat) : W64 :=
  match m.insn with
  | .vlds .. => m.v1 + w64 i * sext (m.v2.setWidth 48)
  | .vsts .. => m.v1 + w64 i * sext (m.v2.setWidth 48)
  | .vgath _ _ b _ => m.v1 + sext (BitVec.ofNat 32 (s.vGet c b 32 i))
  | .vscat _ _ b _ => m.v1 + sext (BitVec.ofNat 32 (s.vGet c b 32 i))
  | _ => m.v1 + w64 (i * (e / 8))

/-- The data register and the width of a memory command. -/
def vdata (i : Instr) : BitVec 5 × Nat :=
  match i with
  | .vld t d _ => (d, intWidth t.toNat)
  | .vst t d _ => (d, intWidth t.toNat)
  | .vlds t d _ => (d, intWidth t.toNat)
  | .vsts t d _ => (d, intWidth t.toNat)
  | .vgath t d _ _ => (d, intWidth t.toNat)
  | .vscat t d _ _ => (d, intWidth t.toNat)
  | _ => (0, 32)

/-- The place of an element of `nb` bytes: misalignment first, then the spaces a vector access may reach. -/
def State.vPlace (s : State) (c x : Nat) (va : W64) (nb : Nat) (wr : Bool) : VChk :=
  let sp := bitsAt va 48 8
  if va.toNat % nb ≠ 0 then .trap 0x03 va
  else if bitsAt va 56 8 ≠ 0 then .trap 0x05 va
  else if sp < 0x80 then
    match s.clientLeaf (s.tlbFind c (s.tenOf c) (bitsAt va 16 39)) c x (s.tenOf c) (s.ctxAt c x).pl va wr with
    | none => .miss va
    | some (.leaf t) => if pteVD t.pte ≠ 0 || pteS t.pte then .trap 0x05 va else .ok [(0, .key (t.pa va))]
    | some (.park cause) => .park cause (bitsAt va 16 39)
    | some (.fail cause) => .trap cause va
  else
    let r : Res :=
      if sp = 0xFD ∧ bitsAt va 40 8 = clusterOf c then s.resolve c x va nb wr false
      else if (sp = 0xFE ∧ bitsAt va 36 12 = c) ∨ (sp = 0xFF ∧ bitsAt va 36 12 = 0) then s.resolvePool c x c va nb wr
      else .trap 0x05 va
    match r with
    | .bytes (k :: _) => .ok [(0, .key k)]
    | .place (.fmt _ w off) => .ok [(0, .win w off)]
    | .trap cause _ => .trap cause va
    | _ => .trap 0x05 va

/-- The checks of a pass's elements, in ascending order. (Mark: DEDUCED, unsafe, log 65) -/
def State.vChecks (s : State) (c : Nat) (m : VCmd) (els : List Nat) (acc : List (Nat × VEl)) : VChk :=
  match els with
  | [] => .ok acc
  | i :: r =>
    let e := (vdata m.insn).2
    match s.vPlace c m.ctx (s.vAddr c m e i) (e / 8) (! isVload m.insn) with
    | .ok l => s.vChecks c m r (acc ++ l.map (fun p => (i, p.2)))
    | o => o

/-- The elements of a pass that are on. (Mark: DEDUCED, unsafe, log 65) -/
def State.vOn (s : State) (c : Nat) (m : VCmd) (k : Nat) : List Nat :=
  (upTo (16 * k) 16).filter (fun i => ((s.ctxAt c m.ctx).krd m.ksel).getLsbD i)

/-- Keys of an element's bytes. -/
def State.vKeys (s : State) (c nb : Nat) (p : VEl) : List Nat :=
  match p with
  | .key k => upTo k nb
  | .win w off => s.fmtKeys c w off nb

/-- The tiles an element's access reaches are claimed. -/
def State.vClaim (s : State) (c nb : Nat) (p : VEl) : State :=
  match p with
  | .key k => s.claimKeys (upTo k nb)
  | .win w off => s.claimFmt c w off nb

/-- One element of a load. -/
def State.vLoad (s : State) (c : Nat) (m : VCmd) (i : Nat) (p : VEl) : State :=
  let (d, e) := vdata m.insn
  match p with
  | .key k => s.vPut c d e i (ofLeBytes ((upTo k (e / 8)).map (s.seen c)))
  | .win w off =>
    let (v, f) := s.fmtValue c w off 4
    let t := s.vPut c d e i v
    if f = 0 then t else t.setCtx c m.ctx ((t.ctxAt c m.ctx).orFlags f)

/-- One element of a store: accepted at its place, not through the store queue. (Mark: DEDUCED, unsafe, log 66) -/
def State.vStore (s : State) (c : Nat) (m : VCmd) (i : Nat) (p : VEl) : State :=
  let (d, e) := vdata m.insn
  let v := s.vGet c d e i
  match p with
  | .key k => s.perform c { key := k, bytes := leBytes (e / 8) v, hbm := isHbm k }
  | .win w off =>
    let mode := resolveMode (bitsAt ((s.coreAt c).awdAt w) 5 3) m.rm
    let draw := if mode = 6 then srDraw (s.jobseedOf c) (w64 (s.lcoreOf c)) (m.base + w64 i) else 0
    let (t, f) := s.fmtWrite c w (off / 4) mode [v] [draw]
    if f = 0 then t else t.setCtx c m.ctx ((t.ctxAt c m.ctx).orFlags f)

/-- A claim of an element's tiles must wait. -/
def State.vClaimWaits (s : State) (c nb : Nat) (p : VEl) : Bool :=
  match p with
  | .key k => s.keysWait (upTo k nb)
  | .win w off => (s.fmtKeys c w off nb).any (fun k => s.keysWait [k])

/-- The next pass of a memory command reaches memory, its earlier scalar stores drained. (Mark: DEDUCED, unsafe, log 64) -/
def State.vPass (s : State) (c i : Nat) (m : VCmd) : State :=
  let els := s.vOn c m m.done
  let nb := (vdata m.insn).2 / 8
  let x := s.ctxAt c m.ctx
  match s.vChecks c m els [] with
  | .miss va => s.engMiss c m.ctx (s.tenOf c) x.pl va (! isVload m.insn)
  | .trap cause va =>
    let s1 := (s.engSettled c m.ctx (s.tenOf c)).vRemove c i
    (s1.setCtx c m.ctx { s1.ctxAt c m.ctx with due := x.due ++ [(BitVec.ofNat 8 cause, va, x.pc)], stall := 0 }).vSettle c
  | .park cause page =>
    let s1 := s.engSettled c m.ctx (s.tenOf c)
    let bits := accBits (isVload m.insn) (! isVload m.insn) false false false
    let va := match els with
      | e :: _ => s.vAddr c m (vdata m.insn).2 e
      | [] => m.v1
    let p : Parked := { ten := s.tenOf c, page := page, bits := bits, va := va }
    let k := s1.coreAt c
    let s2 := (s1.setCore c { k with vq := setNth k.vq i { m with parked := some p } }).countOn c 7 1
    (s2.setCtx c m.ctx { s2.ctxAt c m.ctx with stall := 10 }).fqFault (s.tenOf c)
      (newFault (w64 (page * 65536)) cause c (s.ctxidOf c) bits)
  | .ok l =>
    if l.any (fun p => s.vClaimWaits c nb p.2 || s.unread x.pends (s.vKeys c nb p.2)) then s
    else
      let s2 := l.foldl (fun (t : State) p => t.vClaim c nb p.2) (s.drainQueue c m.ctx)
      if isVload m.insn && ! s2.poison.isEmpty && l.any (fun p => (s2.vKeys c nb p.2).any (s2.taintedAt c m.ctx)) then
        s2.consumePoison c m.ctx m.v1 1
      else
        let s3 := l.foldl (fun (t : State) p => if isVload m.insn then t.vLoad c m p.1 p.2 else t.vStore c m p.1 p.2) s2
        let k := s3.coreAt c
        if m.done + 1 < m.passes then s3.setCore c { k with vq := setNth k.vq i { m with done := m.done + 1 } }
        else ((s3.vRemove c i).vGrant c m.ctx).vSettle c

/-- The pool tiles of the vector registers a command names. -/
def Core.vTiles (k : Core) (m : VCmd) : List Nat :=
  ((vuse m.insn).rd ++ (vuse m.insn).wr).map (fun r => 254 - k.nvr + r.toNat)

/-- VECTOR_PASS_COMPLETE: a pass releases its lane group; the command's effect stands with its last pass.
(Mark: DEDUCED, unsafe, log 64) -/
def execVectorPassComplete (core : Nat) (s : State) : Out :=
  let k := s.coreAt core
  match k.vFind (fun m => decide (m.done < m.bound) && m.parked.isNone) with
  | none => .next s
  | some (i, m) =>
    if (k.vTiles m).any (fun t => s.claimWaits core (t * 1024) 1024) then .next s
    else
      let s1 := (k.vTiles m).foldl (fun (t : State) n => t.claimTile core n) s
      if (vuse m.insn).mem then .next (s1.vPass core i m)
      else if m.done + 1 < m.passes then
        .next (s1.setCore core { s1.coreAt core with vq := setNth (s1.coreAt core).vq i { m with done := m.done + 1 } })
      else
        match m.insn with
        | .vpopq d _ => .next (((s1.vRemove core i).vPop core m d).vSettle core)
        | _ =>
          let f := s1.veff core m
          let s2 := (s1.vRemove core i).vApply core m f
          let s3 := match f.x with
            | some v => s2.vResult core m.ctx v
            | none => s2
          .next (s3.vSettle core)

/-! ## The commands of majors 0x20 to 0x26 -/

/-- VADD_F. -/
def execVaddF (t : BitVec 3) (d : BitVec 5) (a : BitVec 5) (b : BitVec 5) (x : BitVec 4) (s : State) : Out :=
  s.vIssue (.vaddF t d a b x)
/-- VSUB_F. -/
def execVsubF (t : BitVec 3) (d : BitVec 5) (a : BitVec 5) (b : BitVec 5) (x : BitVec 4) (s : State) : Out :=
  s.vIssue (.vsubF t d a b x)
/-- VMUL_F. -/
def execVmulF (t : BitVec 3) (d : BitVec 5) (a : BitVec 5) (b : BitVec 5) (x : BitVec 4) (s : State) : Out :=
  s.vIssue (.vmulF t d a b x)
/-- VFMA. -/
def execVfma (t : BitVec 3) (d : BitVec 5) (a : BitVec 5) (b : BitVec 5) (x : BitVec 4) (s : State) : Out :=
  s.vIssue (.vfma t d a b x)
/-- VMIN_F. -/
def execVminF (t : BitVec 3) (d : BitVec 5) (a : BitVec 5) (b : BitVec 5) (x : BitVec 4) (s : State) : Out :=
  s.vIssue (.vminF t d a b x)
/-- VMAX_F. -/
def execVmaxF (t : BitVec 3) (d : BitVec 5) (a : BitVec 5) (b : BitVec 5) (x : BitVec 4) (s : State) : Out :=
  s.vIssue (.vmaxF t d a b x)
/-- VDIV. -/
def execVdiv (t : BitVec 3) (d : BitVec 5) (a : BitVec 5) (b : BitVec 5) (x : BitVec 4) (s : State) : Out :=
  s.vIssue (.vdiv t d a b x)
/-- VSQRT. -/
def execVsqrt (t : BitVec 3) (d : BitVec 5) (a : BitVec 5) (x : BitVec 4) (s : State) : Out :=
  s.vIssue (.vsqrt t d a x)
/-- VABS_F. -/
def execVabsF (t : BitVec 3) (d : BitVec 5) (a : BitVec 5) (x : BitVec 4) (s : State) : Out :=
  s.vIssue (.vabsF t d a x)
/-- VADD_I. -/
def execVaddI (t : BitVec 3) (d : BitVec 5) (a : BitVec 5) (b : BitVec 5) (x : BitVec 4) (s : State) : Out :=
  s.vIssue (.vaddI t d a b x)
/-- VSUB_I. -/
def execVsubI (t : BitVec 3) (d : BitVec 5) (a : BitVec 5) (b : BitVec 5) (x : BitVec 4) (s : State) : Out :=
  s.vIssue (.vsubI t d a b x)
/-- VMUL_I. -/
def execVmulI (t : BitVec 3) (d : BitVec 5) (a : BitVec 5) (b : BitVec 5) (x : BitVec 4) (s : State) : Out :=
  s.vIssue (.vmulI t d a b x)
/-- VMULH. -/
def execVmulh (t : BitVec 3) (d : BitVec 5) (a : BitVec 5) (b : BitVec 5) (x : BitVec 4) (s : State) : Out :=
  s.vIssue (.vmulh t d a b x)
/-- VMIN_I. -/
def execVminI (t : BitVec 3) (d : BitVec 5) (a : BitVec 5) (b : BitVec 5) (x : BitVec 4) (s : State) : Out :=
  s.vIssue (.vminI t d a b x)
/-- VMAX_I. -/
def execVmaxI (t : BitVec 3) (d : BitVec 5) (a : BitVec 5) (b : BitVec 5) (x : BitVec 4) (s : State) : Out :=
  s.vIssue (.vmaxI t d a b x)
/-- VABS_I. -/
def execVabsI (t : BitVec 3) (d : BitVec 5) (a : BitVec 5) (x : BitVec 4) (s : State) : Out :=
  s.vIssue (.vabsI t d a x)
/-- VAND. -/
def execVand (t : BitVec 3) (d : BitVec 5) (a : BitVec 5) (b : BitVec 5) (x : BitVec 4) (s : State) : Out :=
  s.vIssue (.vand t d a b x)
/-- VOR. -/
def execVor (t : BitVec 3) (d : BitVec 5) (a : BitVec 5) (b : BitVec 5) (x : BitVec 4) (s : State) : Out :=
  s.vIssue (.vor t d a b x)
/-- VXOR. -/
def execVxor (t : BitVec 3) (d : BitVec 5) (a : BitVec 5) (b : BitVec 5) (x : BitVec 4) (s : State) : Out :=
  s.vIssue (.vxor t d a b x)
/-- VSHL. -/
def execVshl (t : BitVec 3) (d : BitVec 5) (a : BitVec 5) (b : BitVec 5) (x : BitVec 4) (s : State) : Out :=
  s.vIssue (.vshl t d a b x)
/-- VSHR. -/
def execVshr (t : BitVec 3) (d : BitVec 5) (a : BitVec 5) (b : BitVec 5) (x : BitVec 4) (s : State) : Out :=
  s.vIssue (.vshr t d a b x)
/-- VSHRA. -/
def execVshra (t : BitVec 3) (d : BitVec 5) (a : BitVec 5) (b : BitVec 5) (x : BitVec 4) (s : State) : Out :=
  s.vIssue (.vshra t d a b x)
/-- VCMPEQ. -/
def execVcmpeq (t : BitVec 3) (c : BitVec 1) (k : BitVec 3) (a : BitVec 5) (b : BitVec 5) (x : BitVec 4) (s : State) : Out :=
  s.vIssue (.vcmpeq t c k a b x)
/-- VCMPNE. -/
def execVcmpne (t : BitVec 3) (c : BitVec 1) (k : BitVec 3) (a : BitVec 5) (b : BitVec 5) (x : BitVec 4) (s : State) : Out :=
  s.vIssue (.vcmpne t c k a b x)
/-- VCMPLT. -/
def execVcmplt (t : BitVec 3) (c : BitVec 1) (k : BitVec 3) (a : BitVec 5) (b : BitVec 5) (x : BitVec 4) (s : State) : Out :=
  s.vIssue (.vcmplt t c k a b x)
/-- VCMPLE. -/
def execVcmple (t : BitVec 3) (c : BitVec 1) (k : BitVec 3) (a : BitVec 5) (b : BitVec 5) (x : BitVec 4) (s : State) : Out :=
  s.vIssue (.vcmple t c k a b x)
/-- VSEL. -/
def execVsel (t : BitVec 3) (d : BitVec 5) (a : BitVec 5) (b : BitVec 5) (x : BitVec 4) (s : State) : Out :=
  s.vIssue (.vsel t d a b x)
/-- KAND. -/
def execKand (d : BitVec 3) (a : BitVec 3) (b : BitVec 3) (x : BitVec 4) (s : State) : Out :=
  s.vIssue (.kand d a b x)
/-- KOR. -/
def execKor (d : BitVec 3) (a : BitVec 3) (b : BitVec 3) (x : BitVec 4) (s : State) : Out :=
  s.vIssue (.kor d a b x)
/-- KXOR. -/
def execKxor (d : BitVec 3) (a : BitVec 3) (b : BitVec 3) (x : BitVec 4) (s : State) : Out :=
  s.vIssue (.kxor d a b x)
/-- KNOT. -/
def execKnot (d : BitVec 3) (a : BitVec 3) (x : BitVec 4) (s : State) : Out :=
  s.vIssue (.knot d a x)
/-- KPOPC. -/
def execKpopc (d : BitVec 5) (a : BitVec 3) (x : BitVec 4) (s : State) : Out :=
  s.vIssue (.kpopc d a x)
/-- VLD. -/
def execVld (t : BitVec 3) (d : BitVec 5) (x : BitVec 4) (s : State) : Out :=
  s.vIssue (.vld t d x)
/-- VST. -/
def execVst (t : BitVec 3) (d : BitVec 5) (x : BitVec 4) (s : State) : Out :=
  s.vIssue (.vst t d x)
/-- VLDS. -/
def execVlds (t : BitVec 3) (d : BitVec 5) (x : BitVec 4) (s : State) : Out :=
  s.vIssue (.vlds t d x)
/-- VSTS. -/
def execVsts (t : BitVec 3) (d : BitVec 5) (x : BitVec 4) (s : State) : Out :=
  s.vIssue (.vsts t d x)
/-- VGATH. -/
def execVgath (t : BitVec 3) (d : BitVec 5) (b : BitVec 5) (x : BitVec 4) (s : State) : Out :=
  s.vIssue (.vgath t d b x)
/-- VSCAT. -/
def execVscat (t : BitVec 3) (d : BitVec 5) (b : BitVec 5) (x : BitVec 4) (s : State) : Out :=
  s.vIssue (.vscat t d b x)
/-- VBCAST. -/
def execVbcast (t : BitVec 3) (d : BitVec 5) (x : BitVec 4) (s : State) : Out :=
  s.vIssue (.vbcast t d x)
/-- VPERM. -/
def execVperm (t : BitVec 3) (d : BitVec 5) (a : BitVec 5) (b : BitVec 5) (x : BitVec 4) (s : State) : Out :=
  s.vIssue (.vperm t d a b x)
/-- VSLIDE. -/
def execVslide (t : BitVec 3) (d : BitVec 5) (a : BitVec 5) (x : BitVec 4) (s : State) : Out :=
  s.vIssue (.vslide t d a x)
/-- VRED. -/
def execVred (t : BitVec 3) (d : BitVec 5) (a : BitVec 5) (c : BitVec 1) (o : BitVec 2) (x : BitVec 4) (s : State) : Out :=
  s.vIssue (.vred t d a c o x)
/-- VMOVX. -/
def execVmovx (t : BitVec 3) (d : BitVec 5) (a : BitVec 5) (x : BitVec 4) (s : State) : Out :=
  s.vIssue (.vmovx t d a x)
/-- VIDX. -/
def execVidx (t : BitVec 3) (d : BitVec 5) (x : BitVec 4) (s : State) : Out :=
  s.vIssue (.vidx t d x)
/-- VCVT. -/
def execVcvt (t : BitVec 3) (d : BitVec 5) (a : BitVec 5) (j : BitVec 1) (i : BitVec 1) (sr : BitVec 3) (x : BitVec 4) (s : State) : Out :=
  s.vIssue (.vcvt t d a j i sr x)
/-- VQNT. -/
def execVqnt (t : BitVec 3) (d : BitVec 5) (a : BitVec 5) (b : BitVec 5) (x : BitVec 4) (s : State) : Out :=
  s.vIssue (.vqnt t d a b x)
/-- VDQNT. -/
def execVdqnt (t : BitVec 3) (d : BitVec 5) (a : BitVec 5) (b : BitVec 5) (x : BitVec 4) (s : State) : Out :=
  s.vIssue (.vdqnt t d a b x)
/-- VSFU. -/
def execVsfu (t : BitVec 3) (d : BitVec 5) (a : BitVec 5) (f : BitVec 4) (x : BitVec 4) (s : State) : Out :=
  s.vIssue (.vsfu t d a f x)

end Sys2Proof.Machine
end

