-- ==== Sys2Proof/Machine/Ring.lean ====
section
/-! DEFINITION. Owner bits and rings (07 R124 to R126; 08 R163; 17 R319 to R323, R342): flips by threads and by engines,
the advance of an engine side, the view an engine command has of its thread's pool, and major 0x1C. -/

namespace Sys2Proof.Machine

open Sys2Proof

/-! ## Slots and the advance of an engine side (R322) -/

/-- Tiles of slot `i` of a ring. -/
def Ring.slotTiles (r : Ring) (i : Nat) : List Nat := upTo (r.base + i * r.slott) r.slott
/-- Tiles of `n` slots from slot `i`. -/
def Ring.slotsTiles (r : Ring) (i n : Nat) : List Nat := (upTo 0 n).flatMap (fun j => r.slotTiles ((i + j) % r.nslot))

/-- Every tile of a list is T. -/
def Core.allT (k : Core) (l : List Nat) : Bool := l.all (fun t => ! k.tileE t)
/-- Every tile of a list is E and lies in the scratchpad or the landing area. -/
def Core.engineOk (k : Core) (l : List Nat) : Bool := l.all (fun t => k.tileE t && decide (t < k.windowTiles))

/-- An engine side advances over the slots it has finished; `n` bounds them. -/
def Ring.advance (k : Core) (r : Ring) (n : Nat) : Ring :=
  match n with
  | 0 => r
  | m + 1 =>
    if r.slott = 0 || r.peer then r
    else if r.pside && decide (r.fill < r.nslot) && k.allT (r.slotTiles r.prod) then
      Ring.advance k { r with prod := (r.prod + 1) % r.nslot, fill := r.fill + 1 } m
    else if r.cside && decide (0 < r.fill) && k.allT (r.slotTiles r.cons) then
      Ring.advance k { r with cons := (r.cons + 1) % r.nslot, fill := r.fill - 1 } m
    else r

/-- An engine flips tiles to T at its completion: faulted marks clear, and its rings advance. -/
def Core.engineFlip (k : Core) (l : List Nat) : Core :=
  let k1 := k.tilesT l
  let k2 : Core := { k1 with badTiles := k1.badTiles.filter (fun t => ! l.contains t) }
  { k2 with rings := Tab.mapV k2.rings (fun _ r => r.advance k2 r.nslot) }

/-! ## The pool of a thread as its engine commands see it -/

/-- The core as a thread holds it, or as it was when the thread was suspended on it; none where it is neither. -/
def Core.view (k : Core) (o : Nat × W32 × Nat) : Option Core :=
  if k.thread = some o then some k
  else match k.slotOf o.1 o.2.1 o.2.2 with
    | none => none
    | some n => (Tab.find k.slots n).map (fun z =>
      { k with partw := z.partw, rings := z.rings, eTiles := z.eTiles, badTiles := z.badTiles, awd := z.awd })

/-- Put back rings, owner bits and marks of a view. -/
def Core.putView (k : Core) (o : Nat × W32 × Nat) (v : Core) : Core :=
  if k.thread = some o then { k with rings := v.rings, eTiles := v.eTiles, badTiles := v.badTiles }
  else match k.slotOf o.1 o.2.1 o.2.2 with
    | none => k
    | some n => match Tab.find k.slots n with
      | none => k
      | some z => { k with slots := Tab.set k.slots n { z with rings := v.rings, eTiles := v.eTiles, badTiles := v.badTiles } }

/-- An engine's flip to T on a core, for the thread of its command. (Mark: DEDUCED, unsafe, log 72) -/
def State.engineFlip (s : State) (c : Nat) (o : Nat × W32 × Nat) (l : List Nat) : State :=
  match (s.coreAt c).view o with
  | none => s
  | some v => s.setCore c ((s.coreAt c).putView o (v.engineFlip l))

/-- The engine claims a tile for the thread of its command (09 R186); none while another thread's command targets it. -/
def State.engineClaim (s : State) (c : Nat) (o : Nat × W32 × Nat) (t : Nat) : Option State :=
  let k := s.coreAt c
  if k.thread = some o then
    if s.claimWaits c (t * 1024) 1024 then none else some (s.claimTile c t)
  else match k.slotOf o.1 o.2.1 o.2.2 with
    | none => none
    | some n => match Tab.get k.holders .free t with
      | .slot m => if m = n then some s else none
      | .running => none
      | .free =>
        let s1 := s.zero (poolKey c (t * 1024)) 1024
        let s2 := s1.setCore c { s1.coreAt c with holders := Tab.set (s1.coreAt c).holders t (.slot n) }
        some (s2.updLaunch o.1 o.2.1 (fun m => match Tab.find m.saved o.2.2 with
          | some z => { m with saved := Tab.set m.saved o.2.2 { z with tiles := z.tiles ++ [t] } }
          | none => m))

/-- The engine claims tiles. -/
def State.engineClaims (s : State) (c : Nat) (o : Nat × W32 × Nat) (l : List Nat) : Option State :=
  match l with
  | [] => some s
  | t :: r => match s.engineClaim c o t with
    | some u => u.engineClaims c o r
    | none => none

/-! ## Flips by threads (08 R163; 07 R125) -/

/-- The store queues of a core that hold a store to tiles of its pool drain: a committed store of its own is never refused
by a later flip. (Mark: DEDUCED, unsafe, log 72) -/
def State.drainTo (s : State) (c : Nat) (l : List Nat) : State :=
  let hits := fun (e : StoreEnt) => match poolOf e.key with
    | some (d, o) => decide (d = c) && (tilesOf o e.bytes.length).any l.contains
    | none => false
  (s.coreAt c).ctxs.foldl (fun (v : State) (q : Nat × Ctx) => if q.2.storeq.any hits then v.drainQueue c q.1 else v) s

/-- Tiles flip from T to E. (Mark: DEDUCED, unsafe, log 72) -/
def State.flipE (s : State) (c : Nat) (l : List Nat) : State :=
  let s1 := s.drainTo c l
  s1.setCore c ((s1.coreAt c).tilesE l)

/-- A flip waits, with stall reason 11, until every earlier access of the context is performed at module scope.
(Mark: DEDUCED, unsafe, log 72) -/
def State.beforeFlip (s : State) (k : State → Out) : Out :=
  if s.me.outstanding ≠ 0 ∨ ! s.me.amodReply.isEmpty ∨ s.sending s.core s.ctx false then s.wait 11 else k (s.performModule s.core s.ctx)

/-! ## The instructions -/

/-- Descriptor `h` of a core. -/
def Core.ringAt (k : Core) (h : Nat) : Ring := Tab.get k.rings Ring.reset h

/-- Replace a descriptor. -/
def State.setRing (s : State) (c h : Nat) (r : Ring) : State :=
  s.setCore c { s.coreAt c with rings := Tab.set (s.coreAt c).rings h r }

/-- RING_STATE (R323). -/
def State.ringTrap (s : State) (why h : Nat) : Out := .next (s.trap 0x0C (w64 (why + 256 * h)))

/-- The ring a handle leads to, a view looked up at its partner (R342): the core that holds it, or a WHY. -/
def State.ringRef (s : State) (c h : Nat) : Except Nat (Nat × Ring) :=
  let r := (s.coreAt c).ringAt h
  if r.peer then
    let q := (s.coreAt (partnerOf c)).ringAt h
    if q.slott = 0 || q.peer then .error 5 else .ok (partnerOf c, q)
  else if r.slott = 0 then .error 1
  else .ok (c, r)

/-- An instruction that uses a ring with a count. -/
def State.withRing (s : State) (h : BitVec 4) (n : BitVec 5) (k : Nat → Ring → Out) : Out :=
  match s.ringRef s.core h.toNat with
  | .error why => s.ringTrap why h.toNat
  | .ok (c, r) => if n.toNat > r.nslot then s.ringTrap 2 h.toNat else k c r

/-- An instruction is an MMA on a handle. -/
def mmaNames (h : BitVec 4) (i : Instr) : Bool := match i with
  | .mma g _ _ _ _ _ => g == h
  | _ => false

/-- A queued or running matrix command of a core names a handle. -/
def State.ringNamed (s : State) (c : Nat) (h : BitVec 4) : Bool :=
  (s.coreAt c).mqueue.any (fun m => mmaNames h m.insn)
    || (match (s.clusterAt (clusterOf c)).run with
      | some r => decide (r.cmd.core = c) && mmaNames h r.cmd.insn
      | none => false)

/-- What is wrong with an HDEF image: a WHY, or 0. (Mark: DEDUCED, unsafe, log 73) -/
def hdefWhy (v : W64) (scratch : Nat) : Nat :=
  let r := Ring.ofW64 v
  if bitsAt v 13 3 ≠ 0 ∨ bitsAt v 24 25 ≠ 0 ∨ bitsAt v 52 12 ≠ 0 then 4
  else if r.peer then (if v = w64 (2 ^ 51) then 0 else 4)
  else if r.slott = 0 then 0
  else if r.nslot = 0 ∨ r.base + r.nslot * r.slott > scratch then 4
  else if r.pside && r.cside then 9
  else 0

/-- HDEF (R320). (Mark: DEDUCED, unsafe, log 73) -/
def execHdef (h : BitVec 4) (a : BitVec 5) (s : State) : Out :=
  whenWf (.hdef h a) s (onArray (.hdef h a) s
    (let v := s.rd a
     let r := Ring.ofW64 v
     let why := hdefWhy v s.myCore.scratch
     if why ≠ 0 then s.ringTrap why h.toNat
     else if s.ringNamed s.core h then s.wait 15
     else s.beforeFlip (fun t =>
       let tiles := if r.slott = 0 || r.peer then [] else upTo r.base (r.nslot * r.slott)
       if tiles.any (fun i => t.slotHeld t.core (i * 1024) 1024) then
         (if tiles.any (fun i => t.claimWaits t.core (i * 1024) 1024) then t
          else tiles.foldl (fun (u : State) i => u.makeRoom u.core (i * 1024) 1024) t).wait 14
       else
         let t1 := tiles.foldl (fun (u : State) i => u.claimTile u.core i) t
         let t2 := if r.pside then t1.flipE t1.core tiles else t1.setMyCore (t1.myCore.tilesT tiles)
         .next (t2.setRing t2.core h.toNat r).retire)))

/-- HWAIT: until FILL is at least n. -/
def execHwait (h : BitVec 4) (n : BitVec 5) (s : State) : Out :=
  whenWf (.hwait h n) s (onArray (.hwait h n) s
    (s.withRing h n (fun _ r => if n.toNat ≤ r.fill then .next s.retire else s.wait 4)))

/-- HWAIT.P: until at least n slots are free. -/
def execHwaitP (h : BitVec 4) (n : BitVec 5) (s : State) : Out :=
  whenWf (.hwaitP h n) s (onArray (.hwaitP h n) s
    (s.withRing h n (fun _ r => if n.toNat ≤ r.nslot - r.fill then .next s.retire else s.wait 5)))

/-- HWAIT.T: until n tiles are all T. -/
def execHwaitT (n a : BitVec 5) (s : State) : Out :=
  whenWf (.hwaitT n a) s (onArray (.hwaitT n a) s
    (let t := bitsAt (s.rd a) 0 8
     if t + n.toNat > s.myCore.windowTiles then s.ringTrap 7 0
     else if s.myCore.allT (upTo t n.toNat) then .next s.retire else s.wait 4))

/-- ADVP (R321). -/
def execAdvp (h : BitVec 4) (n : BitVec 5) (s : State) : Out :=
  whenWf (.advp h n) s (onArray (.advp h n) s
    (s.withRing h n (fun c r =>
      if r.pside then s.ringTrap 3 h.toNat
      else if r.nslot - r.fill < n.toNat then s.wait 5
      else s.beforeFlip (fun t =>
        let t1 := if r.cside then t.flipE c (r.slotsTiles r.prod n.toNat) else t
        .next (t1.setRing c h.toNat { r with prod := (r.prod + n.toNat) % r.nslot, fill := r.fill + n.toNat }).retire))))

/-- ADVC (R321). -/
def execAdvc (h : BitVec 4) (n : BitVec 5) (s : State) : Out :=
  whenWf (.advc h n) s (onArray (.advc h n) s
    (s.withRing h n (fun c r =>
      if r.cside then s.ringTrap 3 h.toNat
      else if r.fill < n.toNat then s.wait 4
      else s.beforeFlip (fun t =>
        let t1 := if r.pside then t.flipE c (r.slotsTiles r.cons n.toNat) else t
        .next (t1.setRing c h.toNat { r with cons := (r.cons + n.toNat) % r.nslot, fill := r.fill - n.toNat }).retire))))

/-- ADVC.L (R322): landing tiles go back to the engine. -/
def execAdvcL (n a : BitVec 5) (s : State) : Out :=
  whenWf (.advcL n a) s (onArray (.advcL n a) s
    (let t := bitsAt (s.rd a) 0 8
     let tiles := upTo t n.toNat
     if t < s.myCore.scratch ∨ t + n.toNat > s.myCore.windowTiles then s.ringTrap 7 0
     else if ! s.myCore.allT tiles then s.ringTrap 8 0
     else s.beforeFlip (fun u => .next (u.flipE u.core tiles).retire)))

/-- HSTAT: the descriptor as it stands; a view shows its partner's pointers. -/
def execHstat (h : BitVec 4) (a : BitVec 5) (s : State) : Out :=
  whenWf (.hstat h a) s (onArray (.hstat h a) s
    (let r := s.myCore.ringAt h.toNat
     let q := (s.coreAt (partnerOf s.core)).ringAt h.toNat
     s.done a (if r.peer then { r with prod := q.prod, cons := q.cons, fill := q.fill } else r).toW64))

end Sys2Proof.Machine
end

