-- ==== Sys2Proof/Machine/Matrix.lean ====
section
/-! DEFINITION. The matrix engine (17 R324 to R333; 11 R227; 09 R187, R190, R191): weight streams, accumulator banks with
their eviction and reload, the command queues, and major 0x1E. The engine takes one command at a time. -/

namespace Sys2Proof.Machine

open Sys2Proof

/-! ## Weight streams (R324) -/

/-- One block record: its 64 bytes, its length, and the rest; none where it is malformed or shorter than `least`. -/
def blockRecord (l : List Byte) (least : Nat) : Option (List Byte × List Byte) :=
  match l with
  | h :: p :: r =>
    let pad := p.toNat
    if h = 0 then
      if (p :: r).length < 64 ∨ 65 < least then none else some ((p :: r).take 64, (p :: r).drop 64)
    else if h = 1 then
      let m := BitVec.ofNat 64 (ofLeBytes (r.take 8))
      let n := popCount m
      let vals := (r.drop 8).take n
      let zs := (r.drop (8 + n)).take pad
      if r.length < 8 + n + pad ∨ 10 + n + pad < least ∨ zs.any (fun b => b != 0) then none
      else some ((upTo 0 64).map (fun i => if m.getLsbD i then nth vals 0 (popCount (m &&& BitVec.ofNat 64 (2 ^ i - 1))) else 0),
                 r.drop (8 + n + pad))
    else if h = 2 then
      if r.length < pad ∨ 2 + pad < least ∨ (r.take pad).any (fun b => b != 0) then none
      else some (List.replicate 64 0, r.drop pad)
    else none
  | _ => none

/-- `n` block records: the expanded bytes and what follows them. -/
def blockRecords (l : List Byte) (least n : Nat) : Option (List Byte × List Byte) :=
  match n with
  | 0 => some ([], l)
  | k + 1 => match blockRecord l least with
    | none => none
    | some (b, r) => match blockRecords r least k with
      | none => none
      | some (bs, r') => some (b ++ bs, r')

/-- Bits of an element of an operand type. -/
def operandBits (t : Nat) : Nat := if t ≤ 2 then 16 else if t ≤ 4 then 8 else 4
/-- K of an operand type. -/
def operandK (t : Nat) : Nat := 1536 / operandBits t
/-- A number rounded up to a multiple of 64. -/
def up64 (n : Nat) : Nat := (n + 63) / 64 * 64

/-- A weight stream taken apart: type, declared ceiling, scales, records with their padding, expanded operand. -/
structure Stream where
  type : Nat
  ceild : Nat
  scales : List Byte
  records : List Byte
  data : List Byte
deriving DecidableEq, Repr

/-- SLEN of a header: a multiple of 64; none where no stream is that long. -/
def streamLen (h : List Byte) : Option Nat :=
  let n := recNat h 0 4
  if n < 64 ∨ n % 64 ≠ 0 ∨ n > 65536 then none else some n

/-- Take a stream apart; none where a rule of R324 is broken. -/
def parseStream (l : List Byte) : Option Stream :=
  let t := recNat l 5 1
  let scl := recNat l 6 1
  let ceild := recNat l 4 1
  if ((l.drop 7).take 57).any (fun b => b != 0) ∨ t < 1 ∨ 6 < t ∨ scl ≠ (if 3 ≤ t then 1 else 0) ∨ ceild > 3
      ∨ recNat l 0 4 ≠ l.length then none
  else
    let ns := if scl = 1 then 64 * (operandK t / 32) else 0
    let scales := (l.drop 64).take ns
    let recs := l.drop (64 + up64 ns)
    if ((l.drop (64 + ns)).take (up64 ns - ns)).any (fun b => b != 0) then none
    else match blockRecords recs (64 / 2 ^ ceild) 192 with
      | none => none
      | some (d, r) =>
        if r.any (fun b => b != 0) ∨ up64 (recs.length - r.length) ≠ recs.length then none
        else some { type := t, ceild := ceild, scales := scales, records := recs, data := d }

/-- The leaf's LAYOUT is 1, for every page of a stream. -/
def State.streamRuns (s : State) (q : EngWho) (va : W64) (n fuel : Nat) : Except GErr (List (Nat × Nat)) :=
  match fuel with
  | 0 => .ok []
  | k + 1 =>
    if n = 0 then .ok []
    else
      let m := min n (65536 - va.toNat % 65536)
      if (bitsAt va 56 8 ≠ 0 ∧ bitsAt va 56 8 ≠ 0x40 + s.modid) ∨ bitsAt va 48 8 ≥ 0x80 then .error (.trap 0x05 va)
      else match s.engLeaf q va false with
        | none => .error (.miss va false)
        | some (.park c) => .error (.park c va false)
        | some (.fail c) => .error (.trap c va)
        | some (.leaf t) =>
          if pteVD t.pte ≠ 0 || pteS t.pte then .error (.trap 0x05 va)
          else if pteLayout t.pte ≠ 1 then .error (.trap 0x0E va)
          else match s.streamRuns q (va + w64 m) (n - m) k with
            | .error e => .error e
            | .ok r => .ok ((t.pa va, m) :: r)

/-- An engine reads bytes of a stream. -/
def State.streamRead (s : State) (q : EngWho) (va : W64) (n : Nat) : Except GErr (List Byte) :=
  match s.streamRuns q va n (n / 65536 + 2) with
  | .error e => .error e
  | .ok l => if l.any (fun r => s.poisoned r.1 r.2) then .error (.poison va)
    else .ok (l.flatMap (fun r => (upTo r.1 r.2).map (s.engByte q)))

/-- An engine reads a whole stream; a malformed one is the engine's own failure. -/
def State.readStream (s : State) (q : EngWho) (va : W64) : Except GErr (List Byte × Stream) :=
  match s.streamRead q va 64 with
  | .error e => .error e
  | .ok h => match streamLen h with
    | none => .error (.trap 0x0E va)
    | some n => match s.streamRead q (va + 64) (n - 64) with
      | .error e => .error e
      | .ok r => match parseStream (h ++ r) with
        | none => .error (.trap 0x0E va)
        | some st => .ok (h ++ r, st)

/-! ## Operands and sums (R227, R326) -/

/-- A value times its block scale; 0xFF makes it NaN (11 R225). -/
def scaledBy (v : Num) (sc : Nat) : Num := if sc = 0xFF then .nan false 1 1 else v.scale ((sc : Int) - 127)

/-- Row (or column) `i` of an operand: K values with their scales, and the flags of IQ4 decoding. -/
def operandRow (t : Nat) (data scales : List Byte) (i : Nat) : List Num × Nat :=
  let row := (data.drop (192 * i)).take 192
  let nb := operandK t / 32
  let sc := (scales.drop (nb * i)).take nb
  let (raw, fl) : List Num × Nat :=
    if t = 6 then
      (upTo 0 12).foldr (fun b acc =>
        let (v, f) := iqDecode ((row.drop (16 * b)).take 16)
        (v ++ acc.1, fOr f acc.2)) ([], 0)
    else ((upTo 0 (operandK t)).map (fun k =>
      match operandBits t with
      | 16 => (fmtOf t).decode (recNat row (2 * k) 2)
      | 8 => (fmtOf t).decode (nth row 0 k).toNat
      | _ => (fmtOf t).decode ((nth row 0 (k / 2)).toNat / (if k % 2 = 0 then 1 else 16) % 16)), 0)
  if t ≤ 2 then (raw, fl)
  else ((indexed 0 raw).map (fun p => scaledBy p.2 (nth sc 0 (p.1 / 32)).toNat), fl)

/-- What a sum of products holds so far: the finite sum, whether +∞ and −∞ occur, a NaN, and NV. -/
structure Dot where
  fin : Option Num := none
  pos : Bool := false
  neg : Bool := false
  nan : Bool := false
  nv : Bool := false
deriving DecidableEq, Repr

/-- One more product. -/
def Dot.add (d : Dot) (a b : Num) : Dot :=
  if a.isNan || b.isNan then { d with nan := true, nv := d.nv || a.snan || b.snan }
  else match mulNum a b with
    | none => { d with nan := true, nv := true }
    | some (.inf s) => if s then { d with neg := true } else { d with pos := true }
    | some (.fin s m e) =>
      { d with fin := match d.fin with
          | some (.fin s2 m2 e2) => some (addFin false s2 m2 e2 s m e)
          | _ => some (.fin s m e) }
    | some _ => d

/-- The exact sum of products, with NV. -/
def dotSum (d : Dot) (a b : List Num) : Dot :=
  match a, b with
  | x :: r, y :: t => dotSum (d.add x y) r t
  | _, _ => d

/-- The value of a sum. -/
def Dot.value (d : Dot) : Num × Nat :=
  if d.nan || (d.pos && d.neg) then (.nan false 1 1, if d.nv || (d.pos && d.neg) then fNV else 0)
  else if d.pos then (.inf false, 0)
  else if d.neg then (.inf true, 0)
  else (d.fin.getD (.fin false 0 0), 0)

/-- An exact sum of two values (R191). -/
def numAdd (a b : Num) : Num :=
  match a, b with
  | .fin s1 m1 e1, .fin s2 m2 e2 => addFin false s1 m1 e1 s2 m2 e2
  | .inf s1, .inf s2 => if s1 = s2 then .inf s1 else .nan false 1 1
  | .inf s1, .fin .. => .inf s1
  | .fin .., .inf s2 => .inf s2
  | _, _ => .nan false 1 1

/-- Two sums are the same value. -/
def sameSum (a b : Num) : Bool := (a.isNan && b.isNan) || a.eqv b

/-- round_fa56(C + s): one rounding, RNE; NaN gives the default NaN. -/
def accumulate (c : Nat) (s : Num) (fl : Nat) : Nat × Nat :=
  let x := fa56.decode c
  if s.isNan || x.isNan then (fa56.nanCode, if x.snan then fOr fl fNV else fl)
  else
    let (v, f) := fa56.addNum 0 0 x s
    (v, fOr fl f)

/-- A mismatch of a checked MMA (R190): row and column of the implicated processing element, and whether its element has no
majority. -/
abbrev Mismatch := Nat × Nat × Bool

/-- The mismatch that MATRIX_CHECK names: the lowest, of those without a majority where there is one.
(Mark: DEDUCED, unsafe, log 71) -/
def namedMismatch (l : List Mismatch) : Option Mismatch :=
  let among := if l.any (fun m => m.2.2) then l.filter (fun m => m.2.2) else l
  among.find? (fun m => among.all (fun q => decide (m.1 < q.1 ∨ (m.1 = q.1 ∧ m.2.1 ≤ q.2.1))))

/-- TVAL of MATRIX_CHECK without COUNT (R190). -/
def checkVal (m : Mismatch) (multi : Bool) : Nat :=
  m.2.1 % 64 + m.1 % 64 * 64 + b2n m.2.2 * 2 ^ 12 + b2n multi * 2 ^ 13

/-- The sum of element `e` in computation `p`, with what befalls it (R190, R191). -/
def errSum (errs : List (Nat × Nat × W64)) (p e : Nat) (v : Num) : Num :=
  (errs.filter (fun x => decide (x.1 = p ∧ x.2.1 = e))).foldl (fun w x => numAdd w (fa56.decode (x.2.2.toNat % 2 ^ 56))) v

/-- Three sums of an element (R190): the one that accumulates, and the computation that disagreed, 3 where all differ. -/
def vote (a b c : Num) : Num × Option Nat :=
  if sameSum a b then (a, if sameSum a c then none else some 2)
  else if sameSum a c then (a, some 1)
  else if sameSum b c then (b, some 0)
  else (a, some 3)

/-- A checked element: computation p of element (i, j) runs on processing element ((i + p) mod 64, j). A third computation runs
where any element's first two differ. -/
def checkElem (errs : List (Nat × Nat × W64)) (third : Bool) (i j : Nat) (v : Num) : Num × Option Mismatch :=
  let sum := fun (p : Nat) => errSum errs p (64 * i + j) v
  if ! third then (sum 0, none)
  else match vote (sum 0) (sum 1) (sum 2) with
    | (w, none) => (w, none)
    | (w, some 3) => (w, some (i, j, true))
    | (w, some p) => (w, some ((i + p) % 64, j, false))

/-- An MMA on a bank: A and B with their scales; `z` starts from +0, and `errs` befall its sums. The bank, and what a check
finds. (Mark: DEDUCED, unsafe, log 71) -/
def mmaBank (b : Bank) (t : Nat) (a asc d dsc : List Byte) (z : Bool) (errs : List (Nat × Nat × W64)) (checked : Bool) :
    Bank × List Mismatch :=
  let rows := (upTo 0 64).map (operandRow t a asc)
  let cols := (upTo 0 64).map (operandRow t d dsc)
  let fl0 := (rows ++ cols).foldl (fun f r => fOr f r.2) 0
  let exact := fun (e : Nat) => (dotSum { } (nth rows ([], 0) (e / 64)).1 (nth cols ([], 0) (e % 64)).1).value.1
  let third := checked && errs.any (fun x => ! sameSum (errSum errs 0 x.2.1 (exact x.2.1)) (errSum errs 1 x.2.1 (exact x.2.1)))
  let cell := fun (i j : Nat) (ra rb : List Num × Nat) =>
    let (v, f) := (dotSum { } ra.1 rb.1).value
    let w := if errs.isEmpty then v else (checkElem errs third i j v).1
    accumulate (if z then 0 else (Tab.get b.elems 0 (64 * i + j)).toNat) w f
  let res := (indexed 0 rows).flatMap (fun r => (indexed 0 cols).map (fun c => (64 * r.1 + c.1, cell r.1 c.1 r.2 c.2)))
  let hits := (errs.map (fun x => x.2.1)).eraseDups.filterMap (fun e => (checkElem errs third (e / 64) (e % 64) (exact e)).2)
  ({ b with elems := res.filterMap (fun e => if e.2.1 = 0 then none else some (e.1, w64 e.2.1)),
            flags := b.flags ||| BitVec.ofNat 5 (res.foldl (fun f e => fOr f e.2.2) fl0) }, hits)

/-! ## Banks (09 R187; R333) -/

/-- The launch that a bank or a command belongs to. -/
abbrev Owner2 := Nat × W32

/-- The active bank of a launch. -/
def Cluster.activeOf (k : Cluster) (o : Owner2) : Option Nat :=
  (k.active.find? (fun a => decide (a.1 = o.1 ∧ a.2.1 = o.2))).map (fun a => a.2.2)
/-- Make a bank the active one of its launch. -/
def Cluster.setActive (k : Cluster) (o : Owner2) (i : Nat) : Cluster :=
  { k with active := (o.1, o.2, i) :: k.active.filter (fun a => ! decide (a.1 = o.1 ∧ a.2.1 = o.2)) }

/-- Evict a bank; none where its latch is 0 or does not lead to plain memory (08 R155). (Mark: DESIGN CHOICE, unsafe, log 70) -/
def State.evictBank (s : State) (cl i : Nat) : Option State :=
  let b := (s.clusterAt cl).bank i
  match b.holder with
  | none => some s
  | some (t, id) => match s.writeBank t b with
    | none => none
    | some s1 =>
      let act := (s.clusterAt cl).active.contains (t, id, i)
      let k := (s1.clusterAt cl).setBank i Bank.reset
      let k1 : Cluster := { k with active := k.active.filter (fun a => a != (t, id, i)) }
      match s.launchBy t id with
      | none => some (s1.setCluster cl k1)
      | some l =>
        if l.state = .placed then
          some (s1.setCluster cl { k1 with reload := (t, id, b.second, act) :: k1.reload })
        else
          let num := match findAt (fun c => c == cl) (meshAt l.origin l.mw l.mh) with
            | some (n, _) => n
            | none => 0
          some ((s1.setCluster cl k1).updLaunch t id (fun m => { m with evicted := (num, b.second, act) :: m.evicted }))

/-- The bank to evict for a launch: one that another launch holds, the earlier suspended first. -/
def Cluster.victimBank (k : Cluster) (o : Owner2) : Option Nat :=
  let other := fun (b : Bank) => b.holder.isSome && b.holder != some o
  match other k.bank0, other k.bank1 with
  | true, true => match k.bank0.shadow, k.bank1.shadow with
    | some a, some b => some (if a ≤ b then 0 else 1)
    | some _, none => some 0
    | none, some _ => some 1
    | none, none => some 0
  | true, false => some 0
  | false, true => some 1
  | false, false => none

/-- A bank for a launch: a free one, else the victim's. (Mark: DESIGN CHOICE, unsafe, log 70) -/
def State.roomBank (s : State) (cl : Nat) (o : Owner2) : Option (Nat × State) :=
  let k := s.clusterAt cl
  if k.bank0.holder.isNone then some (0, s)
  else if k.bank1.holder.isNone then some (1, s)
  else match k.victimBank o with
    | none => none
    | some i => (s.evictBank cl i).map (fun t => (i, t))

/-- A launch takes bank `i`: it starts fresh, and its latch takes ACCSV. (Mark: DESIGN CHOICE, unsafe, log 70) -/
def State.takeBank (s : State) (cl i : Nat) (o : Owner2) (second : Bool) : State :=
  let k := s.clusterAt cl
  let b : Bank := { Bank.reset with holder := some o, latch := k.accsv, second := second }
  s.setCluster cl ((k.setBank i b).setActive o i)

/-- A bank read back from its save area, which holds no MMA count: that is a free value. (Mark: DESIGN CHOICE, unsafe, log 70) -/
def Bank.restored (o : Owner2) (latch : W64) (second : Bool) (l : List Byte) (count : Nat) : Bank :=
  { elems := (upTo 0 4096).filterMap (fun i => match recNat l (8 * i) 7 with
      | 0 => none
      | v => some (i, w64 v)),
    flags := BitVec.ofNat 5 (recNat l 32800 1),
    map := (upTo 0 64).map (fun r => (r, recNat l (32768 + r / 2) 1 / (if r % 2 = 0 then 1 else 16) % 16)),
    holder := some o, latch := latch, shadow := none, second := second, count := count }

/-- The evicted banks of a launch come back at its first matrix instruction. (Mark: DESIGN CHOICE, unsafe, log 70) -/
def State.reloadBanks (s : State) (cl : Nat) (o : Owner2) (l : List (Nat × W32 × Bool × Bool)) : Option State :=
  match l with
  | [] => some s
  | (t, id, second, act) :: r =>
    if t ≠ o.1 ∨ id ≠ o.2 then s.reloadBanks cl o r
    else match s.roomBank cl o with
      | none => none
      | some (i, s1) =>
        let va := (s1.clusterAt cl).accsv
        match (if va = 0 then none else s1.tenRead o.1 (va + bankOffset second) 32808) with
        | none => none
        | some l =>
          let (n, s2) := s1.draw
          let k := (s2.clusterAt cl).setBank i (Bank.restored o va second l (n.toNat % 2 ^ 32))
          let k1 : Cluster := { k with reload := k.reload.filter (fun e => e != (t, id, second, act)) }
          (s2.setCluster cl (if act || (k1.activeOf o).isNone then k1.setActive o i else k1)).reloadBanks cl o r

/-- The active bank of a launch, reloaded or taken; none where an eviction or a reload fails. -/
def State.ensureBank (s : State) (cl : Nat) (o : Owner2) : Option (Nat × State) :=
  match s.reloadBanks cl o (s.clusterAt cl).reload with
  | none => none
  | some s1 => match (s1.clusterAt cl).activeOf o with
    | some i => some (i, s1)
    | none => match s1.roomBank cl o with
      | none => none
      | some (i, s2) => some (i, s2.takeBank cl i o false)

/-! ## Issue (R326 to R329) -/

/-- op4 of a matrix instruction. -/
def mop4 (i : Instr) : Nat := match i with
  | .mma .. => 0 | .mclr => 1 | .mdrain .. => 2 | .mmap _ => 3 | .wbload .. => 4 | .mswap => 5 | .mpert .. => 6
  | .mchk _ => 7 | _ => 8

/-- The commands queued in a cluster. -/
def State.mqueues (s : State) (cl : Nat) : List MCmd := (upTo (cl * 16) 16).flatMap (fun c => (s.coreAt c).mqueue)

/-- The stall reason at a full queue: idle clk that the power limiter inserts into matrix issue have their own (06 R115).
(Mark: DEDUCED, unsafe, log 130) -/
def State.mStall (s : State) : Nat := if s.power.lim then 14 else 15

/-- A command enters its core's queue of 4; a full queue stalls the context. (Mark: DEDUCED, unsafe, log 67) -/
def State.mEnter (s : State) (i : Instr) (vals : List W64) (mode draws : Nat) : Out :=
  if s.myCore.mqueue.length ≥ 4 then s.wait s.mStall
  else match s.myCore.thread with
    | none => .next s.retire
    | some o =>
      let m : MCmd :=
        { insn := i, core := s.core, ctx := s.ctx, vals := vals, rm := mode, base := s.me.rndctr,
          seed := s.jobseedOf s.core, owner := o,
          seq := (s.mqueues (clusterOf s.core)).foldl (fun n c => max n (c.seq + 1)) 0, pl := s.me.pl, parked := none }
      let s1 := s.advanceRnd draws
      .next (s1.setMyCore { s1.myCore with mqueue := s1.myCore.mqueue ++ [m] }).retire

/-- A matrix instruction on an array core: MATRIX_ROLE on a stage core, after the causes that precede it in R173.
(Mark: DEDUCED, unsafe, log 67) -/
def State.mRole (s : State) (i : Instr) (k : Out) : Out :=
  if s.core % 2 = 0 then .next (s.trap 0x0D (encode64 i)) else k

/-- MMA. -/
def execMma (h w : BitVec 4) (sl : BitVec 6) (t : BitVec 3) (z v : BitVec 1) (s : State) : Out :=
  let i : Instr := .mma h w sl t z v
  whenWf i s (onArray i s (s.mRole i
    (let r := s.myCore.ringAt h.toNat
     if r.slott = 0 && ! r.peer then s.ringTrap 1 h.toNat
     else if r.peer || r.pside || ! r.cside || decide (r.slott ≠ (if t.toNat ≤ 2 then 12 else 13)) then s.ringTrap 6 h.toNat
     else if w.toNat > r.nslot then s.ringTrap 2 h.toNat
     else if s.myCore.mqueue.length ≥ 4 then s.wait s.mStall
     else (s.countOn s.core 5 1).mEnter i [] 0 0)))

/-- MCLR. -/
def execMclr (s : State) : Out := onArray .mclr s (s.mRole .mclr (s.mEnter .mclr [] 0 0))

/-- MDRAIN. -/
def execMdrain (a : BitVec 5) (q : BitVec 1) (t : BitVec 3) (u : BitVec 1) (r : BitVec 3) (s : State) : Out :=
  let i : Instr := .mdrain a q t u r
  whenWf i s (onArray i s
    (let v := s.rd a
     let n := bitsAt v 6 6
     let mode := resolveMode r.toNat s.me.rm
     if v.toNat / 2 ^ 19 ≠ 0 ∨ bitsAt v 0 6 + n > 63 then .next (s.trap 0x05 v)
     else s.mRole i (s.mEnter i [v] mode (if mode = 6 then 64 * (n + 1) else 0))))

/-- MMAP. -/
def execMmap (a : BitVec 5) (s : State) : Out :=
  whenWf (.mmap a) s (onArray (.mmap a) s (s.mRole (.mmap a)
    (s.mEnter (.mmap a) ((upTo 0 4).map (fun j => s.rd (a + BitVec.ofNat 5 j))) 0 0)))

/-- WBLOAD. -/
def execWbload (a b : BitVec 5) (s : State) : Out :=
  whenWf (.wbload a b) s (onArray (.wbload a b) s
    (if (s.rd a).toNat % 64 ≠ 0 then .next (s.trap 0x03 (s.rd a))
     else if (s.rd b).toNat / 2 ^ 22 ≠ 0 then .next (s.trap 0x05 (s.rd b))
     else s.mRole (.wbload a b) (s.mEnter (.wbload a b) [s.rd a, s.rd b] 0 0)))

/-- MSWAP. -/
def execMswap (s : State) : Out := onArray .mswap s (s.mRole .mswap (s.mEnter .mswap [] 0 0))

/-- MPERT: with STATUS.INJ = 0 it traps PRIV_INSN. (Mark: DEDUCED, unsafe, log 71) -/
def execMpert (a b : BitVec 5) (s : State) : Out :=
  whenWf (.mpert a b) s (onArray (.mpert a b) s
    (if ! s.me.inj then .next (s.trap 0x02 (encode64 (.mpert a b)))
     else if (s.rd a).toNat / 2 ^ 56 ≠ 0 then .next (s.trap 0x05 (s.rd a))
     else if (s.rd b).toNat / 2 ^ 12 ≠ 0 then .next (s.trap 0x05 (s.rd b))
     else s.mRole (.mpert a b) (s.mEnter (.mpert a b) [s.rd a, s.rd b] 0 0)))

/-- MCHK. (Mark: DEDUCED, unsafe, log 71) -/
def execMchk (a : BitVec 5) (s : State) : Out :=
  whenWf (.mchk a) s (onArray (.mchk a) s (s.mRole (.mchk a) (s.mEnter (.mchk a) [s.rd a] 0 0)))

/-- A slot-table entry (R325). -/
def WSlot.toW64 (w : WSlot) : W64 := w64 (w.line + w.nline * 2 ^ 13 + w.ceil * 2 ^ 22 + w.type * 2 ^ 24 + w.state * 2 ^ 27)

/-- A command of a core is queued, or taken and not complete. (Mark: DEDUCED, unsafe, log 68) -/
def State.mBusy (s : State) (c : Nat) : Bool :=
  let k := s.clusterAt (clusterOf c)
  ! (s.coreAt c).mqueue.isEmpty || (match k.run with
    | some r => decide (r.cmd.core = c)
    | none => false) || (match k.wbload with
    | some r => decide (r.core = c)
    | none => false)

/-- MSTAT's item 0 with the engine's state (R330). -/
def State.mstatWord (s : State) (cl : Nat) (o : Owner2) : W64 :=
  let k := s.clusterAt cl
  let i := (k.activeOf o).getD 0
  let fl := match k.activeOf o with
    | some j => (k.bank j).flags.toNat
    | none => 0
  let count := match k.activeOf o with
    | some j => (k.bank j).count
    | none => 0
  w64 (fl + i * 2 ^ 12 + b2n (k.bank0.holder == some o && k.bank1.holder == some o) * 2 ^ 13 + k.chkN * 2 ^ 16
    + count % 2 ^ 32 * 2 ^ 32)

/-- MSTAT (R330). An evicted bank of the launch comes back first. -/
def execMstat (a d : BitVec 5) (s : State) : Out :=
  whenWf (.mstat a d) s (onArray (.mstat a d) s
    (let v := s.rd a
     let cl := clusterOf s.core
     let o : Owner2 := (s.tenOf s.core, s.ctxidOf s.core)
     if bitsAt v 12 51 ≠ 0 then .next (s.trap 0x05 v)
     else s.mRole (.mstat a d)
       (if s.mBusy s.core then s.wait 15
        else
          let item := bitsAt v 0 12
          if item = 0 then
            let s1 := match s.reloadBanks cl o (s.clusterAt cl).reload with
              | some t => t
              | none => s.postAsync s.core s.ctx 0x0E (w64 (8 + 0x0E * 2 ^ 16 + 2 ^ 24))
            let k := s1.clusterAt cl
            let s2 := match bitOn v 63, k.activeOf o with
              | true, some i => s1.setCluster cl (k.setBank i { k.bank i with flags := 0 })
              | _, _ => s1
            s2.done d (s1.mstatWord cl o)
          else if 0x100 ≤ item ∧ item < 0x140 then
            s.done d (Tab.get (s.clusterAt cl).slots WSlot.reset (item - 0x100)).toW64
          else s.done d 0)))

/-! ## The engine (R327, R329, R331) -/

/-- ENGINE_FAULT of a matrix command (R332). -/
def State.matrixFault (s : State) (m : MCmd) (cause detail : Nat) : State :=
  s.asyncTo m.owner m.ctx 0x0E (w64 (mop4 m.insn + cause * 2 ^ 16 + 2 ^ 24 + detail * 2 ^ 32))

/-- What the engine finds at the head of a queue. -/
inductive MTry where
  | notReady
  | start (r : MRun) (s : State)
  | load (s : State)
  | fault (cause detail : Nat) (s : State)

/-- The thread of a launch on a core, running or suspended there. -/
def Core.threadOf (k : Core) (o : Owner2) : Option (Nat × W32 × Nat) :=
  match k.thread with
  | some (t, i, l) => if t = o.1 ∧ i = o.2 then some (t, i, l) else
    (k.slots.find? (fun p => decide (p.2.ten = o.1 ∧ p.2.ctxid = o.2))).map (fun p => (p.2.ten, p.2.ctxid, p.2.lcore))
  | none => (k.slots.find? (fun p => decide (p.2.ten = o.1 ∧ p.2.ctxid = o.2))).map (fun p => (p.2.ten, p.2.ctxid, p.2.lcore))

/-- Bytes of a drained row (R331). -/
def drainLen (t : Nat) : Nat := match t with
  | 0 => 256 | 1 => 128 | 2 => 128 | _ => 512

/-- Where a drain's rows go: row, core, thread, tile, offset in the tile; none of the last three where the launch has no
thread there or the tile lies beyond the landing area. (Mark: DESIGN CHOICE, safe, log 69) -/
def State.drainPlan (s : State) (cl : Nat) (o : Owner2) (map : List (Nat × Nat)) (lt rlen : Nat) (seen : Tab Nat) :
    List (Nat × Nat × Option ((Nat × W32 × Nat) × Nat × Nat)) :=
  match map with
  | [] => []
  | (row, d) :: r =>
    let m := Tab.get seen 0 d
    let c := cl * 16 + d
    let rpt := 1024 / rlen
    let dest := match (s.coreAt c).threadOf o with
      | none => none
      | some w => match (s.coreAt c).view w with
        | none => none
        | some v =>
          let t := v.scratch + lt + m / rpt
          if t < v.windowTiles then some (w, t, m % rpt * rlen) else none
    (row, c, dest) :: s.drainPlan cl o r lt rlen (Tab.set seen d (m + 1))

/-- A drain's rows converted (R331): codes in row-major order with the flags. (Mark: DESIGN CHOICE, safe, log 69) -/
def drainRows (b : Bank) (m : MCmd) (t row0 n : Nat) : List (List W64) × Nat :=
  (upTo 0 n).foldr (fun k acc =>
    let row := (upTo 0 64).map (fun j =>
      let v := (Tab.get b.elems 0 (64 * (row0 + k) + j)).toNat
      if t = 7 then (v, 0)
      else
        let d := if m.rm = 6 then srDraw m.seed (w64 m.owner.2.2) (m.base + w64 (64 * k + j)) else 0
        (fmtOf t).encode m.rm d false (fa56.decode v))
    (row.map (fun p => w64 p.1) :: acc.1, row.foldl (fun f p => fOr f p.2) acc.2)) ([], 0)

/-- A command's run with a bank. -/
def mrun (m : MCmd) (bank : Nat) : MRun :=
  { cmd := m, bank := bank, opA := none, pert := none, errs := [], rows := [], map := [], sent := 0 }

/-- Try the head of a queue: whether its waits are satisfied, and what taking it does. (Mark: DEDUCED, unsafe, log 68) -/
def State.mTry (s : State) (cl : Nat) (m : MCmd) : MTry :=
  let o : Owner2 := (m.owner.1, m.owner.2.1)
  let withBank := fun (k : Nat → State → MTry) => match s.ensureBank cl o with
    | none => MTry.fault 0x0E 0 s
    | some (i, t) => k i t
  match m.insn with
  | .mma h w sl t _ _ =>
    let slot := Tab.get (s.clusterAt cl).slots WSlot.reset sl.toNat
    (match (s.coreAt m.core).view m.owner with
      | none => .notReady
      | some v =>
        if (v.ringAt h.toNat).fill < max 1 w.toNat ∨ slot.state < 2 then .notReady
        else if slot.state = 3 ∨ slot.type ≠ t.toNat then .fault 0x0E sl.toNat s
        else withBank (fun i t2 =>
          let k := t2.clusterAt cl
          let b := k.bank i
          .start { mrun m i with pert := k.pert } (t2.setCluster cl { k.setBank i { b with count := b.count + 1 } with pert := none })))
  | .mdrain _ q t _ _ =>
    let x := nth m.vals 0 0
    let row0 := bitsAt x 0 6
    let n := bitsAt x 6 6 + 1
    withBank (fun i u =>
      let k := u.clusterAt cl
      let b := k.bank i
      let map := (upTo row0 n).map (fun r => (r, Tab.get b.map (r % 16) r))
      let plan := u.drainPlan cl o map (bitsAt x 12 6) (drainLen t.toNat) []
      match plan.find? (fun p => p.2.2.isNone) with
      | some (row, _, _) => if q = 0 then .fault 0x0E row u else
        let (rows, f) := drainRows b m t.toNat row0 n
        .start { mrun m i with rows := rows } (u.setCluster cl (k.setBank i { b with flags := b.flags ||| BitVec.ofNat 5 f }))
      | none =>
        let ready := q = 1 || plan.all (fun p => match p.2.2 with
          | some (w, tile, _) => (match (u.coreAt p.2.1).view w with
            | some v => v.tileE tile && (u.engineClaim p.2.1 w tile).isSome
            | none => false)
          | none => false)
        if ! ready then .notReady
        else
          let (rows, f) := drainRows b m t.toNat row0 n
          .start { mrun m i with rows := rows, map := map.map (fun p => p.2) }
            (u.setCluster cl (k.setBank i { b with flags := b.flags ||| BitVec.ofNat 5 f })))
  | .wbload .. =>
    let sl := bitsAt (nth m.vals 0 1) 0 6
    if (s.mqueues cl).any (fun c => decide (c.seq < m.seq) && (match c.insn with
        | .mma _ _ b _ _ _ => decide (b.toNat = sl)
        | _ => false)) then .notReady
    else
      let k := s.clusterAt cl
      .load (s.setCluster cl { k with
        slots := Tab.set k.slots sl { Tab.get k.slots WSlot.reset sl with state := 1, nline := 0, scales := [] } })
  | .mpert .. => .start (mrun m 0) s
  | .mchk _ => .start (mrun m 0) s
  | _ => withBank (fun i t => .start (mrun m i) t)

/-- Take from the first issue core, in round robin order, whose head is ready. (Mark: DEDUCED, unsafe, log 68) -/
def State.mTake (s : State) (cl : Nat) (order : List Nat) : State :=
  match order with
  | [] => s
  | c :: r =>
    match (s.coreAt c).mqueue with
    | [] => s.mTake cl r
    | m :: q =>
      let pop := fun (t : State) =>
        let t1 := t.setCore c { t.coreAt c with mqueue := q }
        t1.setCluster cl { t1.clusterAt cl with served := c }
      match s.mTry cl m with
      | .notReady => s.mTake cl r
      | .start run t =>
        let u := pop t
        u.setCluster cl { u.clusterAt cl with run := some run }
      | .load t =>
        let u := pop t
        u.setCluster cl { u.clusterAt cl with wbload := some m }
      | .fault cause detail t => (pop t).matrixFault m cause detail

/-- MATRIX_COMMAND_TAKE. (Mark: DEDUCED, unsafe, log 68) -/
def execMatrixCommandTake (cluster : BitVec 8) (s : State) : Out :=
  let cl := cluster.toNat
  let k := s.clusterAt cl
  if k.run.isSome || k.wbload.isSome || k.halted || k.gatedAt.isSome then .next s
  else
    let first := k.served % 16
    .next (s.mTake cl ((upTo (first + 1) 16).map (fun i => cl * 16 + i % 16)))

/-- The engine has no command. -/
def State.mDone (s : State) (cl : Nat) : State := s.setCluster cl { s.clusterAt cl with run := none, busyAt := s.now }

/-- MMA_A_READ_END: the engine has read the slot at CONS; with adv it flips to T. -/
def execMmaAReadEnd (cluster : BitVec 8) (s : State) : Out :=
  let cl := cluster.toNat
  match (s.clusterAt cl).run with
  | none => .next s
  | some r =>
    match r.cmd.insn, r.opA with
    | .mma h _ sl _ _ adv, none =>
      let c := r.cmd.core
      (match (s.coreAt c).view r.cmd.owner with
        | none => .next (s.mDone cl)
        | some v =>
          let ring := v.ringAt h.toNat
          let tiles := ring.slotTiles ring.cons
          let key := poolKey c (1024 * (ring.base + ring.cons * ring.slott))
          if ! v.engineOk tiles then .next ((s.mDone cl).matrixFault r.cmd 0x0B sl.toNat)
          else match s.engineClaims c r.cmd.owner tiles with
            | none => .next s
            | some s1 =>
              if s1.poisoned key (1024 * ring.slott) then .next ((s1.mDone cl).consumePoison c r.cmd.ctx 0 4)
              else
                let s2 := s1.setCluster cl { s1.clusterAt cl with
                  run := some { r with opA := some (s1.peekN key (1024 * ring.slott)) } }
                .next (if adv = 1 then s2.engineFlip c r.cmd.owner tiles else s2))
    | _, _ => .next s

/-- The expanded operand of a slot, from its lines. -/
def Cluster.slotData (k : Cluster) (w : WSlot) : List Byte :=
  match blockRecords ((upTo (64 * w.line) (64 * w.nline)).map (fun i => Tab.get k.weight 0 i)) 0 192 with
  | some (d, _) => d
  | none => []

/-- The last step of an MMA: the bank, COUNT and a MATRIX_CHECK. (Mark: DEDUCED, unsafe, log 71) -/
def State.mmaEnd (s : State) (cl : Nat) (r : MRun) (sl : BitVec 6) (t : BitVec 3) (z : BitVec 1) (a : List Byte) : State :=
  let k := s.clusterAt cl
  let b := k.bank r.bank
  if b.holder ≠ some (r.cmd.owner.1, r.cmd.owner.2.1) then s
  else
    let w := Tab.get k.slots WSlot.reset sl.toNat
    let checked := decide (k.chkN ≠ 0 ∧ b.count % k.chkN = 0)
    let errs := r.errs ++ (match r.pert with
      | some (p, col, row) => [(0, 64 * row + col, p)]
      | none => [])
    let (nb, hits) := mmaBank b t.toNat (a.take 12288) (a.drop 12288) (k.slotData w) w.scales (z == 1) errs checked
    let s1 := s.setCluster cl (k.setBank r.bank nb)
    match namedMismatch hits with
    | some m => s1.asyncTo r.cmd.owner r.cmd.ctx 0x18 (w64 (checkVal m (decide (1 < hits.length)) + b.count % 2 ^ 32 * 2 ^ 32))
    | none => s1

/-- An error befalls a sum of the MMA that a cluster's engine runs (R190). (Mark: DEDUCED, unsafe, log 71) -/
def State.sumError (s : State) (cl pass elem : Nat) (delta : W64) : State :=
  let k := s.clusterAt cl
  match k.run with
  | some r => s.setCluster cl { k with run := some { r with errs := r.errs ++ [(pass % 3, elem % 4096, delta)] } }
  | none => s

/-- A drain's rows reach their landing tiles, which flip to T. (Mark: DESIGN CHOICE, safe, log 69) -/
def State.drainEnd (s : State) (cl : Nat) (r : MRun) (t : BitVec 3) (ui : Bool) : State :=
  let x := nth r.cmd.vals 0 0
  let o : Owner2 := (r.cmd.owner.1, r.cmd.owner.2.1)
  let len := drainLen t.toNat
  let plan := s.drainPlan cl o ((indexed (bitsAt x 0 6) r.map).map (fun p => (p.1, p.2))) (bitsAt x 12 6) len []
  let s1 := (indexed 0 plan).foldl (fun (u : State) p => match p.2.2.2 with
    | some (w, tile, off) => (match u.engineClaim p.2.2.1 w tile with
      | some v => v.pokeN (poolKey p.2.2.1 (1024 * tile + off)) ((nth r.rows [] p.1).flatMap (fun c => leBytes (len / 64) c.toNat))
      | none => u)
    | none => u) s
  let s2 := plan.foldl (fun (u : State) p => match p.2.2 with
    | some (w, tile, _) => u.engineFlip p.2.1 w [tile]
    | none => u) s1
  if ui then s2.uiTo r.cmd.owner r.cmd.ctx 1 (x.toNat % 4096) else s2

/-- MATRIX_COMMAND_COMPLETE. A drain to the accumulator queue gives it one row a turn, and waits while it is full. -/
def execMatrixCommandComplete (cluster : BitVec 8) (s : State) : Out :=
  let cl := cluster.toNat
  let k := s.clusterAt cl
  match k.run with
  | none => .next s
  | some r =>
    let o : Owner2 := (r.cmd.owner.1, r.cmd.owner.2.1)
    let b := k.bank r.bank
    let mine := decide (b.holder = some o)
    match r.cmd.insn with
    | .mma _ _ sl t z _ => (match r.opA with
      | some a =>
        let w := Tab.get k.slots WSlot.reset sl.toNat
        if s.poisoned (weightKey cl (64 * w.line)) (64 * w.nline) then .next ((s.mDone cl).consumePoison r.cmd.core r.cmd.ctx 0 4)
        else .next ((s.mmaEnd cl r sl t z a).mDone cl)
      | none => .next s)
    | .mdrain _ q t u _ =>
      if q = 0 then .next ((s.drainEnd cl r t (u == 1)).mDone cl)
      else
        let oc := cl * 2 + bitsAt (nth r.cmd.vals 0 0) 18 1
        let oct := s.octetAt oc
        (match r.rows.drop r.sent with
          | [] => .next (s.mDone cl)
          | row :: rest =>
            if oct.accq.length ≥ 16 then .next s
            else
              let s1 := s.setOctet oc { oct with accq := oct.accq ++ [row.map (fun c => c.setWidth 32)] }
              .next (if rest.isEmpty then s1.mDone cl
                else s1.setCluster cl { s1.clusterAt cl with run := some { r with sent := r.sent + 1 } }))
    | .mclr => .next ((if mine then s.setCluster cl (k.setBank r.bank { b with elems := [] }) else s).mDone cl)
    | .mmap _ =>
      let map := (upTo 0 64).map (fun i => (i, bitsAt (nth r.cmd.vals 0 (i / 16)) (4 * (i % 16)) 4))
      .next ((if mine then s.setCluster cl (k.setBank r.bank { b with map := map }) else s).mDone cl)
    | .mswap =>
      let i := 1 - r.bank
      if ! mine then .next (s.mDone cl)
      else if (k.bank i).holder = some o then .next ((s.setCluster cl (k.setActive o i)).mDone cl)
      else (match s.evictBank cl i with
        | some t => .next ((t.takeBank cl i o true).mDone cl)
        | none => .next ((s.mDone cl).matrixFault r.cmd 0x0E 0))
    | .mpert .. =>
      let v := nth r.cmd.vals 0 0
      let p := nth r.cmd.vals 0 1
      .next ((s.setCluster cl { k with pert := some (v, bitsAt p 0 6, bitsAt p 6 6) }).mDone cl)
    | .mchk _ =>
      let n := bitsAt (nth r.cmd.vals 0 0) 0 16
      let zero := fun (b : Bank) => if b.holder = some o then { b with count := 0 } else b
      .next ((s.setCluster cl { k with chkN := if n = 0 then 0 else max 16 n, bank0 := zero k.bank0, bank1 := zero k.bank1 }).mDone cl)
    | _ => .next (s.mDone cl)

/-- A WBLOAD ends with a fault: STATE 3. -/
def State.wbFault (s : State) (cl : Nat) (m : MCmd) (cause : Nat) : State :=
  let sl := bitsAt (nth m.vals 0 1) 0 6
  let k := s.clusterAt cl
  let s1 := s.setCluster cl { k with
    wbload := none, busyAt := s.now, slots := Tab.set k.slots sl { Tab.get k.slots WSlot.reset sl with state := 3, nline := 0 } }
  s1.matrixFault m cause sl

/-- WBLOAD_COMPLETE: the stream is read, checked and written to its lines. (Mark: DESIGN CHOICE, safe, log 69) -/
def execWbloadComplete (cluster : BitVec 8) (s : State) : Out :=
  let cl := cluster.toNat
  let k := s.clusterAt cl
  match k.wbload with
  | none => .next s
  | some m =>
    if m.parked.isSome then .next s
    else
      let x := nth m.vals 0 1
      let sl := bitsAt x 0 6
      let line := bitsAt x 8 13
      let q : EngWho := { ten := m.owner.1, pl := m.pl, core := some m.core, ctx := m.ctx }
      match s.readStream q (nth m.vals 0 0) with
      | .error (.park cause va _) =>
        let bits := accBits false false false false true
        let p : Parked := { ten := q.ten, page := bitsAt va 16 39, bits := bits, va := va }
        .next (((s.setCluster cl { k with wbload := some { m with parked := some p } }).countOn m.core 7 1).fqFault q.ten
          (newFault va cause m.core m.owner.2.1 bits))
      | .error (.miss va wr) => .next (s.engMiss m.core m.ctx q.ten q.pl va wr)
      | .error (.poison va) => .next ((s.wbFault cl m 0x0E).consumePoison m.core m.ctx va 4)
      | .error (.trap c _) => .next (s.wbFault cl m c)
      | .error _ => .next (s.wbFault cl m 0x0E)
      | .ok (_, st) =>
        let nl := st.records.length / 64
        let clash := k.slots.any (fun p => p.1 != sl && decide (p.2.state ≠ 0) && decide (line < p.2.line + p.2.nline ∧ p.2.line < line + nl))
        if st.ceild > bitsAt x 6 2 ∨ nl > 511 ∨ line + nl > 8192 ∨ clash then .next (s.wbFault cl m 0x0E)
        else
          let w : WSlot := { line := line, nline := nl, ceil := bitsAt x 6 2, type := st.type, state := 2, scales := st.scales }
          let weight := (indexed (64 * line) st.records).foldl (fun (t : Tab Byte) p => Tab.set t p.1 p.2) k.weight
          let s0 := s.clearPoison (weightKey cl (64 * line)) (64 * nl)
          let s1 := s0.setCluster cl { k with wbload := none, busyAt := s.now, weight := weight, slots := Tab.set k.slots sl w }
          .next (if bitOn x 21 then s1.uiTo m.owner m.ctx 5 sl else s1)

end Sys2Proof.Machine
end

