-- ==== Sys2Proof/Machine/Copy.lean ====
section
/-! DEFINITION. The copy engine (17 R334 to R339; 07 R124, R128 to R130; 09 R192): BCOPY, BCAST and DEAL with their
descriptor, sides of a transfer here and on other modules, completion, and CSTAT. -/

namespace Sys2Proof.Machine

open Sys2Proof

/-! ## The descriptor (R334, R336) -/

/-- SRC. -/
def cSrc (d : List Byte) : W64 := w64 (recNat d 0 8)
/-- DST. -/
def cDst (d : List Byte) : W64 := w64 (recNat d 8 8)
/-- LEN. -/
def cLen (d : List Byte) : Nat := recNat d 16 4
/-- A flag of byte 20: 0 EXP, 3 CRC, 4 UI, 5 SFLIP. -/
def cFlag (d : List Byte) (i : Nat) : Bool := decide (recNat d 20 1 / 2 ^ i % 2 = 1)
/-- Element size that TRN selects, 0 for none. -/
def cElem (d : List Byte) : Nat := match recNat d 20 1 / 2 % 4 with
  | 0 => 0 | 1 => 1 | 2 => 2 | _ => 4
/-- UITAG. -/
def cTag (d : List Byte) : Nat := recNat d 22 2
/-- ROWS. -/
def cRows (d : List Byte) : Nat := recNat d 24 2
/-- COLS. -/
def cCols (d : List Byte) : Nat := recNat d 26 2
/-- SPITCH. -/
def cSp (d : List Byte) : Nat := recNat d 28 4
/-- DPITCH. -/
def cDp (d : List Byte) : Nat := recNat d 32 4
/-- AUX. -/
def cAux (d : List Byte) : W64 := w64 (recNat d 40 8)
/-- BLK of a pattern word. -/
def dealBlk (d : List Byte) : Nat := 64 * bitsAt (cAux d) 0 12
/-- NCORE of a pattern word. -/
def dealN (d : List Byte) : Nat := bitsAt (cAux d) 12 8
/-- CSTEP of a pattern word. -/
def dealStep (d : List Byte) : Nat := bitsAt (cAux d) 20 12

/-- A malformed descriptor of BCOPY (0), BCAST (1) or DEAL (2). (Mark: DEDUCED, unsafe, log 76) -/
def copyBad (op : Nat) (d : List Byte) : Bool :=
  decide (recNat d 20 1 ≥ 64 ∨ recNat d 21 1 ≠ 0 ∨ recNat d 36 4 ≠ 0 ∨ recNat d 48 8 ≠ 0 ∨ recNat d 56 8 ≠ 0
      ∨ cLen d = 0 ∨ cLen d > 2 ^ 24)
    || (if cElem d = 0 then decide (cRows d ≠ 0 ∨ cCols d ≠ 0 ∨ cSp d ≠ 0 ∨ cDp d ≠ 0)
        else decide (cLen d ≠ cRows d * cCols d * cElem d))
    || (match op with
      | 0 => cAux d != 0
      | 1 => cAux d == 0
      | _ => decide (dealBlk d = 0 ∨ dealN d = 0 ∨ dealN d > 64 ∨ dealStep d = 0 ∨ (cAux d).toNat / 2 ^ 32 ≠ 0
               ∨ cLen d % dealBlk d ≠ 0))

/-- Segments of the source: offset from SRC and length. -/
def copyFrom (d : List Byte) : List (Nat × Nat) :=
  if cElem d = 0 then [(0, cLen d)] else (upTo 0 (cRows d)).map (fun r => (r * cSp d, cCols d * cElem d))
/-- Segments of the destination: offset from DST and length. -/
def copyInto (d : List Byte) : List (Nat × Nat) :=
  if cElem d = 0 then [(0, cLen d)] else (upTo 0 (cCols d)).map (fun c => (c * cDp d, cRows d * cElem d))

/-- A range in parts that do not cross a multiple of `unit` counted from `at0`; `fuel` bounds them. -/
def splitRange (unit at0 o n fuel : Nat) : List (Nat × Nat) :=
  match fuel with
  | 0 => []
  | k + 1 =>
    if n = 0 then []
    else
      let m := min n (unit - (at0 + o) % unit)
      (o, m) :: splitRange unit at0 (o + m) (n - m) k

/-- Segments in parts within `unit` bytes of a start address. -/
def splitAll (unit at0 : Nat) (l : List (Nat × Nat)) : List (Nat × Nat) :=
  l.flatMap (fun p => splitRange unit at0 p.1 p.2 (p.2 / unit + 2))

/-- A core-pool address with another core index. -/
def poolVa (c : Nat) (va : W64) : W64 := putBits (putBits va 48 8 0xFE) 36 12 c

/-- C0: the core a window-0 core-pool address names; none for another address. -/
def poolCore (modid core : Nat) (va : W64) : Option Nat :=
  let node := bitsAt va 56 8
  if (node ≠ 0 ∧ node ≠ 0x40 + modid) ∨ bitsAt va 32 4 ≠ 0 then none
  else if bitsAt va 48 8 = 0xFE then some (bitsAt va 36 12)
  else if bitsAt va 48 8 = 0xFF ∧ bitsAt va 36 12 = 0 then some core
  else none

/-- The parts of the destination in order: which destination, offset in the transfer, length, and address; none for the
address where there is no such core (R336). -/
def copyParts (op modid core : Nat) (d : List Byte) : List (Nat × Nat × Nat × Option W64) :=
  match op with
  | 0 => (splitAll 65536 (cDst d).toNat (copyInto d)).map (fun p => (0, p.1, p.2, some (cDst d + w64 p.1)))
  | 1 => ((upTo 0 64).filter (fun j => (cAux d).getLsbD j)).flatMap (fun j =>
      (splitAll 65536 (cDst d).toNat (copyInto d)).map (fun p => (j, p.1, p.2,
        (poolCore modid core (cDst d)).bind (fun c =>
          if c + j < 4096 then some (poolVa (c + j) (cDst d) + w64 p.1) else none))))
  | _ => (splitAll (dealBlk d) 0 (copyInto d)).map (fun p =>
      let b := p.1 / dealBlk d
      let t := b % dealN d
      (t, p.1, p.2, (poolCore modid core (cDst d)).bind (fun c =>
        if c + t * dealStep d < 4096 then
          some (poolVa (c + t * dealStep d) (cDst d) + w64 (b / dealN d * dealBlk d + p.1 % dealBlk d)) else none)))

/-! ## Sides (R335) -/

/-- Where a part of a side lies. -/
inductive CPl where
  | key (k : Nat)
  | win (core w off : Nat)
  | host (a : Nat)
deriving DecidableEq, Repr

/-- The thread whose pool an engine command finds on a core: its own, its launch's, or another of its tenant. -/
def State.holderAt (s : State) (q : EngWho) (o : Nat × W32 × Nat) (d : Nat) : Option (Nat × W32 × Nat) :=
  if q.core = some d then some o
  else match (s.coreAt d).threadOf (o.1, o.2.1) with
    | some w => some w
    | none => match (s.coreAt d).thread with
      | some w => if w.1 = o.1 then some w else none
      | none => none

/-- The core as that thread holds it. -/
def State.viewAt (s : State) (q : EngWho) (o : Nat × W32 × Nat) (d : Nat) : Option Core :=
  match s.holderAt q o d with
  | some w => (s.coreAt d).view w
  | none => none

/-- The core of a pool address, window 0 to 7. -/
def copyCore (q : EngWho) (va : W64) : Option Nat :=
  if bitsAt va 32 4 > 7 then none
  else if bitsAt va 48 8 = 0xFE then some (bitsAt va 36 12)
  else if bitsAt va 48 8 = 0xFF ∧ bitsAt va 36 12 = 0 then q.core
  else none

/-- Tiles of a core's pool that a part reaches. -/
def copyTiles (v : Core) (va : W64) (n : Nat) : List Nat :=
  if bitsAt va 32 4 = 0 then tilesOf (bitsAt va 0 18) n
  else (fmtBytes (v.awdAt (bitsAt va 32 4)) (bitsAt va 0 32 / 4) (n / 4)).foldl
    (fun l b => if l.contains (b / 1024) then l else l ++ [b / 1024]) []

/-- A part in a core's pool: every tile must be E. -/
def State.copyPool (s : State) (q : EngWho) (o : Nat × W32 × Nat) (d : Nat) (va : W64) (n : Nat) : Except GErr CPl :=
  let w := bitsAt va 32 4
  let off := bitsAt va 0 32
  if q.core ≠ some d && ! s.inRect q.ten (clusterOf d) then .error (.trap 0x07 va)
  else match s.viewAt q o d with
    | none => .error (.trap 0x0B va)
    | some v =>
      if w = 0 ∧ off + n > 2 ^ 18 then .error (.trap 0x05 va)
      else if w ≠ 0 ∧ (off % 4 ≠ 0 ∨ n % 4 ≠ 0) then .error (.trap 0x0E va)
      else if w ≠ 0 ∧ bitsAt (v.awdAt w) 0 3 = 7 then .error (.trap 0x05 va)
      else match (copyTiles v va n).find? (fun t => ! v.engineOk [t]) with
        | some t => .error (.trap (if t < v.windowTiles then 0x0B else 0x05) va)
        | none => .ok (if w = 0 then .key (poolKey d off) else .win d w off)

/-- A part of a side on this module. -/
def State.copyPart (s : State) (q : EngWho) (o : Nat × W32 × Nat) (va : W64) (n : Nat) (wr : Bool) : Except GErr CPl :=
  let node := bitsAt va 56 8
  let sp := bitsAt va 48 8
  if node ≠ 0 ∧ node ≠ 0x40 + s.modid then .error (.trap 0x05 va)
  else if sp < 0x80 then
    match s.engLeaf q va wr with
    | none => .error (.miss va wr)
    | some (.leaf t) => if pteVD t.pte ≠ 0 || pteS t.pte then .error (.trap 0x05 va) else .ok (.key (t.pa va))
    | some (.park c) => .error (.park c va wr)
    | some (.fail c) => .error (.trap c va)
  else if sp = 0xFC then
    if bitsAt va 0 48 + n > (s.tenantAt q.ten).hwsize.toNat % 2 ^ 32 * 4096 then .error (.trap 0x05 va)
    else .ok (.host (((s.tenantAt q.ten).hwbase.toNat + bitsAt va 0 48) % 2 ^ 64))
  else if sp = 0xFD then
    if bitsAt va 22 18 ≠ 0 ∨ bitsAt va 0 22 + n > 2 ^ 22 then .error (.trap 0x05 va)
    else if ! s.inRect q.ten (bitsAt va 40 8) then .error (.trap 0x07 va)
    else .ok (.key (cmemKey (bitsAt va 40 8) (bitsAt va 0 22)))
  else match copyCore q va with
    | none => .error (.trap 0x05 va)
    | some d => s.copyPool q o d va n

/-- The tiles a part of a pool reaches, for the thread that holds them; none outside the rectangle or beyond the
landing area. (Mark: DEDUCED, unsafe, log 76) -/
def State.partTiles (s : State) (q : EngWho) (o : Nat × W32 × Nat) (va : W64) (n : Nat) : List (Nat × Nat) :=
  if bitsAt va 48 8 < 0xFE then []
  else match copyCore q va with
    | none => []
    | some d =>
      if q.core ≠ some d && ! s.inRect q.ten (clusterOf d) then []
      else match s.viewAt q o d with
        | none => []
        | some v => ((copyTiles v va n).filter (fun t => decide (t < v.windowTiles))).map (fun t => (d, t))

/-- The cores named in a list of tiles. -/
def tileCores (l : List (Nat × Nat)) : List Nat := l.foldl (fun a p => if a.contains p.1 then a else a ++ [p.1]) []
/-- The tiles of a core in a list. -/
def tilesAt (l : List (Nat × Nat)) (d : Nat) : List Nat := (l.filter (fun p => p.1 == d)).map (fun p => p.2)

/-- The tiles of a list flip to T, each core's at once. -/
def State.flipTiles (s : State) (q : EngWho) (o : Nat × W32 × Nat) (l : List (Nat × Nat)) : State :=
  (tileCores l).foldl (fun (u : State) d => match u.holderAt q o d with
    | some w => u.engineFlip d w (tilesAt l d)
    | none => u) s

/-- The engine claims the tiles of a list; none while another thread's command targets one. -/
def State.claimTiles (s : State) (q : EngWho) (o : Nat × W32 × Nat) (l : List (Nat × Nat)) : Option State :=
  l.foldl (fun (u : Option State) p => match u with
    | none => none
    | some t => match t.holderAt q o p.1 with
      | some w => t.engineClaim p.1 w p.2
      | none => some t) (some s)

/-- Change the marks of faulted tiles of a core. (Mark: DEDUCED, unsafe, log 76) -/
def State.markTiles (s : State) (q : EngWho) (o : Nat × W32 × Nat) (l : List (Nat × Nat)) (on : Bool) : State :=
  (tileCores l).foldl (fun (u : State) d => match u.holderAt q o d with
    | some w => (match (u.coreAt d).view w with
      | some v =>
        let rest := v.badTiles.filter (fun t => ! (tilesAt l d).contains t)
        u.setCore d ((u.coreAt d).putView w { v with badTiles := if on then rest ++ tilesAt l d else rest })
      | none => u)
    | none => u) s

/-! ## Bytes with their poison (09 R192) -/

/-- Bytes of memory with the mark of their 8-byte units. -/
def State.peekMarked (s : State) (q : EngWho) (k n : Nat) : List (Byte × Bool) :=
  (upTo k n).map (fun j => (s.engByte q j, s.poison.contains (j / 8)))

/-- Write bytes; the mark travels with them. -/
def State.pokeMarked (s : State) (k : Nat) (l : List (Byte × Bool)) : State :=
  let s1 := s.pokeN k (l.map (fun p => p.1))
  (indexed k l).foldl (fun (u : State) p =>
    if p.2.2 && ! u.poison.contains (p.1 / 8) then { u with poison := u.poison ++ [p.1 / 8] } else u) s1

/-- Lines of port write buffers that hold bytes of a range drain: a buffered store does not undo a later engine write. -/
def State.flushLines (s : State) (k n : Nat) : State :=
  if ! isHbm k then s
  else s.clusters.foldl (fun (u : State) p =>
    if p.2.port.any (fun l => decide (l.line * 64 < k + n ∧ k < l.line * 64 + 64)) then u.drainPort p.1 else u) s

/-- A core with the address windows of the thread that an engine finds there. -/
def State.withWindows (s : State) (q : EngWho) (o : Nat × W32 × Nat) (d : Nat) : State :=
  match s.viewAt q o d with
  | some v => s.setCore d { s.coreAt d with awd := v.awd }
  | none => s

/-- Read a part: `host` holds what the link delivers; the rest of it, the bytes and the flags of a window. -/
def State.partRead (s : State) (q : EngWho) (o : Nat × W32 × Nat) (p : CPl) (n : Nat) (host : List Byte) :
    List (Byte × Bool) × List Byte × Nat :=
  match p with
  | .key k => (s.peekMarked q k n, host, 0)
  | .host _ => ((host.take n).map (fun b => (b, false)), host.drop n, 0)
  | .win d w off =>
    let u := s.withWindows q o d
    let (v, f) := u.fmtRead d w (off / 4) (n / 4)
    let bad := fun (i : Nat) => (u.fmtKeys d w (off + 4 * i) 4).any (fun k => u.poison.contains (k / 8))
    ((indexed 0 v).flatMap (fun e => (leBytes 4 e.2).map (fun b => (b, bad e.1))), host, f)

/-- Write a part of a transfer at offset `o4`; the flags of a window. -/
def State.partWrite (s : State) (q : EngWho) (m : CopyCmd) (p : CPl) (o4 : Nat) (l : List (Byte × Bool)) : State × Nat :=
  match p with
  | .key k => ((s.flushLines k l.length).pokeMarked k l, 0)
  | .host a => (s.pokeMarked (hostKey a) l, 0)
  | .win d w off =>
    let u := s.withWindows q m.owner d
    let n := l.length / 4
    let mode := resolveMode (bitsAt ((u.coreAt d).awdAt w) 5 3) m.rm
    let draws := if mode = 6 then (upTo (o4 / 4) n).map (fun i => srDraw m.seed (w64 m.owner.2.2) (m.base + w64 i)) else []
    let vals := (upTo 0 n).map (fun i => ofLeBytes (((l.drop (4 * i)).take 4).map (fun e => e.1)))
    let (t, f) := u.fmtWrite d w (off / 4) mode vals draws
    let bad := (upTo 0 n).filter (fun i => ((l.drop (4 * i)).take 4).any (fun e => e.2))
    let keys := bad.flatMap (fun i => u.fmtKeys d w (off + 4 * i) 4)
    ({ s with mem := t.mem,
              poison := keys.foldl (fun a k => if a.contains (k / 8) then a else a ++ [k / 8]) t.poison }, f)

/-! ## The transfer -/

/-- Bytes at rising offsets, each offset once. -/
def onceBytes {α : Type} (upto : Nat) (l : List (Nat × List α)) : List α :=
  match l with
  | [] => []
  | (o, b) :: r => b.drop (upto - o) ++ onceBytes (max upto (o + b.length)) r

/-- The rows of the source, from the bytes that were read; with EXP, SPITCH counts within the expanded operand. -/
def copyRows (d : List Byte) (l : List (Byte × Bool)) : List (List (Byte × Bool)) :=
  let e := cElem d
  if e = 0 then [l.take (cLen d)]
  else (upTo 0 (cRows d)).map (fun r => (l.drop (r * (if cFlag d 0 then cSp d else cCols d * e))).take (cCols d * e))

/-- The byte that ends at an offset of a transposed destination: the last element written there in ascending row, then
column. (Mark: DEDUCED, unsafe, log 78) -/
def transposed (d : List Byte) (rows : List (List (Byte × Bool))) (j : Nat) : Byte × Bool :=
  let e := cElem d
  let hit := (upTo 0 (cCols d)).foldl (fun (best : Option (Nat × Nat)) c =>
    let r := (j - c * cDp d) / e
    if c * cDp d ≤ j ∧ r < cRows d then
      (match best with
        | some (r0, c0) => if r0 ≤ r then some (r, c) else some (r0, c0)
        | none => some (r, c))
    else best) none
  match hit with
  | some (r, c) => nth (nth rows [] r) (0, false) (c * e + (j - c * cDp d) % e)
  | none => (0, false)

/-- Bytes of the transfer from an offset of its destination. (Mark: DEDUCED, unsafe, log 78) -/
def copyImage (d : List Byte) (rows : List (List (Byte × Bool))) (o n : Nat) : List (Byte × Bool) :=
  if cElem d = 0 then ((nth rows [] 0).drop o).take n else (upTo o n).map (transposed d rows)

/-- What a source gives: bytes in the order of its segments, the bytes of its checksum, flags, and the tiles read. -/
structure CSrc where
  data : List (Byte × Bool)
  sum : List Byte
  flags : Nat
  tiles : List (Nat × Nat)
  enough : Bool
deriving DecidableEq, Repr

/-- The bytes of a checksum over source segments, each address once. (Mark: DEDUCED, unsafe, log 77) -/
def segSum (d : List Byte) (l : List (Byte × Bool)) : List Byte :=
  if cElem d = 0 then l.map (fun p => p.1)
  else
    let n := cCols d * cElem d
    onceBytes 0 ((upTo 0 (cRows d)).map (fun r => (r * cSp d, ((l.drop (r * n)).take n).map (fun p => p.1))))

/-- An expanded operand as a source, where it has the bytes that the descriptor asks for. (Mark: DEDUCED, unsafe, log 78) -/
def expanded (d : List Byte) (raw : List Byte) (st : Stream) (va : W64) : Except GErr CSrc :=
  let l := if cElem d = 0 then st.data ++ st.scales else st.data
  let need := if cElem d = 0 then cLen d else (cRows d - 1) * cSp d + cCols d * cElem d
  if l.length < need ∨ (cElem d ≠ 0 ∧ st.type ≥ 3) then .error (.trap 0x0E va)
  else .ok { data := l.map (fun b => (b, false)), sum := raw, flags := 0, tiles := [], enough := true }

/-- The first miss of a side, then its first failure with its offset. (Mark: DEDUCED, unsafe, log 78) -/
def sideError (l : List (Nat × Nat × Nat × Except GErr CPl)) : Option (Nat × GErr) :=
  let parks := l.filterMap (fun p => match p.2.2.2 with
    | .error (.park c va w) => some (p.2.1, GErr.park c va w)
    | .error (.miss va w) => some (p.2.1, GErr.miss va w)
    | _ => none)
  let errs := l.filterMap (fun p => match p.2.2.2 with
    | .error e => some (p.2.1, e)
    | .ok _ => none)
  match parks, errs with
  | e :: _, _ => some e
  | [], e :: _ => some e
  | [], [] => none

/-- Read the parts of a side in order. -/
def State.partsRead (s : State) (q : EngWho) (o : Nat × W32 × Nat) (l : List (Nat × CPl)) (host : List Byte) :
    List (Byte × Bool) × Nat :=
  match l with
  | [] => ([], 0)
  | (n, p) :: r =>
    let (b, h, f) := s.partRead q o p n host
    let (bs, g) := s.partsRead q o r h
    (b ++ bs, fOr f g)

/-- How many bytes of parts come from the host link.
(Mark: DEDUCED, unsafe, log 46; DESIGN CHOICE, safe, log 79; DESIGN CHOICE, safe, log 134) -/
def hostBytes (l : List (Nat × CPl)) : Nat :=
  l.foldl (fun a p => match p.2 with
    | .host _ => a + p.1
    | _ => a) 0

/-- The parts of a source on this module. -/
def State.sourceParts (s : State) (q : EngWho) (o : Nat × W32 × Nat) (d : List Byte) : List (Nat × Nat × Nat × Except GErr CPl) :=
  (splitAll 65536 (cSrc d).toNat (copyFrom d)).map (fun p => (0, p.1, p.2, s.copyPart q o (cSrc d + w64 p.1) p.2 false))

/-- The tiles that a source on this module lies in. (Mark: DEDUCED, unsafe, log 76) -/
def State.sourceTiles (s : State) (q : EngWho) (o : Nat × W32 × Nat) (d : List Byte) : List (Nat × Nat) :=
  if cFlag d 0 then []
  else (splitAll 65536 (cSrc d).toNat (copyFrom d)).flatMap (fun p => s.partTiles q o (cSrc d + w64 p.1) p.2)

/-- The source on this module is read. -/
def State.sourceHere (s : State) (q : EngWho) (o : Nat × W32 × Nat) (d : List Byte) (host : List Byte) : Except GErr CSrc :=
  if cFlag d 0 then
    if (cSrc d).toNat % 64 ≠ 0 then .error (.trap 0x0E (cSrc d))
    else match s.readStream q (cSrc d) with
      | .error e => .error e
      | .ok (raw, st) => expanded d raw st (cSrc d)
  else
    let l := s.sourceParts q o d
    match sideError l with
    | some (_, e) => .error e
    | none =>
      let ps := l.filterMap (fun p => match p.2.2.2 with
        | .ok c => some (p.2.2.1, c)
        | .error _ => none)
      let (b, f) := s.partsRead q o ps host
      .ok { data := b, sum := segSum d b, flags := f, enough := decide (hostBytes ps ≤ host.length),
            tiles := s.sourceTiles q o d }

/-! ## Ends (R332, R337) -/

/-- Flags of a window are ORed into the issuing context's, at once or when its thread comes back.
(Mark: DEDUCED, unsafe, log 78) -/
def State.flagsTo (s : State) (o : Nat × W32 × Nat) (x f : Nat) : State :=
  if f = 0 then s
  else match s.threadCore o with
    | some c => s.setCtx c x ((s.ctxAt c x).orFlags f)
    | none =>
      let d : Deferred := { ten := o.1, ctxid := o.2.1, lcore := o.2.2, ctx := x, async := none, ui := none, flags := f }
      if s.away o then { s with deferred := s.deferred ++ [d] } else s

/-- A command ends. -/
def State.copyEnd (s : State) (c : Nat) (m : CopyCmd) (f : CopyCmd → CopyCmd) : State :=
  let s1 := s.updCopy c m.tag (fun k => { f k with got := [], out := [], parked := none })
  s1.setCluster (clusterOf c) { s1.clusterAt (clusterOf c) with busyAt := s.now }

/-- A command ends done: its user interrupt is sent. -/
def State.copyDone (s : State) (c : Nat) (m : CopyCmd) (scrc dcrc : W32) : State :=
  let s1 := s.copyEnd c m (fun k => { k with state := 2, scrc := scrc, dcrc := dcrc })
  if cFlag m.desc 4 then s1.uiTo m.owner m.ctx 2 (cTag m.desc) else s1

/-- A command ends with ENGINE_FAULT. (Mark: DESIGN CHOICE, unsafe, log 75) -/
def State.copyFault (s : State) (c : Nat) (m : CopyCmd) (cause off : Nat) (mask : W64) (bad : List (Nat × Nat)) (far : Bool) :
    State :=
  let s1 := s.copyEnd c m (fun k =>
    { k with state := 3, cause := BitVec.ofNat 8 cause, mask := mask, badTiles := bad, farBad := far })
  s1.asyncTo m.owner m.ctx 0x0E (w64 (m.tag.toNat + cause * 2 ^ 16 + 2 * 2 ^ 24 + off * 2 ^ 32))

/-- A miss parks the command (07 R147, ENG). (Mark: DEDUCED, unsafe, log 103) -/
def State.copyPark (s : State) (c : Nat) (m : CopyCmd) (cause : Nat) (va : W64) : State :=
  let bits := accBits false false false false true
  let p : Parked := { ten := m.owner.1, page := bitsAt va 16 39, bits := bits, va := va }
  ((s.updCopy c m.tag (fun k => { k with parked := some p })).countOn c 7 1).fqFault m.owner.1
    (newFault va cause c m.owner.2.1 bits)

/-- The cause of an engine's own failure. -/
def errCause (e : GErr) : Nat := match e with
  | .trap c _ => c
  | _ => 0x0E

/-- The source fails: nothing is written. (Mark: DESIGN CHOICE, unsafe, log 75) -/
def State.sourceFails (s : State) (c : Nat) (m : CopyCmd) (off : Nat) (e : GErr) : State :=
  match e with
  | .park cause va _ => s.copyPark c m cause va
  | .miss va wr => s.engMiss c m.ctx m.owner.1 m.pl va wr
  | .poison va => (s.copyFault c m 0x0E off 0 [] false).consumePoison c m.ctx va 4
  | e => s.copyFault c m (errCause e) off 0 [] false

/-! ## A transfer whose destinations are here -/

/-- The parts of the destinations with where they lie. (Mark: DESIGN CHOICE, unsafe, log 75) -/
def State.destParts (s : State) (c : Nat) (q : EngWho) (m : CopyCmd) : List (Nat × Nat × Nat × Except GErr CPl) :=
  (copyParts m.op s.modid c m.desc).map (fun p => (p.1, p.2.1, p.2.2.1, match p.2.2.2 with
    | none => Except.error (GErr.trap 0x05 (cDst m.desc))
    | some va =>
      if windowVa va && (cFlag m.desc 0 || decide (cElem m.desc ≠ 0 ∨ cLen m.desc % 4 ≠ 0)) then .error (.trap 0x0E va)
      else s.copyPart q m.owner va p.2.2.1 true))

/-- The tiles of a command's destinations, of those that `on` selects. -/
def State.destTiles (s : State) (c : Nat) (q : EngWho) (m : CopyCmd) (on : Nat → Bool) : List (Nat × Nat) :=
  (copyParts m.op s.modid c m.desc).flatMap (fun p => match p.2.2.2 with
    | some va => if on p.1 then s.partTiles q m.owner va p.2.2.1 else []
    | none => [])

/-- Write the parts, and read back what the destination checksum covers: destination `low` of a BCAST, else all. -/
def State.partsWrite (s : State) (q : EngWho) (m : CopyCmd) (rows : List (List (Byte × Bool)))
    (l : List (Nat × Nat × Nat × CPl)) : State × Nat :=
  l.foldl (fun (a : State × Nat) p =>
    let (t, f) := a.1.partWrite q m p.2.2.2 p.2.1 (copyImage m.desc rows p.2.1 p.2.2.1)
    (t, fOr a.2 f)) (s, 0)

/-- The bytes the destination checksum covers (R338). (Mark: DEDUCED, unsafe, log 77) -/
def State.destSum (s : State) (q : EngWho) (m : CopyCmd) (l : List (Nat × Nat × Nat × CPl)) : List Byte :=
  let low := match l with
    | p :: _ => p.1
    | [] => 0
  onceBytes 0 ((if m.op = 1 then l.filter (fun p => p.1 == low) else l).map (fun p =>
    (p.2.1, (match p.2.2.2 with
      | .host a => s.peekN (hostKey a) p.2.2.1
      | pl => (s.partRead q m.owner pl p.2.2.1 []).1.map (fun e => e.1)))))

/-- What the failed destinations leave, and the report. (Mark: DEDUCED, unsafe, log 76) -/
def State.destReport (s : State) (c : Nat) (q : EngWho) (m : CopyCmd) (failed : List Nat) (first : Nat × GErr) : State :=
  let bad := s.destTiles c q m (fun t => failed.contains t)
  let s1 := s.markTiles q m.owner bad true
  if m.op = 1 then
    let mask := failed.foldl (fun (a : W64) j => a ||| w64 (2 ^ j)) 0
    let s2 := s1.copyEnd c m (fun k =>
      { k with state := 3, cause := BitVec.ofNat 8 (errCause first.2), mask := mask, badTiles := bad })
    s2.asyncTo m.owner m.ctx 0x0F mask
  else s1.copyFault c m (errCause first.2) first.1 1 bad false

/-- Read source bytes are written to every destination that can take them; those flip. -/
def State.copyHere (s : State) (c : Nat) (q : EngWho) (m : CopyCmd) (src : CSrc) : State :=
  let parts := s.destParts c q m
  match sideError parts with
  | some (_, .park cause va _) => s.copyPark c m cause va
  | some (_, .miss va wr) => s.engMiss c m.ctx m.owner.1 m.pl va wr
  | err =>
    let failed := (parts.filterMap (fun p => match p.2.2.2 with
      | .error _ => some p.1
      | .ok _ => none)).foldl (fun a t => if a.contains t then a else a ++ [t]) []
    let good := parts.filterMap (fun p => match p.2.2.2 with
      | .ok pl => if failed.contains p.1 then none else some (p.1, p.2.1, p.2.2.1, pl)
      | .error _ => none)
    let tiles := s.destTiles c q m (fun t => ! failed.contains t)
    match (s.claimTiles q m.owner src.tiles).bind (fun u => u.claimTiles q m.owner tiles) with
    | none => s
    | some s1 =>
      let rows := copyRows m.desc src.data
      let (s2, f) := s1.partsWrite q m rows good
      let s3 := if cFlag m.desc 5 && ! good.isEmpty then s2.flipTiles q m.owner src.tiles else s2
      let dsum := s3.destSum q m good
      let s4 := (s3.flipTiles q m.owner tiles).flagsTo m.owner m.ctx (fOr src.flags f)
      match err with
      | none =>
        let crc := cFlag m.desc 3
        s4.copyDone c m (if crc then crc32c src.sum else 0) (if crc then crc32c dsum else 0)
      | some e => s4.destReport c q m failed e

/-! ## Sides on another module (02 R30; 03 R58) -/

/-- What a request of a copy asks: 0 write, 1 read, 2 flip of the destination, 3 mark it faulted, 4 abandon it, 5 read of
a stream, 6 flip of the source. -/
def State.copyRequest (s : State) (c : Nat) (m : CopyCmd) (fn off : Nat) (va : W64) (n : Nat) (l : List Byte) : State :=
  let b : Body := { op := .copyChunk, va := va, val := w64 fn, cmp := w64 off, nb := n, sel := m.tag.toNat, core := c, ctx := m.ctx,
                    ctxid := m.owner.2.1, pl := m.pl, bytes := l, reg := BitVec.ofNat 5 m.rm,
                    seed := m.seed, base := m.base + w64 (off / 4), lcore := m.owner.2.2 }
  let node := bitsAt va 56 8 % 64
  if s.reachable node then
    ((s.sendPacket { src := BitVec.ofNat 6 s.modid, dst := BitVec.ofNat 6 node, ten := BitVec.ofNat 4 m.owner.1,
                     stream := if fn = 1 ∨ fn = 5 then 0 else 2, body := b }).countOn c 9 1).updCopy c m.tag
      (fun k => { k with out := k.out ++ [off] })
  else s.updCopy c m.tag (fun k => k.answered off (some 8))

/-- An address leads to another module. -/
def State.farVa (s : State) (va : W64) : Bool :=
  decide (0x40 ≤ bitsAt va 56 8 ∧ bitsAt va 56 8 < 0x80 ∧ bitsAt va 56 8 % 64 ≠ s.modid)

/-- Bytes as a chunk carries them: a second half says which are poisoned, where one is. -/
def chunkBytes (l : List (Byte × Bool)) : List Byte :=
  l.map (fun p => p.1) ++ (if l.any (fun p => p.2) then l.map (fun p => BitVec.ofNat 8 (b2n p.2)) else [])
/-- The bytes of a chunk of `n`. -/
def chunkMarked (n : Nat) (l : List Byte) : List (Byte × Bool) :=
  (indexed 0 (l.take n)).map (fun p => (p.2, nth l 0 (n + p.1) != 0))

/-- Reads of the source: position in the bytes read, length and address. -/
def copyReads (d : List Byte) : List (Nat × Nat × W64) :=
  let seg := if cElem d = 0 then 0 else cCols d * cElem d
  ((indexed 0 (copyFrom d)).flatMap (fun p => (splitRange 4096 (cSrc d).toNat p.2.1 p.2.2 (p.2.2 / 4096 + 2)).map
    (fun r => (p.1 * seg + (r.1 - p.2.1), r.2, cSrc d + w64 r.1))))

/-- The bytes of a stream from `o` on, asked in parts. -/
def streamReads (d : List Byte) (o n : Nat) : List (Nat × Nat × W64) :=
  (splitRange 4096 (cSrc d).toNat o n (n / 4096 + 2)).map (fun r => (r.1, r.2, cSrc d + w64 r.1))

/-- The reads of a source on another module are sent. (Mark: DESIGN CHOICE, safe, log 79) -/
def State.askSource (s : State) (c : Nat) (m : CopyCmd) (fn : Nat) (l : List (Nat × Nat × W64)) : State :=
  l.foldl (fun (u : State) p => u.copyRequest c m fn p.1 p.2.2 p.2.1 []) (s.updCopy c m.tag (fun k => { k with phase := 1 }))

/-- What has arrived from another module, as a source; none while the rest of a stream is still to be asked for. -/
def farSource (d : List Byte) (l : List (Byte × Bool)) : Option (Except GErr CSrc) :=
  let raw := l.map (fun p => p.1)
  if ! cFlag d 0 then some (.ok { data := l, sum := segSum d l, flags := 0, tiles := [], enough := true })
  else match streamLen raw with
    | none => some (.error (.trap 0x0E (cSrc d)))
    | some n =>
      if raw.length < n then none
      else if l.any (fun p => p.2) then some (.error (.poison (cSrc d)))
      else match parseStream raw with
        | none => some (.error (.trap 0x0E (cSrc d)))
        | some st => some (expanded d raw st (cSrc d))

/-- The chunks of a destination on another module are sent; the checksums are those of what they carry.
(Mark: DESIGN CHOICE, safe, log 79) -/
def State.sendChunks (s : State) (c : Nat) (m : CopyCmd) (src : CSrc) : State :=
  let rows := copyRows m.desc src.data
  let into := splitAll 4096 (cDst m.desc).toNat (copyInto m.desc)
  let crc := cFlag m.desc 3
  let sum := onceBytes 0 (into.map (fun p => (p.1, (copyImage m.desc rows p.1 p.2).map (fun e => e.1))))
  let s1 := s.updCopy c m.tag (fun k =>
    { k with phase := 2, got := [], scrc := if crc then crc32c src.sum else 0, dcrc := if crc then crc32c sum else 0 })
  into.foldl (fun (u : State) p =>
    u.copyRequest c m 0 p.1 (cDst m.desc + w64 p.1) p.2 (chunkBytes (copyImage m.desc rows p.1 p.2))) s1

/-- The source is read: what becomes of it. (Mark: DESIGN CHOICE, unsafe, log 75) -/
def State.copyGo (s : State) (c : Nat) (q : EngWho) (m : CopyCmd) (src : CSrc) : State :=
  let s0 := if m.phase = 1 ∧ cFlag m.desc 5 then s.copyRequest c m 6 (2 ^ 25) (cSrc m.desc) 0 m.desc else s
  if m.op = 0 ∧ s.farVa (cDst m.desc) then
    if windowVa (cDst m.desc) && (cFlag m.desc 0 || decide (cElem m.desc ≠ 0 ∨ cLen m.desc % 4 ≠ 0)) then
      s0.copyFault c m 0x0E 0 1 [] false
    else match s0.claimTiles q m.owner src.tiles with
      | none => s
      | some s1 =>
        let s2 := if cFlag m.desc 5 then s1.flipTiles q m.owner src.tiles else s1
        (s2.flagsTo m.owner m.ctx src.flags).sendChunks c m src
  else s0.copyHere c q m src

/-- Every write of a command to another module has been answered: its tiles flip there, or are marked.
(Mark: DESIGN CHOICE, safe, log 79) -/
def State.copyClose (s : State) (c : Nat) (m : CopyCmd) : State :=
  let s1 := s.updCopy c m.tag (fun k => { k with phase := 3 })
  if bitsAt (cDst m.desc) 48 8 < 0xFE then s1
  else s1.copyRequest c m (if m.bad.isSome then 3 else 2) (2 ^ 25 + 1) (cDst m.desc) 0 m.desc

/-- A command with a side on another module ends. (Mark: DESIGN CHOICE, safe, log 79) -/
def State.copyFarEnd (s : State) (c : Nat) (m : CopyCmd) : State :=
  match m.bad with
  | none => s.copyDone c m m.scrc m.dcrc
  | some (off, cause) => s.copyFault c m cause.toNat (min off (cLen m.desc)) 1 [] (decide (bitsAt (cDst m.desc) 48 8 ≥ 0xFE))

/-- A turn of a command: it starts, goes on when the answers it waits for have come, or ends.
(Mark: DESIGN CHOICE, unsafe, log 75) -/
def State.copyTurn (s : State) (c : Nat) (m : CopyCmd) (host : List Byte) : State :=
  let d := m.desc
  let q : EngWho := { ten := m.owner.1, pl := m.pl, core := some c, ctx := m.ctx }
  let far := decide (m.op = 0) && s.farVa (cSrc d)
  if ! m.out.isEmpty then s
  else match m.phase with
    | 0 =>
      if windowVa (cSrc d) && (cFlag d 0 || decide (cElem d ≠ 0 ∨ cLen d % 4 ≠ 0)) then s.copyFault c m 0x0E 0 0 [] false
      else if far then
        if cFlag d 0 then s.askSource c m 5 (streamReads d 0 64) else s.askSource c m 1 (copyReads d)
      else (match s.claimTiles q m.owner (s.sourceTiles q m.owner d) with
        | none => s
        | some t => match t.sourceHere q m.owner d host with
          | .error e => s.sourceFails c m 0 e
          | .ok src => if src.enough then t.copyGo c q m src else s)
    | 1 =>
      let l := m.got.flatMap (fun p => p.2)
      (match m.bad with
        | some (off, cause) => s.copyFault c m cause.toNat (min off (cLen d)) 0 [] false
        | none => match farSource d l with
          | none => s.askSource c m 5 (streamReads d l.length (recNat (l.map (fun p => p.1)) 0 4 - l.length))
          | some (.error e) => s.sourceFails c m 0 e
          | some (.ok src) => s.copyGo c q m src)
    | 2 => s.copyClose c m
    | _ => s.copyFarEnd c m

/-- COPY_COMMAND_COMPLETE: the command of a core with a tag takes its next turn. -/
def execCopyCommandComplete (core : Nat) (tag : BitVec 16) (host : List Byte) (s : State) : Out :=
  match (s.coreAt core).copies.find? (fun m => decide (m.tag = tag ∧ m.state = 1)) with
  | none => .next s
  | some m =>
    if m.parked.isSome || (s.clusterAt (clusterOf core)).halted then .next s else .next (s.copyTurn core m host)

/-- An answer to a request of a copy arrives: bytes that were read, or a cause. -/
def State.copyAnswer (s : State) (asked : Packet) (cause : Option Byte) (bytes : List Byte) : State :=
  let off := asked.body.cmp.toNat
  let read := decide (asked.body.val = 1 ∨ asked.body.val = 5)
  s.updCopy asked.body.core (BitVec.ofNat 16 asked.body.sel) (fun k =>
    let k1 := k.answered off cause
    if read && cause.isNone then { k1 with got := Tab.set k1.got off (chunkMarked asked.body.nb bytes) } else k1)

/-- The command a request of another module belongs to, as its tiles are found here. -/
def packetCmd (p : Packet) (ctxid : W32) : CopyCmd :=
  { tag := 0, op := 0, owner := (p.ten.toNat, ctxid, 0), ctx := 0, pl := p.body.pl, desc := p.body.bytes, state := 1, cause := 0,
    scrc := 0, dcrc := 0, mask := 0, badTiles := [], parked := none, rm := p.body.reg.toNat, base := 0, seed := 0, phase := 0, out := [],
    got := [], bad := none, farBad := false }

/-- A descriptor with its two addresses taken to this module. -/
def localDesc (d : List Byte) : List Byte :=
  leBytes 8 (localVa (cSrc d)).toNat ++ leBytes 8 (localVa (cDst d)).toNat ++ d.drop 16

/-- Abandoned tiles flip to T with all of their bytes poisoned; no ring advances. -/
def State.abandonTiles (s : State) (q : EngWho) (o : Nat × W32 × Nat) (l : List (Nat × Nat)) : State :=
  (tileCores l).foldl (fun (u : State) d => match u.holderAt q o d with
    | some w => (match (u.coreAt d).view w with
      | some v =>
        let ts := (tilesAt l d).filter (fun t => v.badTiles.contains t)
        let v1 := v.tilesT ts
        let v2 : Core := { v1 with badTiles := v1.badTiles.filter (fun t => ! ts.contains t) }
        let units := ts.flatMap (fun t => upTo (poolKey d (1024 * t) / 8) 128)
        let u1 := u.setCore d ((u.coreAt d).putView w v2)
        { u1 with poison := u1.poison.filter (fun k => ! units.contains k) ++ units }
      | none => u)
    | none => u) s

/-- A request of a copy command of another module is served: an error, or bytes, flags of a window and the state.
(Mark: DESIGN CHOICE, safe, log 79) -/
def State.copyServe (s : State) (p : Packet) : Except GErr (List Byte × Nat × State) :=
  let q : EngWho := { ten := p.ten.toNat, pl := p.body.pl, core := none }
  let m := packetCmd p p.body.ctxid
  let va := localVa p.body.va
  let d := localDesc p.body.bytes
  let md : CopyCmd := { m with desc := d }
  match p.body.val.toNat with
  | 0 => match s.copyPart q m.owner va p.body.nb true with
    | .error e => .error e
    | .ok pl => match s.claimTiles q m.owner (s.partTiles q m.owner va p.body.nb) with
      | none => .error (.trap 0x0B va)
      | some s1 =>
        let l := chunkMarked p.body.nb p.body.bytes
        let (t, f) := s1.partWrite q
          { m with seed := p.body.seed, base := p.body.base, owner := (m.owner.1, m.owner.2.1, p.body.lcore) } pl 0 l
        .ok ([], f, t)
  | 1 => match s.copyPart q m.owner va p.body.nb false with
    | .error e => .error e
    | .ok (.host a) => .ok (s.peekN (hostKey a) p.body.nb, 0, s)
    | .ok pl => match s.claimTiles q m.owner (s.partTiles q m.owner va p.body.nb) with
      | none => .error (.trap 0x0B va)
      | some s1 =>
        let (b, _, f) := s1.partRead q m.owner pl p.body.nb []
        .ok (chunkBytes b, f, s1)
  | 2 => .ok ([], 0, s.flipTiles q m.owner (s.destTiles 0 q md (fun _ => true)))
  | 3 => .ok ([], 0, s.markTiles q m.owner (s.destTiles 0 q md (fun _ => true)) true)
  | 4 => .ok ([], 0, s.abandonTiles q m.owner (s.destTiles 0 q md (fun _ => true)))
  | 5 => (match s.streamRuns q va p.body.nb 2 with
    | .error e => .error e
    | .ok l => .ok (chunkBytes (l.flatMap (fun r => s.peekMarked q r.1 r.2)), 0, s))
  | _ => .ok ([], 0, s.flipTiles q m.owner ((splitAll 65536 (cSrc d).toNat (copyFrom d)).flatMap (fun r =>
      s.partTiles q m.owner (cSrc d + w64 r.1) r.2)))

/-! ## The instructions -/

/-- Draws that a destination window takes: one for each element (11 R219); for one of another module where the issuing
context's mode is SR. (Mark: DEDUCED, unsafe, log 78) -/
def State.copyDraws (s : State) (q : EngWho) (o : Nat × W32 × Nat) (d : List Byte) : Nat :=
  if windowVa (cDst d) && s.farVa (cDst d) then (if s.me.rm = 6 then cLen d / 4 else 0)
  else if windowVa (cDst d) then
    match (copyCore q (cDst d)).bind (fun k => s.viewAt q o k) with
    | some v => if resolveMode (bitsAt (v.awdAt (bitsAt (cDst d) 32 4)) 5 3) s.me.rm = 6 then cLen d / 4 else 0
    | none => 0
  else 0

/-- BCOPY (0), BCAST (1) and DEAL (2): the descriptor is read and the command issued. -/
def State.copyIssue (s : State) (i : Instr) (op : Nat) (d a : BitVec 5) : Out :=
  whenWf i s (onArray i s
    (let va := s.rd a
     if va.toNat % 64 ≠ 0 then .next (s.trap 0x03 va)
     else if (s.myCore.copies.filter (fun m => m.state == 1)).length ≥ 8 then s.wait 15
     else s.readRecord va 8 [] (fun b t =>
       if copyBad op b then .next (t.trap 0x05 va)
       else match t.myCore.thread with
         | none => .next t.retire
         | some o =>
           let k := t.myCore
           let q : EngWho := { ten := o.1, pl := t.me.pl, core := some t.core, ctx := t.ctx }
           let m : CopyCmd :=
             { tag := k.copyTag, op := op, owner := o, ctx := t.ctx, pl := t.me.pl, desc := b, state := 1, cause := 0, scrc := 0,
               dcrc := 0, mask := 0, badTiles := [], parked := none, rm := t.me.rm, base := t.me.rndctr,
               seed := t.jobseedOf t.core, phase := 0, out := [], got := [], bad := none, farBad := false }
           let keep := k.copies.filter (fun c => c.state == 1 || decide ((k.copyTag - c.tag).toNat < 16))
           let t1 := t.advanceRnd (t.copyDraws q o b)
           (t1.setMyCore { t1.myCore with copyTag := k.copyTag + 1, copies := keep ++ [m] }).done d (zext k.copyTag))))

/-- BCOPY (R334, R335). -/
def execBcopy (d a : BitVec 5) (s : State) : Out := s.copyIssue (.bcopy d a) 0 d a
/-- BCAST (R336). -/
def execBcast (d a : BitVec 5) (s : State) : Out := s.copyIssue (.bcast d a) 1 d a
/-- DEAL (R336). -/
def execDeal (d a : BitVec 5) (s : State) : Out := s.copyIssue (.deal d a) 2 d a

/-- A tag among the last 16 that the core issued. -/
def Core.copyBy (k : Core) (tag : BitVec 16) : Option CopyCmd :=
  if 1 ≤ (k.copyTag - tag).toNat ∧ (k.copyTag - tag).toNat ≤ 16 then k.copies.find? (fun m => m.tag == tag) else none

/-- The state word. (Mark: DEDUCED, unsafe, log 77) -/
def CopyCmd.word (m : CopyCmd) : W64 := w64 (m.state + m.cause.toNat * 2 ^ 8)

/-- `cstat.abandon`: the command's tiles that are still faulted, and the mask of the destinations they belong to.
(Mark: DEDUCED, unsafe, log 77) -/
def State.copyAbandon (s : State) (m : CopyCmd) : W64 × State :=
  let q : EngWho := { ten := m.owner.1, pl := m.pl, core := some s.core, ctx := m.ctx }
  let still := m.badTiles.filter (fun p => match s.viewAt q m.owner p.1 with
    | some v => v.badTiles.contains p.2
    | none => false)
  let c0 := (poolCore s.modid s.core (cDst m.desc)).getD 0
  let mask : W64 := if m.op = 1 then still.foldl (fun (a : W64) p => a ||| w64 (2 ^ (p.1 - c0))) 0
    else if still.isEmpty && ! m.farBad then 0 else 1
  let k := s.myCore
  let gone := fun (c : CopyCmd) => if c.tag = m.tag then { c with badTiles := [], farBad := false } else c
  let s1 := (s.abandonTiles q m.owner still).setMyCore
    { (s.abandonTiles q m.owner still).myCore with copies := k.copies.map gone }
  (mask, if m.farBad then s1.copyRequest s.core m 4 (2 ^ 25 + 2) (cDst m.desc) 0 m.desc else s1)

/-- CSTAT (R339). (Mark: DEDUCED, unsafe, log 77) -/
def execCstat (d a : BitVec 5) (sel : BitVec 3) (s : State) : Out :=
  whenWf (.cstat d a sel) s (onArray (.cstat d a sel) s
    (match s.myCore.copyBy ((s.rd a).setWidth 16) with
      | none => s.done d 0
      | some m => match sel.toNat with
        | 0 => s.done d m.word
        | 1 => if m.state = 1 then s.wait 15 else s.done d m.word
        | 2 => s.done d (if m.state = 2 then zext m.scrc else 0)
        | 3 => s.done d (if m.state = 2 then zext m.dcrc else 0)
        | 4 => s.done d m.mask
        | _ => (s.copyAbandon m).2.done d (s.copyAbandon m).1))

end Sys2Proof.Machine
end

