-- ==== Sys2Proof/Machine/Boot.lean ====
section
/-! DEFINITION. Cold boot (01 R19; 05 R90) and pod boot (05 R91 to R95): claims, the manifest, chunks, heartbeats and the
watchdog. -/

namespace Sys2Proof.Machine

open Sys2Proof

/-! ## Cold boot -/

/-- A core of firmware starts in its context 0. -/
def firmwareCtx (kind : CtxKind) (pl : Nat) (pc : W64) : Ctx :=
  { Ctx.reset with live := true, kind := kind, pc := pc, status := statusStart pl }

/-- A failing step of R90 holds the module in reset, its cause readable in DINFO. (Mark: DESIGN CHOICE, safe, log 13) -/
def State.bootFailed (s : State) (step : Nat) (code seg : Byte) : State :=
  { s with boot := { s.boot with boot := 2, fstep := step, fcode := code, fseg := seg } }

/-- HBM4E has trained: DINFO lists the stacks that did, each of at most 48 GB (01 R9), 786,432 frames.
(Mark: DESIGN CHOICE, safe, log 13) -/
def State.trained (s : State) (n : Nat) : State :=
  { s with boot := { s.boot with
      frames := ((upTo 0 8).filter (Config.stackTrains n)).map (fun i => (i, min (Config.trainedFrames i) 786432)) } }

/-- The optics have locked: the spars' delays are measured, and the port is reported (02 R25, R38; 05 R91).
(Mark: DESIGN CHOICE, safe, log 13) -/
def State.litUp (s : State) : State :=
  s.setFabric { s.measureAll.fabric with fpod := putBits s.fabric.fpod 32 6 Config.port.toNat, pllLock := true }

/-- The memory that firmware runs in: its table and the pool of tables (07 R139). (Mark: DESIGN CHOICE, safe, log 13) -/
def State.bootMemory (s : State) : State :=
  { s with mem := Config.bootImage.foldl (fun m p => memPut m p.1 p.2) s.mem,
           fwroot := w64 (Config.firmwareRoot % 2 ^ 36 * 65536), pool := Config.tablePool }

/-- A segment of a container from the boot flash is loaded at its LOADVA and verified (R89): a status and the state. -/
def State.loadSegment (s : State) (c : List Byte) (i : Nat) : Nat × State :=
  let e := sliceBytes c (512 + 448 * i) 448
  let s1 := (s.tenWrite 16 (w64 (recNat e 8 8)) (sliceBytes c (recNat e 24 8) (recNat e 16 8))).getD s
  s1.verifySegment 16 c i

/-- The segments of a container in order, up to the first that fails: its status and index. -/
def State.loadSegments (s : State) (c : List Byte) (i n : Nat) : Except (Nat × Nat) State :=
  match n with
  | 0 => .ok s
  | k + 1 => match s.loadSegment c i with
    | (0, t) => t.loadSegments c (i + 1) k
    | (st, _) => .error (st, i)

/-- The monitor core and the service cores start and join pod boot, and pod time counts from 0 (R90 steps 3 and 5; 01 R11).
(Mark: DESIGN CHOICE, safe, log 13) -/
def State.booted (s : State) : State :=
  let cores := (upTo 0 16).map (fun v => (4096 + v, { Core.reset with ctxs := [(0, firmwareCtx .service 1 (Config.firmwareEntry v))] }))
    ++ [(monitorCore, { Core.reset with ctxs := [(0, firmwareCtx .monitor 2 (Config.firmwareEntry 16))] })]
  { s.restartTime with
    cores := cores.foldl (fun t p => Tab.set t p.1 p.2) s.cores,
    boot := { s.boot with boot := 3, fstep := 0, fcode := 0, fseg := 0 } }

/-- A container of the boot flash: it cannot be read, or a segment fails, or all are loaded.
(Mark: DESIGN CHOICE, safe, log 13) -/
def State.loadContainer (s : State) (n which readStep step : Nat) (go : State → State) : State :=
  match Config.flash n which with
  | none => s.bootFailed readStep 0x80 0
  | some c => match s.loadSegments c 0 (max 1 (recNat c 6 2)) with
    | .error (st, i) => s.bootFailed step (BitVec.ofNat 8 st) (BitVec.ofNat 8 i)
    | .ok t => go t

/-- The boot ROM runs on the monitor core (R90; 01 R19): the PLLs lock, the monitor's container is read, HBM4E trains, the optics
lock, the container is verified and the monitor started, and it loads the service cores' firmware the same way. A failure of
the clock, the memory or the optics is no step of R90: FSTEP 0.
(Mark: DESIGN CHOICE, safe, log 11; DESIGN CHOICE, safe, log 13) -/
def State.bootRom (s : State) : State :=
  let n := s.free
  let s1 := { s with free := s.free + 1 }
  if ! Config.pllLocks n then s1.bootFailed 0 0x81 0
  else if (Config.flash n 0).isNone then s1.bootFailed 1 0x80 0
  else
    let s2 := s1.trained n
    if ! (upTo 0 8).all (Config.stackTrains n) then s2.bootFailed 0 0x82 0
    else if ! Config.opticsLock n then s2.bootFailed 0 0x83 0
    else s2.litUp.bootMemory.loadContainer n 0 1 2 (fun t => t.loadContainer n 1 4 4 State.booted)

/-- COLD_RESET: power is applied in A5; what the module held is gone, the host's memory is not.
(Mark: DEDUCED, unsafe, log 18) -/
def execColdReset (s : State) : Out :=
  if ! s.power.off then .next s
  else
    let s1 := s.moduleReset
    .next { s1 with mem := s1.mem.filter (fun c => decide (2 ^ 64 ≤ c.1)), poison := s1.poison.filter (fun u => decide (2 ^ 61 ≤ u)),
                    msixOut := [], hostAnswers := [], aer := 0 }.bootRom

/-- MODULE_RESET: as a cold reset, without power removal. (Mark: DEDUCED, unsafe, log 18) -/
def execModuleReset (s : State) : Out := .next s.moduleReset.bootRom

/-! ## Messages of pod boot -/

/-- A boot message to a module. -/
def State.bootSend (s : State) (m : Nat) (b : Body) : State :=
  s.sendPacket { src := BitVec.ofNat 6 s.ownNumber, dst := BitVec.ofNat 6 m, stream := 5, body := b }

/-- A boot message to every other module that the schedule connects. -/
def State.bootSendAll (s : State) (b : Body) : State :=
  ((upTo 0 s.calendar.1).filter (fun m => m != s.ownNumber)).foldl (fun (u : State) m => u.bootSend m b) s

/-- Change the state of pod boot. -/
def State.setBoot (s : State) (b : Boot) : State := { s with boot := b }

/-- A module has been heard from. (Mark: DEDUCED, unsafe, log 96) -/
def State.hear (s : State) (m : Nat) : State := s.setBoot { s.boot with heard := Tab.set s.boot.heard m s.now }

/-- A module was heard from within 50 ms. -/
def State.heardLately (s : State) (p : Nat × Nat) : Bool := decide (s.now < p.2 + 100000000)

/-- No lower-numbered module was heard from within 50 ms. -/
def State.lowestHeard (s : State) : Bool :=
  s.boot.heard.all (fun p => ! (decide (p.1 < s.ownNumber) && s.heardLately p))

/-- No other module was heard from within 50 ms. (Mark: DEDUCED, unsafe, log 85) -/
def State.alone (s : State) : Bool := s.boot.heard.all (fun p => p.1 == s.ownNumber || ! s.heardLately p)

/-- A claim of this module in a round (R92). -/
def State.makeClaim (s : State) (round : Nat) : Claim :=
  let t := s.podTime 0
  { num := BitVec.ofNat 6 s.ownNumber, round := round, mhash := s.boot.mhash, time := t,
    sig := Config.identitySign (Config.claimBytes s.ownNumber round s.boot.mhash t.toNat), cert := Config.identityCert }

/-- The module claims in a round: it leads, and sends its claim to every module. One that has heard no other stands alone.
(Mark: DEDUCED, unsafe, log 85) -/
def State.claimIn (s : State) (round : Nat) : State :=
  let c := s.makeClaim round
  let b := s.boot
  let s1 := s.setBoot { b with follows := some (s.ownNumber, round), leading := true, round := round, lastBeat := s.now,
                               bits := [], served := [], lastSent := [], boot := if b.boot = 3 ∧ s.alone then 0 else b.boot }
  let m : Body := { op := .claim, val := c.time, nb := round, sel := c.num.toNat, bytes := c.mhash ++ c.sig ++ c.cert }
  s1.bootSendAll m

/-- A claim's signature and certificate verify (R92). (Mark: DEDUCED, unsafe, log 96) -/
def claimVerifies (c : Claim) : Bool :=
  match Config.certModulus c.cert with
  | some n => rsaVerify (toBe 384 n) (Config.claimBytes c.num.toNat c.round c.mhash c.time.toNat) c.sig
  | none => false

/-- A claim of a round by a module outranks the one the module follows (R92). (Mark: DEDUCED, unsafe, log 96) -/
def Boot.outranked (b : Boot) (round num : Nat) : Bool :=
  match b.follows with
  | none => true
  | some (l, r) => decide (round > r ∨ (round = r ∧ num < l))

/-- CLAIM: at cold boot in round 1, later in the round that a watchdog began; a module whose own claim would not outrank the one
it follows makes none. (Mark: DEDUCED, unsafe, log 85) -/
def execClaim (s : State) : Out :=
  let round := max 1 s.boot.round
  if (s.boot.boot = 3 ∨ s.boot.boot = 0) ∧ s.fabric.boot ∧ s.lowestHeard ∧ s.boot.outranked round s.ownNumber then
    .next (s.claimIn round)
  else .next s

/-- The bitmap of verified chunks as bytes. -/
def Boot.bitmap (b : Boot) : List Byte :=
  (upTo 0 ((b.manifest.length + 7) / 8)).map (fun i =>
    BitVec.ofNat 8 (((upTo 0 8).filter (fun j => b.verified.contains (8 * i + j))).foldl (fun a j => a + 2 ^ j) 0))

/-- A leader abdicates (R93): chunks that have not been sent stay unsent, and each of its followers gets a notice that names the
last chunk it was sent, or none where it was sent none. -/
def State.abdicate (s : State) : State :=
  let unsent := fun (q : Queued) => q.pkt.body.op == .chunk && ! q.seqd
  let s1 := s.setFabric { s.fabric with sendq := Tab.mapV s.fabric.sendq (fun _ q => q.filter (fun e => ! unsent e)) }
  let s2 := s.boot.bits.foldl (fun (u : State) p =>
    let b : Body := match Tab.find s.boot.lastSent p.1 with
      | some i => { op := .abdicate, nb := 1, sel := i }
      | none => { op := .abdicate, nb := 0 }
    u.bootSend p.1 b) s1
  s2.setBoot { s2.boot with bits := [], served := [] }

/-- CLAIM_RECEIVE: a claim that verifies and outranks is accepted; a leader abdicates (R93), and the follower's bitmap goes
to the new leader (R94). (Mark: DEDUCED, unsafe, log 96) -/
def execClaimReceive (c : Claim) (s : State) : Out :=
  if ! claimVerifies c then .next s
  else
    let s1 := s.hear c.num.toNat
    if ! s1.boot.outranked c.round c.num.toNat then .next s1
    else
      let s2 := if s.boot.leading then s1.abdicate else s1
      let b := s2.boot
      let s3 := s2.setBoot { b with follows := some (c.num.toNat, c.round), leading := false, round := max b.round c.round,
                                    mhash := c.mhash, lastBeat := s.now, boot := if b.boot = 0 ∧ s.fabric.boot then 3 else b.boot }
      let bits : Body := { op := .bitmap, bytes := s3.boot.bitmap }
      .next (s3.bootSend c.num.toNat bits)

/-! ## The manifest and its chunks (R94) -/

/-- An entry of a manifest is laid out as R94 says, for index `i`. -/
def chunkEntryOk (e : List Byte) (i : Nat) : Bool :=
  let ty := recNat e 4 2
  recNat e 0 4 == i && decide (1 ≤ ty ∧ ty ≤ 4) && recNat e 6 2 == 0 && decide (recNat e 8 8 % (if ty = 1 then 65536 else 64) = 0)
    && decide (1 ≤ recNat e 16 8 ∧ recNat e 16 8 ≤ 2 ^ 24) && recNat e 56 8 == 0

/-- The chunk entries of a manifest that passes steps 1 to 3 of R89 and whose DATA segment is the one that was signed. -/
def manifestEntries (c : List Byte) : Option (List (List Byte)) :=
  match (upTo 0 (recNat c 6 2)).find? (fun i => recNat c (512 + 448 * i) 2 == 2) with
  | none => none
  | some i =>
    let e := sliceBytes c (512 + 448 * i) 448
    let modulus := sliceBytes c 64 384
    let data := sliceBytes c (recNat e 24 8) (recNat e 16 8)
    let n := recNat e 16 8 / 64
    let l := (upTo 0 n).map (fun j => sliceBytes data (64 * j) 64)
    if recNat c 8 8 ≠ c.length || ! containerOk c c.length i || ! keyAccepted modulus false
        || ! rsaVerify modulus (e.take 64) (sliceBytes e 64 384) || sha256 data != sliceBytes e 32 32
        || decide (recNat e 16 8 % 64 ≠ 0 ∨ n > 65536) || (indexed 0 l).any (fun p => ! chunkEntryOk p.2 p.1) then none
    else some l

/-- MANIFEST_RECEIVE. A manifest that is not the one its leader's claim names is refused. (Mark: DEDUCED, unsafe, log 86) -/
def execManifestReceive (bytes : List (BitVec 8)) (s : State) : Out :=
  let h := sha256 bytes
  if s.boot.follows.isSome && ! s.boot.leading && h != s.boot.mhash then .next s
  else match manifestEntries bytes with
    | none => .next s
    | some l =>
      let b := s.boot
      .next (s.setBoot { b with mhash := h, manifest := l, manifestMod := sliceBytes bytes 64 384, container := bytes,
                                verified := if h = b.mhash ∧ b.manifest = l then b.verified else [] })

/-- The entry of a manifest that a verified chunk adds to the attestation record. -/
def chunkRecord (e modulus : List Byte) : List Byte :=
  sliceBytes e 4 2 ++ sliceBytes e 8 16 ++ sliceBytes e 24 32 ++ sha256 modulus

/-- CHUNK_RECEIVE: a chunk of the module's leader is stored at LOADVA and verified by steps 4 and 5 of R89; one that fails
is discarded. The leader gets the new bitmap. (Mark: DEDUCED, unsafe, log 86) -/
def execChunkReceive (src : BitVec 6) (idx : Nat) (bytes : List (BitVec 8)) (s : State) : Out :=
  let b := s.boot
  let mine := match b.follows with
    | some (l, _) => decide (l = src.toNat) && ! b.leading
    | none => false
  match b.manifest.drop idx with
  | [] => .next s
  | e :: _ =>
    if ! mine || b.verified.contains idx || decide (bytes.length ≠ recNat e 16 8) || sha256 bytes != sliceBytes e 24 32
        || decide (s.fwAttest.log.length ≥ 1024) then .next s
    else match s.tenWrite 16 (w64 (recNat e 8 8)) bytes with
      | none => .next s
      | some s1 =>
        let s2 := { s1 with fwAttest := s1.fwAttest.extend (chunkRecord e b.manifestMod) }
        let s3 := s2.setBoot { b with verified := idx :: b.verified }
        let bits : Body := { op := .bitmap, bytes := s3.boot.bitmap }
        .next (s3.bootSend src.toNat bits)

/-- Parts of a message that is longer than a packet. -/
def State.sendParts (s : State) (m : Nat) (op : BodyOp) (idx : Nat) (bytes : List Byte) : State :=
  (upTo 0 ((bytes.length + 4095) / 4096)).foldl (fun (u : State) i =>
    let b : Body := { op := op, sel := idx, cmp := w64 (4096 * i), bytes := sliceBytes bytes (4096 * i) (min 4096 (bytes.length - 4096 * i)) }
    u.bootSend m b) s

/-- The bytes of a chunk, where the module holds it: it has verified it, or they stand in its memory.
(Mark: DEDUCED, unsafe, log 86) -/
def State.chunkBytes (s : State) (i : Nat) (e : List Byte) : Option (List Byte) :=
  match s.tenRead 16 (w64 (recNat e 8 8)) (recNat e 16 8) with
  | none => none
  | some l => if s.boot.verified.contains i || sha256 l == sliceBytes e 24 32 then some l else none

/-- A bitmap as bytes has a chunk. -/
def hasChunk (bits : List Byte) (i : Nat) : Bool := (nth bits 0 (i / 8)).getLsbD (i % 8)

/-- A leader sends a follower the manifest, and the chunks that its bitmap lacks in ascending index.
(Mark: DEDUCED, unsafe, log 86) -/
def State.sendMissing (s : State) (m : Nat) (bits : List Byte) : State :=
  (indexed 0 s.boot.manifest).foldl (fun (u : State) p =>
    if hasChunk bits p.1 then u
    else match u.chunkBytes p.1 p.2 with
      | none => u
      | some l => u.sendParts m .chunk p.1 l) (s.sendParts m .manifest 0 s.boot.container)

/-- The modules that the module can reach: those it has heard from within 50 ms. -/
def State.reached (s : State) : List Nat :=
  (s.boot.heard.filter (fun p => p.1 != s.ownNumber && s.heardLately p)).map (fun p => p.1)

/-- A leader that has collected the bitmap of every module it can reach sends each the chunks it lacks (R94), and when all are
full, its own included, pod boot ends (R95). (Mark: DEDUCED, unsafe, log 86) -/
def State.lead (s : State) : State :=
  if ! s.boot.leading || ! s.reached.all (fun m => (Tab.find s.boot.bits m).isSome) then s
  else
    let todo := s.boot.bits.filter (fun p => ! s.boot.served.contains p.1)
    let s1 := todo.foldl (fun (u : State) p => u.sendMissing p.1 p.2) s
    let s2 := s1.setBoot { s1.boot with served := s1.boot.served ++ todo.map (fun p => p.1) }
    let full := (indexed 0 s.boot.manifest).all (fun p =>
      s.reached.all (fun m => hasChunk (Tab.get s.boot.bits [] m) p.1) && (s.chunkBytes p.1 p.2).isSome)
    if s.boot.boot = 3 ∧ full then s2.setBoot { s2.boot with boot := 0 } else s2

/-! ## Heartbeats (R95) -/

/-- HEARTBEAT: a leader's, every 5 ms; it tells whether pod boot has ended. (Mark: DEDUCED, unsafe, log 86) -/
def execHeartbeat (s : State) : Out :=
  if s.boot.leading ∧ s.now ≥ s.boot.lastBeat + 10000000 then
    let s1 := s.lead
    let b : Body := { op := .heartbeat, nb := s1.boot.round, sel := b2n (s1.boot.boot == 0) }
    .next ((s1.setBoot { s1.boot with lastBeat := s.now }).bootSendAll b)
  else .next s

/-- LEADER_WATCHDOG: a follower that heard none for 50 ms starts a round, in which it claims if it is the lowest. -/
def execLeaderWatchdog (s : State) : Out :=
  let b := s.boot
  if b.leading ∨ b.follows.isNone ∨ ¬ s.fabric.boot ∨ s.now < b.lastBeat + 100000000 then .next s
  else
    let s1 := s.setBoot { b with round := b.round + 1, lastBeat := s.now }
    if s1.lowestHeard then .next (s1.claimIn s1.boot.round) else .next s1

/-- What a boot message of another module does on arrival; claims, manifests and chunks act once they are whole.
(Mark: DEDUCED, unsafe, log 86) -/
def State.bootMessage (s : State) (p : Packet) : State :=
  let m := p.src.toNat
  let s1 := s.hear m
  match p.body.op with
  | .heartbeat => match s1.boot.follows with
    | some (l, _) =>
      if l = m ∧ ! s1.boot.leading then
        let ended := decide (p.body.sel = 1) && (upTo 0 s1.boot.manifest.length).all s1.boot.verified.contains
        s1.setBoot { s1.boot with lastBeat := s.now, boot := if s1.boot.boot = 3 ∧ ended then 0 else s1.boot.boot }
      else s1
    | none => s1
  | .bitmap =>
    if s1.boot.leading then (s1.setBoot { s1.boot with bits := Tab.set s1.boot.bits m p.body.bytes }).lead else s1
  | _ => s1

end Sys2Proof.Machine
end

