-- ==== Sys2Proof/Machine/Remote.lean ====
section
/-! DEFINITION. Packets that arrive (02 R34 to R37; 03 R58): the sequence window, acknowledgements and replies at the
issuer, what a request of another module does here, and REPLAY (14 R284; 07 R148). -/

namespace Sys2Proof.Machine

open Sys2Proof

/-! ## Packets sent and not yet answered -/

/-- A packet of this module that an answer names. -/
def answers (m : BitVec 6) (ten : BitVec 4) (stream : BitVec 3) (seq : W32) (q : Packet) : Bool :=
  decide (q.dst = m ∧ q.ten = ten ∧ q.stream = stream ∧ q.seq = seq ∧ q.kind ≠ 1)

/-- The packet that an answer names: unacknowledged, or waiting to be sent again. -/
def State.findSent (s : State) (m : BitVec 6) (ten : BitVec 4) (stream : BitVec 3) (seq : W32) : Option Packet :=
  match s.fabric.unacked.find? (fun u => answers m ten stream seq u.pkt) with
  | some u => some u.pkt
  | none => s.fabric.sendq.findSome? (fun q =>
      (q.2.find? (fun e => e.seqd && answers m ten stream seq e.pkt)).map (fun e => e.pkt))

/-- A packet has been answered. -/
def State.dropSent (s : State) (q : Packet) : State :=
  let hit := answers q.dst q.ten q.stream q.seq
  let f := s.fabric
  s.setFabric { f with unacked := f.unacked.filter (fun u => ! hit u.pkt),
                       sendq := Tab.mapV f.sendq (fun _ l => l.filter (fun e => ! (e.seqd && hit e.pkt))) }

/-- The request is the kind whose reply is its acknowledgement. (Mark: DEDUCED, unsafe, log 82) -/
def needsReply (q : Packet) : Bool :=
  decide (q.kind = 0) && (match q.body.op with
    | .ld | .amo | .redf | .ldv | .stv | .verq | .cont | .estate | .sendMsg | .graphOpen | .graphObject | .graphFinish => true
    | .copyChunk => decide (q.body.val = 1 ∨ q.body.val = 5)
    | _ => false)

/-- Change the walk that a packet of a GSEND belongs to. -/
def State.updWalk (s : State) (q : Packet) (f : GWalk → GWalk) : State :=
  { s with walks := s.walks.map (fun w => if w.core = q.body.core ∧ w.ctx = q.body.ctx ∧ w.waiting.isSome then f w else w) }

/-- The wait of a walk's context: whether the receiver has parked. -/
def State.walkWaits (s : State) (q : Packet) (was code : Nat) : State :=
  let x := s.ctxAt q.body.core q.body.ctx
  if x.stall = was then s.setCtx q.body.core q.body.ctx { x with stall := code } else s

/-- A packet of a GSEND. -/
def isGraph (q : Packet) : Bool := match q.body.op with
  | .graphOpen | .graphObject | .graphFinish => true
  | _ => false

/-- Flags that a window raised at another module reach the issuing context. -/
def State.farFlags (s : State) (q : Packet) (f : Nat) : State :=
  match s.issuer q with
  | some o => s.flagsTo o q.body.ctx f
  | none => s

/-- The flags of a store through a window of another module reach its issuer. -/
def State.farStored (s : State) (q : Packet) (f : Nat) : State :=
  if f = 0 then s
  else match (s.issuer q).bind s.threadCore with
    | some c => s.setCtx c q.body.ctx ((s.ctxAt c q.body.ctx).lateFlags f q.body.cmp)
    | none => s.farFlags q f

/-- The acknowledgement of a drain marker of this drain: with the last one the module has drained (02 R43). -/
def State.markerAcked (s : State) (q : Packet) : State :=
  let f := s.fabric
  if q.body.sel ≠ f.drains then s else
  let left := f.markers.filter (fun k => k != flowKey q.dst.toNat q.ten.toNat q.stream.toNat)
  s.setFabric { f with markers := left, rig := if f.rig = 1 ∧ left.isEmpty then 2 else f.rig }

/-- The acknowledgement of a reply frees its entry in the reply cache (02 R36). (Mark: DEDUCED, unsafe, log 82) -/
def State.freeCached (s : State) (q : Packet) : State :=
  let key := flowKey q.dst.toNat q.ten.toNat q.body.sel
  s.setFabric { s.fabric with cache := s.fabric.cache.filter (fun e => ! decide (e.1 = key ∧ e.2.1.toNat = q.body.cmp.toNat)) }

/-- An acknowledgement arrives. PENDING stops the timer (03 R58); a plain one to a request that awaits a reply is
ignored (02 R35). -/
def State.ackArrive (s : State) (p : Packet) : State :=
  match s.findSent p.src p.ten p.stream p.seq with
  | none => s
  | some q =>
    if p.spec = 1 then
      let hit := answers p.src p.ten p.stream p.seq
      let f := s.fabric
      let s1 := s.setFabric { f with unacked := f.unacked.map (fun u => if hit u.pkt then { u with stopped := true } else u) }
      if isGraph q then s1.walkWaits q stGraph stGsend else s1
    else if needsReply q then s
    else
      let s1 := s.dropSent q
      if q.kind = 2 then s1.markerAcked q
      else if q.kind ≠ 0 then s1
      else if q.stream = 1 then s1.freeCached q
      else match q.body.op with
        | .copyChunk => (s1.copyAnswer q none []).farFlags q p.body.nb
        | .st => s1.farStored q p.body.nb
        | _ => s1

/-! ## Replies -/

/-- A request that was answered RETRY is sent again (08 R157), unless its context no longer waits. One whose context is to be
pre-empted is withdrawn: it has had no effect, and its instruction executes again (08 R158). (Mark: DEDUCED, unsafe, log 104) -/
def State.retryAsked (s : State) (q : Packet) : State :=
  let c := q.body.core
  if (awaitsReply q.body.op || q.body.op = .stv) && (s.pendIn q).isNone then s
  else if waitsHere q.body && ((s.ctxAt c q.body.ctx).preempted || (s.coreAt c).saving.isSome) then s.dropPend q
  else s.sendPacket { q with seq := 0 }

/-- A reply that carries a cause (03 R58). -/
def State.faultAsked (s : State) (q p : Packet) : State :=
  let cause : Byte := BitVec.ofNat 8 p.body.val.toNat
  if isGraph q then (s.updWalk q (fun w => w.answer (graphAnswer p))).walkWaits q stGsend stGraph
  else if q.body.op = .copyChunk then s.copyAnswer q (some cause) []
  else s.reportFail q false cause

/-- The value of a reply reaches the pending request. -/
def State.valuePend (s : State) (q p : Packet) : State :=
  let c := q.body.core
  let x := q.body.ctx
  match s.pendIn q with
  | none => s
  | some (i, r) =>
    if q.body.op = .amo ∧ q.body.bytes ≠ [] then
      let s1 := s.dropPend q
      s1.setCtx c x { s1.ctxAt c x with
        amodReply := (s1.ctxAt c x).amodReply ++ [(w64 (recNat q.body.bytes 0 8), p.body.val)] }
    else if waitsHere q.body then s.grantPend q (fun _ => p.body.val)
    else
      let k := s.ctxAt c x
      let s1 := s.setCtx c x { k with pends := setNth k.pends i { r with got := p.body.bytes } }
      s1.receive c x i { r with got := p.body.bytes } p.body.val

/-- A message was taken, or refused FULL (03 R61). (Mark: DEDUCED, unsafe, log 82) -/
def State.sendAnswered (s : State) (q : Packet) (full : Bool) : State :=
  if ! full then s.popSent q
  else
    let c := q.body.core
    let k := s.coreAt c
    match k.injq with
    | m :: r => if m.sent && m.isOf q then s.setCore c { k with injq := { m with sent := false } :: r, rej := true, rejAt := some s.now } else s
    | [] => s

/-- A reply with a value. Bit 0 of the flags field says that it is poisoned, the others are the flags of a window. -/
def State.valueAsked (s : State) (q p : Packet) : State :=
  let c := q.body.core
  let poisoned := decide (p.body.nb % 2 = 1)
  let s1 := if poisoned then s.consumePoison c q.body.ctx q.body.va (if q.body.op = .red then 4 else 1) else s
  let s2 := s1.farFlags q (p.body.nb / 2)
  if isGraph q then (s2.updWalk q (fun w => w.answer (graphAnswer p))).walkWaits q stGsend stGraph
  else match q.body.op with
    | .copyChunk => s2.copyAnswer q none p.body.bytes
    | .sendMsg => s2.sendAnswered q (p.body.val == 1)
    | _ => s2.valuePend q p

/-- A reply arrives at the issuer; one whose request has been answered is discarded. -/
def State.replyArrive (s : State) (p : Packet) : State :=
  match s.findSent p.src p.ten (BitVec.ofNat 3 p.body.sel) (BitVec.ofNat 32 p.body.cmp.toNat) with
  | none => s
  | some q => match p.body.op with
    | .retry => (s.dropSent q).retryAsked q
    | .replyFault => (s.dropSent q).faultAsked q p
    | _ => (s.dropSent q).valueAsked q p

/-! ## Where a request of another module leads (03 R58) -/

/-- The tenant of a request: firmware's for one that a service core or the monitor issued. (Mark: DEDUCED, unsafe, log 81) -/
def farTen (p : Packet) : Nat := if isArray p.body.core then p.ten.toNat else 16

/-- A place here, a cause, or a page to park on. -/
inductive Far where
  | keys (l : List Nat)
  | place (p : Place)
  | fail (cause : Nat)
  | park (k : Parked) (cause : Nat)
deriving DecidableEq, Repr

/-- The cluster whose TLB serves a request: that of the issuing core's number; none for a service core's.
(Mark: DESIGN CHOICE, unsafe, log 63) -/
def farCluster (p : Packet) : Option Nat := if isArray p.body.core then some (clusterOf p.body.core) else none

/-- A request that writes. -/
def farWrites (o : BodyOp) : Bool := match o with
  | .ld => false
  | .ldv => false
  | .verq => false
  | _ => true

/-- The leaf of a request's page enters the TLB of the cluster that serves it, where its walk succeeds (07 R143).
(Mark: DESIGN CHOICE, unsafe, log 63) -/
def State.farFill (s : State) (p : Packet) : State :=
  let va := localVa p.body.va
  match farCluster p with
  | none => s
  | some cl =>
    if bitsAt va 48 8 ≥ 0x80 || (s.clusterTlb cl (farTen p) (bitsAt va 16 39)).isSome
        || ! [.ld, .st, .amo, .red, .redf, .ldv, .stv, .reclaim, .verq, .estate].contains p.body.op then s
    else match s.walk (farTen p) va p.body.pl (farWrites p.body.op) false with
      | .leaf t => s.clusterFill cl t
      | _ => s

/-- One page of a request: its leaf, or what ends the request. Misalignment is judged from the leaf, before its permission
(09 R173). -/
def State.farLeaf (s : State) (p : Packet) (va : W64) (wr mis ver : Bool) : Far ⊕ TlbEnt :=
  let ten := farTen p
  let strict := fun (t : TlbEnt) => mis && (decide (pteVD t.pte ≠ 0) || pteS t.pte)
  let hit := (farCluster p).bind (fun cl => s.clusterTlb cl ten (bitsAt va 16 39))
  match (match hit with
    | some t => if permitted t.pte p.body.pl (decide (16 ≤ ten)) wr false then WalkRes.leaf t else .fail 0x05
    | none => s.walk ten va p.body.pl wr false) with
  | .leaf t => if strict t then .inl (.fail 0x03) else .inr t
  | .park c =>
    let k : Parked := { ten := ten, page := bitsAt va 16 39, bits := accBits (! wr) wr false ver false, va := va }
    .inl (.park k c)
  | .fail c => match s.walk ten va 1 false false with
    | .leaf t => .inl (.fail (if strict t then 0x03 else c))
    | _ => .inl (.fail c)

/-- A paged request. (Mark: DEDUCED, unsafe, log 81) -/
def State.farPaged (s : State) (p : Packet) (va : W64) (nb : Nat) (wr ver : Bool) : Far :=
  let n1 := min nb (65536 - va.toNat % 65536)
  match s.farLeaf p va wr (decide (va.toNat % nb ≠ 0)) ver with
  | .inl r => r
  | .inr t =>
    if n1 = nb then
      (if pteVD t.pte ≠ 0 then .place (.vers (pteFrame t.pte) (vdDepth (pteVD t.pte)) (va.toNat % 65536))
       else if pteS t.pte then .place (.sync (t.pa va))
       else .keys (upTo (t.pa va) nb))
    else match s.farLeaf p (va + w64 n1) wr true ver with
      | .inl r => r
      | .inr t2 => .keys (upTo (t.pa va) n1 ++ upTo (t2.pa (va + w64 n1)) (nb - n1))

/-- A request to a core pool. (Mark: DEDUCED, unsafe, log 81) -/
def State.farPool (s : State) (p : Packet) (tgt : Nat) (va : W64) (nb : Nat) : Far :=
  let win := bitsAt va 32 4
  let o := bitsAt va 0 18
  let k := s.coreAt tgt
  let rect := s.inRect (farTen p) (clusterOf tgt)
  if win = 0 then
    (if bitsAt va 18 14 ≠ 0 then .fail 0x05
     else if ! rect then .fail 0x07
     else match k.poolCheck o nb with
       | some (cause, _) => .fail cause
       | none => .keys (upTo (poolKey tgt o) nb))
  else if win ≤ 7 then
    (if va.toNat % 4 ≠ 0 ∨ nb % 4 ≠ 0 then .fail 0x03
     else if ! rect then .fail 0x07
     else match k.fmtCheck win (bitsAt va 0 32) nb with
       | some cause => .fail cause
       | none => .place (.fmt tgt win (bitsAt va 0 32)))
  else .fail (if va.toNat % nb ≠ 0 then 0x03 else 0x05)

/-- Where a request leads. Its rectangle is the tenant's here; its own-pool space is that of the issuing core's number.
(Mark: DEDUCED, unsafe, log 81) -/
def State.farResolve (s : State) (p : Packet) (nb : Nat) (wr ver : Bool) : Far :=
  let va := localVa p.body.va
  let sp := bitsAt va 48 8
  let mis := decide (va.toNat % nb ≠ 0)
  if sp < 0x80 then s.farPaged p va nb wr ver
  else if sp = 0xFC then
    (if mis then .fail 0x03
     else if farTen p = 16 ∨ bitsAt va 0 48 ≥ (s.tenantAt (farTen p)).hwsize.toNat % 2 ^ 32 * 4096 then .fail 0x05
     else .place (.host ((s.tenantAt (farTen p)).hwbase.toNat + bitsAt va 0 48)))
  else if sp = 0xFD then
    (if bitsAt va 22 18 ≠ 0 then .fail 0x05
     else if ! s.inRect (farTen p) (bitsAt va 40 8) then .fail 0x07
     else if bitsAt va 0 22 + nb > 2 ^ 22 then .fail 0x05
     else .keys (upTo (cmemKey (bitsAt va 40 8) (bitsAt va 0 22)) nb))
  else if sp = 0xFE then s.farPool p (bitsAt va 36 12) va nb
  else if sp = 0xFF ∧ isArray p.body.core ∧ bitsAt va 36 12 = 0 then s.farPool p p.body.core va nb
  else .fail (if mis then 0x03 else 0x05)

/-! ## What a request does here -/

/-- What a request of another module comes to: it is complete, with a reply or a plain acknowledgement; it waits here,
answered PENDING or not at all; or it is parked. -/
inductive Served where
  | done (s : State) (reply : Option Packet)
  | later (s : State) (pending : Bool)
  | parked (k : Parked) (cause : Nat)
deriving DecidableEq, Repr

/-- A reply with a value. -/
def State.valued (s : State) (p : Packet) (v : W64) : Served := .done s (some (s.replyTo p .reply v))
/-- A reply with a cause. -/
def State.failed (s : State) (p : Packet) (cause : Nat) : Served := .done s (some (s.replyTo p .replyFault (w64 cause)))
/-- A reply whose value is poisoned, or with the flags of a window. -/
def State.marked (s : State) (p : Packet) (v : W64) (poisoned : Bool) (flags : Nat) : Served :=
  let r := s.replyTo p .reply v
  .done s (some { r with body := { r.body with nb := b2n poisoned + 2 * flags } })
/-- The answer RETRY. (Mark: DEDUCED, unsafe, log 83) -/
def State.retried (s : State) (p : Packet) : Served := .done s (some (s.replyTo p .retry 0))

/-- The place of a request with a cause or a miss taken out. (Mark: DEDUCED, unsafe, log 83) -/
def State.farAt (s : State) (p : Packet) (nb : Nat) (wr ver : Bool) (k : Far → Served) : Served :=
  match s.farResolve p nb wr ver with
  | .fail c => s.failed p c
  | .park q c => .parked q c
  | .keys l => if s.keysWait l then s.retried p else k (.keys l)
  | f => k f

/-- Bytes and poison at keys. -/
def State.farRead (s : State) (l : List Nat) : Nat × Bool :=
  (ofLeBytes (l.map s.peek), l.any (fun j => s.poison.contains (j / 8)))

/-- LD. A read of the host window is answered by the host: a free value. -/
def State.serveLd (s : State) (p : Packet) : Served :=
  let nb := p.body.nb
  s.farAt p nb false false (fun f => match f with
    | .keys l =>
      let s1 := s.claimKeys l
      s1.marked p (w64 (s1.farRead l).1) (s1.farRead l).2 0
    | .place (.vers fr d o) =>
      let h := verHeader fr o
      s.marked p (w64 (ofLeBytes (((s.verPlain h d).drop (o % 8)).take nb))) (s.poisoned (verSlot h d (s.verCur h)) 8) 0
    | .place (.sync pa) => s.marked p (w64 (s.peekLe pa nb)) (s.poisoned pa nb) 0
    | .place (.fmt c w o) =>
      let s1 := s.claimFmt c w o nb
      let (v, g) := s1.fmtValue c w o nb
      s1.marked p (w64 v) ((s1.fmtKeys c w o nb).any (fun k => s1.poison.contains (k / 8))) g
    | .place (.host _) => s.draw.2.valued p s.draw.1
    | _ => s.failed p 0x05)

/-- Bytes of another module are written at keys; buffered stores to them drain first. -/
def State.farPut (s : State) (l : List Nat) (bytes : List Byte) : State :=
  match l with
  | [] => s
  | k :: _ =>
    let n := keyRun (k + 1) (l.drop 1) + 1
    let s1 := ((s.claimKeys l).flushLines k n).pokeN k (bytes.take n)
    if n < l.length then (s1.flushLines (nth l 0 n) (l.length - n)).pokeN (nth l 0 n) (bytes.drop n) else s1

/-- A creation by a request: done, waiting behind a promise or the floor, or refused while the version units are full. -/
def State.farCreate (s : State) (p : Packet) (h d o : Nat) (bytes : List Byte) (k : State → Served) : Served :=
  let w : Waiter := { kind := .create, key := h, core := 0, ctx := 0, since := s.now, remote := some p,
                      bytes := [BitVec.ofNat 8 o, BitVec.ofNat 8 d] ++ bytes }
  let wait := fun (kind : WaitKind) =>
    if s.unitsFull h then s.retried p else Served.later { s with waiters := s.waiters ++ [{ w with kind := kind }] } false
  let g := s.waiterGroup w
  if ! s.mayCreate h g.1 g.2 then wait .heldBack
  else if s.creationsWait h then wait .create
  else match s.verCreate h d o bytes with
    | some t => k ((t.fulfil h).serveWord h)
    | none => wait .create

/-- The acknowledgement of a write through a window, with the flags that it raised. (Mark: DEDUCED, unsafe, log 82) -/
def State.flagAck (s : State) (p : Packet) (f : Nat) : Option Packet :=
  if f = 0 then none else
    let a := s.ackTo p 0
    some { a with body := { a.body with nb := f } }

/-- ST. The flags of a window go back with the acknowledgement; where its issuer has one enabled, nothing is written. -/
def State.serveSt (s : State) (p : Packet) : Served :=
  let nb := p.body.nb
  let bytes := leBytes nb p.body.val.toNat
  s.farAt p nb true false (fun f => match f with
    | .keys l => .done (s.farPut l bytes) none
    | .place (.vers fr d o) => s.farCreate p (verHeader fr o) d (o % 8) bytes (fun t => .done t none)
    | .place (.sync pa) => .done (s.pokeCell pa bytes) none
    | .place (.host a) => .done (s.pokeN (hostKey (a % 2 ^ 64)) bytes) none
    | .place (.fmt c w o) =>
      let mode := resolveMode (bitsAt ((s.coreAt c).awdAt w) 5 3) p.body.sel
      let n := nb / 4
      let draws := (upTo 0 n).map (fun i => srDraw p.body.seed (w64 p.body.lcore) (p.body.base + w64 i))
      let s1 := s.claimFmt c w o nb
      let (t, g) := s1.fmtWrite c w (o / 4) mode ((upTo 0 n).map (fun i => p.body.val.toNat / 2 ^ (32 * i) % 2 ^ 32)) draws
      .done (if Nat.land g p.body.reg.toNat ≠ 0 then s1 else t) (s.flagAck p g)
    | _ => s.failed p 0x05)

/-- AMO and RED. -/
def State.serveAmo (s : State) (p : Packet) (posted : Bool) : Served :=
  let nb := p.body.nb
  let go := fun (key : Nat) (l : List Nat) =>
    if s.poisoned key nb then s.marked p 0 true 0
    else
      let (t, v) := ((s.claimKeys l).flushLines key nb).amoAt key nb p.body.sel p.body.val p.body.cmp
      if posted then .done t none else t.valued p v
  if (localVa p.body.va).toNat % nb ≠ 0 then s.failed p 0x03
  else s.farAt p nb true false (fun f => match f with
    | .keys (key :: r) => go key (key :: r)
    | .place (.sync pa) => go pa []
    | _ => s.failed p 0x05)

/-- REDF: one that awaits the others is answered PENDING. -/
def State.serveRedf (s : State) (p : Packet) : Served :=
  if (localVa p.body.va).toNat % 64 ≠ 0 then s.failed p 0x03
  else s.farAt p 64 true false (fun f => match f with
    | .place (.sync pa) =>
      (match s.redf pa (p.body.sel % 4) (p.body.sel / 4) p.body.cmp.toNat p.body.val (some p) with
      | none => s.failed p 0x05
      | some (some v, t) => t.valued p v
      | some (none, t) => .later t true)
    | _ => s.failed p 0x05)

/-- A versioned word that a request names. -/
def State.farWordAt (s : State) (p : Packet) (wr : Bool) (k : Nat → Nat → Served) : Served :=
  if (localVa p.body.va).toNat % 8 ≠ 0 then s.failed p 0x03
  else s.farAt p 8 wr true (fun f => match f with
    | .place (.vers fr d o) => k (verHeader fr o) d
    | _ => s.failed p 0x05)

/-- LDV, STV, RECLAIM and VERQ. (Mark: DEDUCED, unsafe, log 104) -/
def State.serveVersion (s : State) (p : Packet) : Served :=
  match p.body.op with
  | .ldv => s.farWordAt p false (fun h d =>
      let v : W32 := p.body.val.setWidth 32
      match s.verRead h d v with
      | some (some r) => s.marked p r (s.poisoned (verSlot h d v) 8) 0
      | some none => s.failed p 0x09
      | none =>
        if s.unitsFull h then s.retried p
        else
          let w : Waiter := { kind := .readV v, key := h, core := 0, ctx := 0, since := s.now, remote := some p,
                              bytes := [0, BitVec.ofNat 8 d] }
          .later { s with waiters := s.waiters ++ [w] } false)
  | .stv => s.farWordAt p true (fun h d =>
      s.farCreate p h d 0 (leBytes 8 p.body.val.toNat) (fun t => t.valued p (zext (t.verCur h))))
  | .reclaim => s.farWordAt p true (fun h _ => ((s.verRaise h (p.body.val.setWidth 32)).serveWord h).valued p 0)
  | _ => s.farWordAt p false (fun h _ => s.valued p (s.verWords h))

/-- A lock or estate operation at the Cleat here. Requests of a launch whose death it has taken are discarded (03 R62).
(Mark: DEDUCED, unsafe, log 55) -/
def State.serveEstate (s : State) (p : Packet) : Served :=
  let va := localVa p.body.va
  let kind := p.body.cmp.toNat
  let op := EstOp.ofCode p.body.sel
  let ten := farTen p
  let ask : EstAsk := { op := op, kind := kind, ten := ten, ctxid := p.body.ctxid, group := BitVec.ofNat 32 (recNat p.body.bytes 0 4),
                        ref := w64 (va.toNat % 2 ^ 56), heir := p.body.val }
  let at' := fun (home : Nat) =>
    if s.spans ten p.body.ctxid p.src.toNat && s.deaf (keyDie home) ten p.body.ctxid then Served.done s none
    else match s.estateOp home ask with
      | some (v, bytes, t) =>
        let r := t.replyTo p .reply v
        .done t (some { r with body := { r.body with bytes := bytes } })
      | none =>
        let w : Waiter := { kind := .lock, key := home, core := 0, ctx := 0, since := s.now, remote := some p, bytes := ask.lockBytes }
        .later { s with waiters := s.waiters ++ [w] } false
  if va.toNat % 8 ≠ 0 then s.failed p (if kind = 1 then 0x03 else 0x05)
  else s.farAt p 8 (op != .read) (kind == 3) (fun f => match f with
    | .place (.sync pa) => if kind = 1 then at' pa else s.failed p 0x05
    | .place (.vers fr _ o) => if kind = 3 then at' (verHeader fr o) else s.failed p 0x05
    | _ => s.failed p 0x05)

/-- A message: taken, or FULL. -/
def State.serveMessage (s : State) (p : Packet) : Served :=
  let c := p.body.sel
  let m : Msg := { bytes := p.body.bytes, srcCore := p.body.core, srcMod := p.src.toNat, remote := true }
  if ! isArray c || ! s.inRect (farTen p) (clusterOf c) then s.failed p 0x07
  else if s.barred p.ten.toNat p.body.ctxid c then .done s none
  else match s.takeMessage c m with
    | some t => t.valued p 0
    | none => s.valued p 1

/-- A continuation record is on its way to its home here. -/
def State.serveCont (s : State) (p : Packet) : Served :=
  match s.launchBy p.ten.toNat p.body.ctxid with
  | none => s.failed p 0x05
  | some l =>
    let r : ContRec := { bytes := p.body.bytes, ctxid := l.ctxid, ten := l.ten, key := localVa p.body.va, home := homeOf l (localVa p.body.va), core := 0, ctx := 0,
                         remote := some p }
    .later { s with contFlight := s.contFlight ++ [r] } false

/-- A request of a copy engine. -/
def State.serveCopy (s : State) (p : Packet) : Served :=
  match s.copyServe p with
  | .ok (bytes, f, t) =>
    if p.body.val = 1 ∨ p.body.val = 5 then
      let r := t.replyTo p .reply 0
      .done t (some { r with body := { r.body with bytes := bytes, nb := 2 * f } })
    else .done t (t.flagAck p f)
  | .error (.park c va _) =>
    .parked { ten := p.ten.toNat, page := bitsAt va 16 39, bits := accBits false false false false true, va := va } c
  | .error e => s.failed p (errCause e)

/-- A message of a graph send. -/
def State.serveGraph (s : State) (p : Packet) : Served :=
  match s.graphServe p with
  | (.park k c, _) => .parked k c
  | (a, t) => .done t (some (t.graphReply p a))

/-- A kill that another module sends (03 R62): flooded here from the launch's origin, and confirmed back. -/
def State.farKill (s : State) (p : Packet) : State :=
  let ten := p.ten.toNat
  let id := p.body.ctxid
  match s.launchBy ten id with
  | none =>
    let b : Body := { op := .killDone, ctxid := id }
    s.sendPacket { src := BitVec.ofNat 6 s.ownNumber, dst := p.src, ten := p.ten, stream := 5, body := b }
  | some _ =>
    let t := s.injectKill ten id (16 * s.killStart ten id monitorCore) 0x1A false
    { t with kills := t.kills.map (fun k => if k.ten = ten ∧ k.ctxid = id then { k with asked := some p.src } else k) }

/-- Fabric control: kills, their confirmations, firmware's messages (04 R83), and pod boot. -/
def State.controlMessage (s : State) (p : Packet) : State :=
  let m := p.src.toNat
  match p.body.op with
  | .kill => (s.hear m).farKill p
  | .killDone =>
    let t := s.hear m
    { t with kills := t.kills.map (fun k =>
        if k.ten = p.ten.toNat ∧ k.ctxid = p.body.ctxid then { k with mods := k.mods.filter (fun i => i != m) } else k) }
  | .preempt => (s.hear m).farPreempt p.ten.toNat p.body.ctxid
  | .threadOver => (s.hear m).farOver p.ten.toNat p.body.ctxid p.body.sel
  | .firmware => (s.hear m).machineCheck 0 0x0A 16 0 (w64 m) (sliceBytes p.body.bytes 0 24)
  | _ => s.bootMessage p

/-- A data packet other than a reply is served. (Mark: DEDUCED, unsafe, log 81) -/
def State.serveRequest (s : State) (p : Packet) : Served :=
  match p.body.op with
  | .ld => s.serveLd p
  | .st => s.serveSt p
  | .amo => s.serveAmo p false
  | .red => s.serveAmo p true
  | .redf => s.serveRedf p
  | .ldv => s.serveVersion p
  | .stv => s.serveVersion p
  | .reclaim => s.serveVersion p
  | .verq => s.serveVersion p
  | .estate => s.serveEstate p
  | .sendMsg => s.serveMessage p
  | .cont => s.serveCont p
  | .copyChunk => s.serveCopy p
  | .graphOpen => s.serveGraph p
  | .graphObject => s.serveGraph p
  | .graphFinish => s.serveGraph p
  | _ => .done (s.controlMessage p) none

/-! ## The sequence window (02 R32, R35) -/

/-- An answer leaves: the reply, or a plain acknowledgement; a reply after PENDING carries no timer (03 R58).
(Mark: DEDUCED, unsafe, log 82) -/
def State.respond (s : State) (p : Packet) (r : Option Packet) (quiet : Bool) : State :=
  match r with
  | none => s.sendPacket (s.ackTo p 0)
  | some q =>
    let s1 := s.reply p q
    if ! quiet then s1
    else
      let d := s1.dieTo q.dst.toNat
      let l := Tab.get s1.fabric.sendq [] d
      s1.setFabric { s1.fabric with sendq := Tab.set s1.fabric.sendq d (l.dropLast ++ (l.drop (l.length - 1)).map (fun e => { e with quiet := true })) }

/-- A packet whose turn has come in its flow takes effect. A request that waits here, or is parked, has had none: it holds
its sequence until it is answered; a reduction's contribution has been made (02 R30). (Mark: DEDUCED, unsafe, log 83) -/
def State.deliver (s : State) (p : Packet) : State :=
  if p.kind ≠ 0 then (s.completeSeq p).respond p none false
  else if p.stream = 1 then ((s.replyArrive p).completeSeq p).respond p none false
  else match (s.farFill p).serveRequest p with
    | .done t r => (t.completeSeq p).respond p r false
    | .later t pending => if pending then (t.completeSeq p).sendPacket (t.ackTo p 1) else t
    | .parked k c => (s.parkPacket p k c).sendPacket (s.ackTo p 1)

/-- A packet waits for every lower sequence of its flow: ordered data, and a drain marker (02 R43). -/
def waitsBase (p : Packet) : Bool := (ordered p && decide (p.kind = 0)) || decide (p.kind = 2)

/-- The same packet. -/
def samePacket (p q : Packet) : Bool := decide (rxKey p = rxKey q ∧ p.seq = q.seq)

/-- The request is parked here. -/
def State.isParked (s : State) (p : Packet) : Bool := s.parkedRemote.any (fun e => samePacket p e.1)

/-- The request waits here for what it asks. -/
def State.stillWaits (s : State) (p : Packet) : Bool :=
  s.waiters.any (fun w => match w.kind, w.remote with
    | .reduction _, _ => false
    | _, some q => samePacket p q
    | _, none => false)
  || s.contFlight.any (fun w => match w.remote with
    | some q => samePacket p q
    | none => false)

/-- Packets held for a gap of the flow are delivered as far as it closes; one that is parked or waits holds those behind it. -/
def State.drainHeld (s : State) (key n : Nat) : State :=
  match n with
  | 0 => s
  | k + 1 =>
    let r := Tab.get s.fabric.rx RxFlow.reset key
    match r.held.find? (fun q => q.seq == r.base) with
    | some q => if s.isParked q || s.stillWaits q then s else (s.deliver q).drainHeld key k
    | none => s

/-- Close what can be closed of a packet's flow. -/
def State.settleFlow (s : State) (p : Packet) : State := s.drainHeld (rxKey p) ((s.rxOf p).held.length + 1)

/-- Packets held here for a gap, of a source and the ordered class. -/
def State.heldFrom (s : State) (src : Nat) : Nat :=
  (s.fabric.rx.map (fun r => if r.1 / 128 = src then (r.2.held.filter ordered).length else 0)).foldl (· + ·) 0

/-- A new packet of a window. -/
def State.newPacket (s : State) (p : Packet) : State :=
  let r := s.rxOf p
  if ! waitsBase p || decide (p.seq = r.base) then (s.deliver p).settleFlow p
  else if r.held.any (fun q => q.seq == p.seq) || (ordered p && decide (s.heldFrom p.src.toNat ≥ 1024)) then s
  else s.setRx (rxKey p) { r with held := r.held ++ [p] }

/-- A reduction's contribution waits here. (Mark: DEDUCED, unsafe, log 48) -/
def State.redfWaits (s : State) (p : Packet) : Bool := s.waiters.any (fun w => (match w.kind, w.remote with
  | .reduction _, some q => samePacket p q
  | _, _ => false))

/-- A cached reply is sent again, unless it is already in a send queue. (Mark: DEDUCED, unsafe, log 82) -/
def State.resendReply (s : State) (r : Packet) : State :=
  let same := fun (q : Packet) => decide (q.dst = r.dst ∧ q.ten = r.ten ∧ q.stream = 1 ∧ q.kind = 0 ∧ q.body.sel = r.body.sel ∧ q.body.cmp = r.body.cmp)
  let f := s.fabric
  match f.unacked.find? (fun u => same u.pkt) with
  | some u =>
    let d := s.dieTo r.dst.toNat
    let again : Queued := { pkt := u.pkt, seqd := true, expiries := u.expiries }
    s.setFabric { f with unacked := f.unacked.filter (fun v => ! same v.pkt),
                         sendq := Tab.set f.sendq d (Tab.get f.sendq [] d ++ [again]) }
  | none => if f.sendq.any (fun q => q.2.any (fun e => same e.pkt)) then s else s.sendPacket r

/-- A read that a duplicate makes again. -/
def readsAgain (p : Packet) : Bool := match p.body.op with
  | .ld | .ldv | .verq => true
  | .copyChunk => decide (p.body.val = 1 ∨ p.body.val = 5)
  | _ => false

/-- A duplicate: a cached reply is sent again, a read is made again, and anything else is acknowledged again.
(Mark: DEDUCED, unsafe, log 82) -/
def State.duplicate (s : State) (p : Packet) : State :=
  if p.kind ≠ 0 ∨ p.stream = 1 then s.sendPacket (s.ackTo p 0)
  else if s.redfWaits p then s.sendPacket (s.ackTo p 1)
  else match s.fabric.cache.find? (fun e => decide (e.1 = rxKey p ∧ e.2.1 = p.seq)) with
    | some e => s.resendReply e.2.2
    | none =>
      if readsAgain p then
        match s.serveRequest p with
        | .done t r => t.respond p r false
        | .later t _ => t
        | .parked .. => s
      else s.sendPacket (s.ackTo p 0)

/-- A packet for this module meets its window. -/
def State.window (s : State) (p : Packet) : State :=
  let r := s.rxOf p
  let d := (p.seq - r.base).toNat
  if s.isParked p then s.sendPacket (s.ackTo p 1)
  else if s.stillWaits p then s
  else if d < 4096 ∧ ¬ r.done.contains p.seq then s.newPacket p
  else if d < 4096 ∨ 2 ^ 31 ≤ d then s.duplicate p
  else s

/-- A packet with a reserved field, as the reason of its record (04 R83): STREAM 2, KIND 3, other bits 4. -/
def packetBad (p : Packet) : Option Nat :=
  if p.stream.toNat ≥ 6 then some 2
  else if p.kind.toNat > 4 then some 3
  else if p.rsv ≠ 0 ∨ (p.spec ≠ 0 ∧ ¬ (p.kind = 1 ∧ p.spec = 1)) then some 4
  else none

/-- The spar on which a packet of a source arrives in this tack; a free value where no direct slot leads here.
(Mark: DEDUCED, unsafe, log 95) -/
def State.sparFrom (s : State) (src : Nat) : Nat × State :=
  let (n, m, c) := s.calendar
  match (upTo 0 8).find? (fun i => sparOffset n c i (s.sparTack i) == Nat.xor m src) with
  | some i => (i, s)
  | none => (s.draw.1.toNat % 8, s.draw.2)

/-- A packet with a reserved field is discarded and counted (02 R29). (Mark: DEDUCED, unsafe, log 95) -/
def State.badPacket (s : State) (p : Packet) (reason : Nat) : State :=
  let (spar, s1) := s.sparFrom p.src.toNat
  (s1.setFabric { s1.fabric with log := s1.fabric.log ++ [leBytes 16 (packetHeader p)] }).machineCheck (dieService (spar / 2)) 5 16 0 0
    (leBytes 1 spar ++ leBytes 1 p.src.toNat ++ leBytes 1 reason ++ leBytes 5 0 ++ leBytes 16 (packetHeader p))

/-! ## Arrival (01 R17, R18; 02 R21, R22) -/

/-- Units of 128 bytes that packets held on a die take: those held as relay and those held for this module. -/
def State.unitsHeld (s : State) (die : Nat) : Nat :=
  (((s.fabric.relayed ++ s.fabric.staged).filter (fun e => e.1 == die)).map (fun e => max 1 e.2.len.toNat)).foldl (· + ·) 0

/-- The staging SRAM of 8 MiB is where a sleeping module holds a packet; in A3 the HBM relay buffer is not there either. A
packet that does not fit is refused with NAK. (Mark: DEDUCED, unsafe, log 29) -/
def State.holdsAsleep (s : State) (p : Packet) : Bool :=
  let here := decide (p.dst.toNat = s.ownNumber)
  let die := s.dieTo (if here then p.src.toNat else p.dst.toNat)
  s.awake || (! here && s.power.cur != 3) || decide (s.unitsHeld die + max 1 p.len.toNat ≤ 65536)

/-- A packet has arrived whole. A module that sleeps wakes for one of its own, and holds it in its staging SRAM until it is
awake (01 R17); a packet for another module is held as relay, and wakes the module only where A3 cannot hold it (01 R18).
(Mark: DEDUCED, unsafe, log 29) -/
def State.takePacket (s : State) (p : Packet) : State :=
  let f := s.fabric
  match packetBad p with
  | some reason => s.badPacket p reason
  | none =>
    if p.dst.toNat ≠ s.ownNumber then
      (if ! p.rly then s
       else if ! s.holdsAsleep p then s.wake
       else s.setFabric { f with relayed := f.relayed ++ [(s.dieTo p.dst.toNat, p)] })
    else if ! s.awake then
      (if s.holdsAsleep p then s.setFabric { f with staged := f.staged ++ [(s.dieTo p.src.toNat, p)] } else s).wake
    else if p.kind = 1 then s.ackArrive p
    else s.window p

/-- PACKET_RECEIVE. (Mark: DESIGN CHOICE, safe, log 4) -/
def execPacketReceive (p : Packet) (s : State) : Out := .next (s.takePacket p)

/-- What waited for the module to wake, and what flows held behind a request that has been answered since, is delivered.
(Mark: DEDUCED, unsafe, log 83) -/
def State.attend (s : State) : State :=
  if ! s.awake then s
  else
    let staged := s.fabric.staged
    let s1 := if staged.isEmpty then s
      else staged.foldl (fun (u : State) e => u.takePacket e.2) (s.setFabric { s.fabric with staged := [] })
    s1.fabric.rx.foldl (fun (u : State) e => if e.2.held.isEmpty then u else u.drainHeld e.1 (e.2.held.length + 1)) s1

/-- A control flit (R23, R33): the peer's timing stamps, and its total of units returned on the spar's die. -/
def State.controlFlit (s : State) (spar peer : Nat) (flit : List Byte) : State :=
  let b := sliceBytes flit 4 128
  let s1 := match Config.timingStamps b with
    | some (left, got) => s.timing spar peer left got
    | none => s
  match Config.allowanceReturn b with
  | some v => s1.setFabric (s1.fabric.credit (allowKey peer (spar / 2)) v)
  | none => s1

/-- An ASEQ covers packet flits of a link: they leave the replay buffer, and the units of forwarded packets whose last flit
is among them go back to their sources (R33). (Mark: DEDUCED, unsafe, log 109) -/
def State.covered (s : State) (k : Nat) (aseq : BitVec 12) : State :=
  let f := s.fabric
  let hit := fun (q : BitVec 12) => decide ((aseq - q).toNat < 2048)
  let l := s.linkOf k
  let s1 := s.setLink k { l with replay := l.replay.filter (fun q => ! hit (flitLseq q)) }
  let back := f.returns.filter (fun e => e.1 == k && hit e.2.1)
  if back.isEmpty then s1
  else
    let g := back.foldl (fun (g : Fabric) e => g.giveBack e.2.2.1 e.2.2.2) s1.fabric
    s1.setFabric { g with returns := g.returns.filter (fun e => ! (e.1 == k && hit e.2.1)) }

/-- The next flit to a peer bears the link's ASEQ and NAK: an idle one where the window is open and nothing else leaves. -/
def State.answerFlit (s : State) (spar peer : Nat) : State := if s.connected spar peer then s.sendFlit spar peer 0 [] else s

/-- A flit that ends the discarding of a link: the packet flit that is due, or an idle or control flit which shows that
none is missing. (Mark: DEDUCED, unsafe, log 112) -/
def Link.restored (l : Link) (flit : List Byte) : Bool :=
  if flitKind flit = 1 ∨ flitKind flit = 2 then flitLseq flit == l.aseq + 1 else flitLseq flit == l.aseq

/-- The packet flit that is due: with the last one of its packet, the packet has arrived. The first flit of a packet that a
sleeping module cannot hold is refused (01 R17, R18). -/
def State.packetFlit (s : State) (spar peer : Nat) (flit : List Byte) : State :=
  let k := linkKey spar peer
  let l := s.linkOf k
  let b := sliceBytes flit 4 128
  let part := if flitKind flit = 1 then [b] else l.part ++ [b]
  let p := packetOf (part.flatMap id)
  if flitKind flit = 1 ∧ ! s.holdsAsleep p then (s.setLink k { l with nak := true }).wake
  else
    let whole := decide (max 1 p.len.toNat ≤ part.length)
    let s1 := s.setLink k { l with aseq := flitLseq flit, nak := false, part := if whole then [] else part }
    if whole then s1.takePacket p else s1

/-- FLIT_RECEIVE: a flit of a bad length, CRC or reserved bits, and every later one, is discarded and NAK is due; a good
flit acknowledges the replay buffer, and a NAK asks for a resend. (Mark: DEDUCED, unsafe, log 112) -/
def execFlitReceive (spar : BitVec 3) (peer : BitVec 6) (flit : List (BitVec 8)) (s : State) : Out :=
  let k := linkKey spar.toNat peer.toNat
  let l := s.linkOf k
  let crcOk := decide (flit.length = 136) && crc32c (flit.take 132) == BitVec.ofNat 32 (recNat flit 132 4)
  let rsv := decide (recNat flit 0 4 / 2 ^ 27 ≠ 0)
  let refused := fun (u : State) => Host.Outcome.next
    (((u.setFabric { u.fabric with log := u.fabric.log ++ [flit] }).setLink k { l with nak := true }).answerFlit spar.toNat peer.toNat)
  if ! crcOk then refused s
  else if rsv then
    refused (s.machineCheck (dieService (spar.toNat / 2)) 5
      16 0 0 (leBytes 1 spar.toNat ++ leBytes 1 peer.toNat ++ leBytes 1 1 ++ leBytes 5 0 ++ sliceBytes flit 4 16))
  else if l.nak && ! l.restored flit then .next s
  else
    let s1 := (s.setLink k { l with nak := false, resend := l.resend || flitNak flit }).covered k (flitAseq flit)
    let s2 := if flitNak flit && s1.connected spar.toNat peer.toNat && (s1.fabric.lock || s1.fabric.boot)
      then s1.resendFlits spar.toNat peer.toNat else s1
    if flitKind flit = 0 then .next s2
    else if flitKind flit = 3 then .next (s2.controlFlit spar.toNat peer.toNat flit)
    else if flitLseq flit = l.aseq + 1 then
      .next ((s2.packetFlit spar.toNat peer.toNat flit).answerFlit spar.toNat peer.toNat)
    else .next s2

/-! ## REPLAY (R284; 07 R148) -/

/-- The page of a token that the hardware has issued. -/
def State.tokenPage (s : State) (v : W64) : Option (Nat × Nat) :=
  let t := bitsAt v 32 4
  let seq : W32 := v.setWidth 32
  if bitsAt v 36 28 ≠ Config.tokenCheck seq t % 2 ^ 28 then none
  else ((s.tenantAt t).tokens.find? (fun e => e.1 == seq)).map (fun e => (t, e.2))

/-- A parked access is of a tenant's page. -/
def Parked.isOn (k : Parked) (t page : Nat) : Bool := decide (k.ten = t ∧ k.page = page)
/-- An access is parked on a tenant's page. -/
def parkedOn (k : Option Parked) (t page : Nat) : Bool := match k with
  | some q => q.isOn t page
  | none => false

/-- A context's parked access is retranslated, or fails precisely. -/
def State.replayCtx (s : State) (c x : Nat) (fail : Bool) : State :=
  let k := s.ctxAt c x
  let va := match k.parked with
    | some q => q.va
    | none => 0
  match s.walkOf c x with
  | some w =>
    if fail then
      let t := ((s.at c x).setCtx c x { k with parked := none }).stopWalk w (.trap 0x04 va)
      t.at s.core s.ctx
    else s.setCtx c x { k with parked := none, stall := stGraph }
  | none =>
    s.setCtx c x { k with parked := none, stall := 0, due := if fail then k.due ++ [(0x04, va, k.pc)] else k.due }

/-- Every parked context of a core's tables. -/
def State.parkedCtxs (s : State) (t page : Nat) : List (Nat × Nat) :=
  s.cores.flatMap (fun c => (c.2.ctxs.filter (fun x => parkedOn x.2.parked t page)).map (fun x => (c.1, x.1)))

/-- A vector command parked on a page goes on, or is dropped and its context traps. (Mark: DEDUCED, unsafe, log 65) -/
def State.replayVec (s : State) (c : Nat) (m : VCmd) (fail : Bool) : State :=
  let k := s.coreAt c
  let x := s.ctxAt c m.ctx
  let va := match m.parked with
    | some q => q.va
    | none => 0
  if fail then
    let s1 := s.setCore c { k with vq := k.vq.filter (fun v => v != m) }
    (s1.setCtx c m.ctx { s1.ctxAt c m.ctx with stall := 0, due := x.due ++ [(0x04, va, x.pc)] }).vSettle c
  else
    let s1 := s.setCore c { k with vq := k.vq.map (fun v => if v = m then { v with parked := none } else v) }
    s1.setCtx c m.ctx { s1.ctxAt c m.ctx with stall := stVec }

/-- Every parked vector command. -/
def State.parkedVecs (s : State) (t page : Nat) : List (Nat × VCmd) :=
  s.cores.flatMap (fun c => (c.2.vq.filter (fun m => parkedOn m.parked t page)).map (fun m => (c.1, m)))

/-- A copy command parked on a page. -/
def State.replayCopy (s : State) (c : Nat) (m : CopyCmd) (fail : Bool) : State :=
  let s1 := s.updCopy c m.tag (fun k => { k with parked := none })
  if fail then s1.copyFault c { m with parked := none } 0x04 0 0 [] false else s1

/-- Every parked copy command. -/
def State.parkedCopies (s : State) (t page : Nat) : List (Nat × CopyCmd) :=
  s.cores.flatMap (fun c => (c.2.copies.filter (fun m => parkedOn m.parked t page)).map (fun m => (c.1, m)))

/-- A weight load parked on a page. -/
def State.replayLoad (s : State) (cl : Nat) (r : MCmd) (fail : Bool) : State :=
  let k := s.clusterAt cl
  if fail then s.wbFault cl r 4 else s.setCluster cl { k with wbload := some { r with parked := none } }

/-- Every parked weight load. -/
def State.parkedLoads (s : State) (t page : Nat) : List (Nat × MCmd) :=
  s.clusters.filterMap (fun c => match c.2.wbload with
    | some r => if parkedOn r.parked t page then some (c.1, r) else none
    | none => none)

/-- A request of another module, or of a graph send to this module itself, that was parked here.
(Mark: DEDUCED, unsafe, log 83) -/
def State.replayRemote (s : State) (p : Packet) (k : Parked) (fail : Bool) : State :=
  let s1 := { s with parkedRemote := s.parkedRemote.filter (fun e => e != (p, k)) }
  if p.src.toNat = s.ownNumber then
    if fail then s1.updWalk p (fun w => w.answer (.cause 0x04 k.va))
    else match s1.graphServe p with
      | (.park q c, t) => t.parkPacket p q c
      | (a, t) => t.updWalk p (fun w => w.answer a)
  else if fail then
    let r := s1.replyTo p .replyFault 4
    ((s1.completeSeq p).respond p (some { r with body := { r.body with va := k.va } }) true).settleFlow p
  else match (s1.farFill p).serveRequest p with
    | .done t r => ((t.completeSeq p).respond p r true).settleFlow p
    | .later t pending => if pending then (t.completeSeq p).settleFlow p else t
    | .parked q c => s1.parkPacket p q c

/-- REPLAY acts on every access of the tenant that is parked on the page; the state, and how many there were. -/
def State.replayPage (s : State) (t page : Nat) (fail : Bool) : State × Nat :=
  let ctxs := s.parkedCtxs t page
  let vecs := s.parkedVecs t page
  let copies := s.parkedCopies t page
  let loads := s.parkedLoads t page
  let far := s.parkedRemote.filter (fun e => e.2.isOn t page)
  let s1 := ctxs.foldl (fun (u : State) e => u.replayCtx e.1 e.2 fail) s
  let s2 := vecs.foldl (fun (u : State) e => u.replayVec e.1 e.2 fail) s1
  let s3 := copies.foldl (fun (u : State) e => u.replayCopy e.1 e.2 fail) s2
  let s4 := loads.foldl (fun (u : State) e => u.replayLoad e.1 e.2 fail) s3
  (far.foldl (fun (u : State) e => u.replayRemote e.1 e.2 fail) s4,
   ctxs.length + vecs.length + copies.length + loads.length + far.length)

/-- REPLAY. -/
def execReplay (d a : BitVec 5) (m : BitVec 1) (s : State) : Out :=
  privileged (.replay d a m) s
    (match s.tokenPage (s.rd a) with
    | none => s.done d (BitVec.allOnes 64)
    | some (t, page) =>
      if isArray s.core ∧ t ≠ s.tenOf s.core then s.done d (BitVec.allOnes 64)
      else
        let r := s.replayPage t page (m == 1)
        r.1.done d (w64 r.2))

/-! ## A kill received (03 R62) -/

/-- A clusters's neighbours on the module grid, bridges included (03 R49). -/
def adjacent (a b : Nat) : Bool :=
  decide (gridX a = gridX b ∧ (gridY a + 1 = gridY b ∨ gridY b + 1 = gridY a)
    ∨ gridY a = gridY b ∧ (gridX a + 1 = gridX b ∨ gridX b + 1 = gridX a))

/-- The flood of a kill can reach a unit: a cluster inside the rectangle from a neighbour that it has reached.
(Mark: DEDUCED, unsafe, log 30) -/
def State.floods (s : State) (k : Kill) (unit : KillUnit) : Bool :=
  match unit with
  | .cluster c => s.inRect k.ten c.toNat && k.reached.any (fun u => match u with
    | .cluster b => adjacent b.toNat c.toNat
    | _ => false)
  | _ => true

/-- Requests of a context that are parked here go with it: a kill discards them (07 R148), and leaves those of another
launch of the same CTXID on another module (06 R100). The sequence of one that came from another module is complete, and it
is acknowledged. (Mark: DESIGN CHOICE, unsafe, log 97) -/
def State.dropParked (s : State) (ten : Nat) (ctxid : W32) : State :=
  let mine := s.parkedRemote.filter (fun e => decide (e.2.ten = ten ∧ e.1.body.ctxid = ctxid) && s.spans ten ctxid e.1.src.toNat)
  mine.foldl (fun (u : State) e =>
    if e.1.src.toNat = u.ownNumber then u else ((u.completeSeq e.1).respond e.1 none true).settleFlow e.1)
    { s with parkedRemote := s.parkedRemote.filter (fun e => ! mine.contains e) }

/-- KILL_RECEIVE: a cluster inside the tenant's rectangle, a die's Cleat, or a die's send queues.
(Mark: DEDUCED, unsafe, log 30) -/
def execKillReceive (idx : Nat) (unit : KillUnit) (s : State) : Out :=
  match s.kills.drop idx with
  | [] => .next s
  | k :: _ =>
    if k.reached.contains unit || ! s.floods k unit then .next s
    else
      let s1 := s.setKill idx { k with reached := unit :: k.reached }
      match unit with
      | .cluster c =>
        let k1 := { k with reached := unit :: k.reached, started := (c.toNat, s.now) :: k.started }
        .next ((s.setKill idx k1).killCluster k.ten k.ctxid c.toNat)
      | .cleat d =>
        if d = 0 then
          match s.launchBy k.ten k.ctxid with
          | some l => .next (s1.dieLaunch l)
          | none => .next s1
        else .next s1
      | .sendQueues d =>
        let f := s.fabric
        let q := purgeQueue k.ten k.ctxid (Tab.get f.sendq [] d.toNat)
        let s2 := s1.setFabric { f with sendq := Tab.set f.sendq d.toNat q }
        .next (if d = 0 then s2.dropParked k.ten k.ctxid else s2)

end Sys2Proof.Machine
end

