-- ==== Sys2Proof/Machine/Dispatch.lean ====
section
/-! DEFINITION. The dispatch: one arm per instruction, each a call of the meaning of that instruction. -/

namespace Sys2Proof.Machine

open Sys2Proof

def exec (i : Instr) (s : State) : Host.Outcome State Fault Refusal :=
  match i with
  | .add d a b => Sys2Proof.Machine.execAdd d a b s
  | .sub d a b => Sys2Proof.Machine.execSub d a b s
  | .mul d a b => Sys2Proof.Machine.execMul d a b s
  | .mulh d a b => Sys2Proof.Machine.execMulh d a b s
  | .mulhn d a b => Sys2Proof.Machine.execMulhn d a b s
  | .div d a b => Sys2Proof.Machine.execDiv d a b s
  | .divn d a b => Sys2Proof.Machine.execDivn d a b s
  | .rem d a b => Sys2Proof.Machine.execRem d a b s
  | .remn d a b => Sys2Proof.Machine.execRemn d a b s
  | .and d a b => Sys2Proof.Machine.execAnd d a b s
  | .or d a b => Sys2Proof.Machine.execOr d a b s
  | .xor d a b => Sys2Proof.Machine.execXor d a b s
  | .andn d a b => Sys2Proof.Machine.execAndn d a b s
  | .shl d a b => Sys2Proof.Machine.execShl d a b s
  | .shr d a b => Sys2Proof.Machine.execShr d a b s
  | .shra d a b => Sys2Proof.Machine.execShra d a b s
  | .rotl d a b => Sys2Proof.Machine.execRotl d a b s
  | .min d a b => Sys2Proof.Machine.execMin d a b s
  | .max d a b => Sys2Proof.Machine.execMax d a b s
  | .minn d a b => Sys2Proof.Machine.execMinn d a b s
  | .maxn d a b => Sys2Proof.Machine.execMaxn d a b s
  | .slt d a b => Sys2Proof.Machine.execSlt d a b s
  | .sltn d a b => Sys2Proof.Machine.execSltn d a b s
  | .sel d a b c => Sys2Proof.Machine.execSel d a b c s
  | .clz d a => Sys2Proof.Machine.execClz d a s
  | .ctz d a => Sys2Proof.Machine.execCtz d a s
  | .popc d a => Sys2Proof.Machine.execPopc d a s
  | .ext d a b l => Sys2Proof.Machine.execExt d a b l s
  | .ins d a b l => Sys2Proof.Machine.execIns d a b l s
  | .adds d a b => Sys2Proof.Machine.execAdds d a b s
  | .addi d a iv => Sys2Proof.Machine.execAddi d a iv s
  | .andi d a iv => Sys2Proof.Machine.execAndi d a iv s
  | .ori d a iv => Sys2Proof.Machine.execOri d a iv s
  | .xori d a iv => Sys2Proof.Machine.execXori d a iv s
  | .shi d a k sv => Sys2Proof.Machine.execShi d a k sv s
  | .slti d a iv => Sys2Proof.Machine.execSlti d a iv s
  | .sltni d a iv => Sys2Proof.Machine.execSltni d a iv s
  | .lit d l iv => Sys2Proof.Machine.execLit d l iv s
  | .litk d l iv => Sys2Proof.Machine.execLitk d l iv s
  | .fadd d a b r p => Sys2Proof.Machine.execFadd d a b r p s
  | .fsub d a b r p => Sys2Proof.Machine.execFsub d a b r p s
  | .fmul d a b r p => Sys2Proof.Machine.execFmul d a b r p s
  | .fdiv d a b r p => Sys2Proof.Machine.execFdiv d a b r p s
  | .fsqrt d a r p => Sys2Proof.Machine.execFsqrt d a r p s
  | .ffma d a b r p => Sys2Proof.Machine.execFfma d a b r p s
  | .fmin d a b p => Sys2Proof.Machine.execFmin d a b p s
  | .fmax d a b p => Sys2Proof.Machine.execFmax d a b p s
  | .fcmp d a b c p => Sys2Proof.Machine.execFcmp d a b c p s
  | .fcvt d a t sv r => Sys2Proof.Machine.execFcvt d a t sv r s
  | .ld d b z sv o => Sys2Proof.Machine.execLd d b z sv o s
  | .st d b z o => Sys2Proof.Machine.execSt d b z o s
  | .ldv d a b => Sys2Proof.Machine.execLdv d a b s
  | .stv d a b => Sys2Proof.Machine.execStv d a b s
  | .reclaim a b => Sys2Proof.Machine.execReclaim a b s
  | .verq d a => Sys2Proof.Machine.execVerq d a s
  | .beq a b o => Sys2Proof.Machine.execBeq a b o s
  | .bne a b o => Sys2Proof.Machine.execBne a b o s
  | .blt a b o => Sys2Proof.Machine.execBlt a b o s
  | .bge a b o => Sys2Proof.Machine.execBge a b o s
  | .bltn a b o => Sys2Proof.Machine.execBltn a b o s
  | .bgen a b o => Sys2Proof.Machine.execBgen a b o s
  | .jal d o => Sys2Proof.Machine.execJal d o s
  | .jalr d a iv => Sys2Proof.Machine.execJalr d a iv s
  | .trap iv => Sys2Proof.Machine.execTrap iv s
  | .tret => Sys2Proof.Machine.execTret s
  | .uiret => Sys2Proof.Machine.execUiret s
  | .mfs d n => Sys2Proof.Machine.execMfs d n s
  | .mts sv n => Sys2Proof.Machine.execMts sv n s
  | .wfi => Sys2Proof.Machine.execWfi s
  | .halt => Sys2Proof.Machine.execHalt s
  | .yield => Sys2Proof.Machine.execYield s
  | .rdctr d c => Sys2Proof.Machine.execRdctr d c s
  | .start d a b => Sys2Proof.Machine.execStart d a b s
  | .joinh d a => Sys2Proof.Machine.execJoinh d a s
  | .cont a => Sys2Proof.Machine.execCont a s
  | .launch d a => Sys2Proof.Machine.execLaunch d a s
  | .amo d a b w o => Sys2Proof.Machine.execAmo d a b w o s
  | .amoLock d a b => Sys2Proof.Machine.execAmoLock d a b s
  | .amoUnlock d a b => Sys2Proof.Machine.execAmoUnlock d a b s
  | .amoTrylock d a b => Sys2Proof.Machine.execAmoTrylock d a b s
  | .amod d a b w o => Sys2Proof.Machine.execAmod d a b w o s
  | .red a b w o => Sys2Proof.Machine.execRed a b w o s
  | .redf d a b t o => Sys2Proof.Machine.execRedf d a b t o s
  | .arrive t => Sys2Proof.Machine.execArrive t s
  | .waitb t => Sys2Proof.Machine.execWaitb t s
  | .bmask a => Sys2Proof.Machine.execBmask a s
  | .fencel => Sys2Proof.Machine.execFencel s
  | .fenceh sv => Sys2Proof.Machine.execFenceh sv s
  | .fence sv => Sys2Proof.Machine.execFence sv s
  | .ecadd d a b => Sys2Proof.Machine.execEcadd d a b s
  | .ecwait d a b => Sys2Proof.Machine.execEcwait d a b s
  | .ectrig d a b => Sys2Proof.Machine.execEctrig d a b s
  | .hold d a b => Sys2Proof.Machine.execHold d a b s
  | .relq d a k => Sys2Proof.Machine.execRelq d a k s
  | .heir d a b k => Sys2Proof.Machine.execHeir d a b k s
  | .promise d a b => Sys2Proof.Machine.execPromise d a b s
  | .estq d a b k => Sys2Proof.Machine.execEstq d a b k s
  | .estqPop d b => Sys2Proof.Machine.execEstqPop d b s
  | .estqWait d b => Sys2Proof.Machine.execEstqWait d b s
  | .orphcl d a => Sys2Proof.Machine.execOrphcl d a s
  | .send d a => Sys2Proof.Machine.execSend d a s
  | .recv d p w => Sys2Proof.Machine.execRecv d p w s
  | .qstat d => Sys2Proof.Machine.execQstat d s
  | .gcopy d a b v => Sys2Proof.Machine.execGcopy d a b v s
  | .gsend d a b v => Sys2Proof.Machine.execGsend d a b v s
  | .gcmp d a b v => Sys2Proof.Machine.execGcmp d a b v s
  | .ghash d a b v => Sys2Proof.Machine.execGhash d a b v s
  | .gfree d a b => Sys2Proof.Machine.execGfree d a b s
  | .oalloc d a b => Sys2Proof.Machine.execOalloc d a b s
  | .ostp d a b => Sys2Proof.Machine.execOstp d a b s
  | .gstat d a => Sys2Proof.Machine.execGstat d a s
  | .hdef h a => Sys2Proof.Machine.execHdef h a s
  | .hwait h n => Sys2Proof.Machine.execHwait h n s
  | .hwaitP h n => Sys2Proof.Machine.execHwaitP h n s
  | .hwaitT n a => Sys2Proof.Machine.execHwaitT n a s
  | .advp h n => Sys2Proof.Machine.execAdvp h n s
  | .advc h n => Sys2Proof.Machine.execAdvc h n s
  | .advcL n a => Sys2Proof.Machine.execAdvcL n a s
  | .hstat h a => Sys2Proof.Machine.execHstat h a s
  | .bcopy d a => Sys2Proof.Machine.execBcopy d a s
  | .bcast d a => Sys2Proof.Machine.execBcast d a s
  | .deal d a => Sys2Proof.Machine.execDeal d a s
  | .cstat d a sv => Sys2Proof.Machine.execCstat d a sv s
  | .mma h w sv t z v => Sys2Proof.Machine.execMma h w sv t z v s
  | .mclr => Sys2Proof.Machine.execMclr s
  | .mdrain a q t u r => Sys2Proof.Machine.execMdrain a q t u r s
  | .mmap a => Sys2Proof.Machine.execMmap a s
  | .wbload a b => Sys2Proof.Machine.execWbload a b s
  | .mswap => Sys2Proof.Machine.execMswap s
  | .mpert a b => Sys2Proof.Machine.execMpert a b s
  | .mchk a => Sys2Proof.Machine.execMchk a s
  | .mstat a d => Sys2Proof.Machine.execMstat a d s
  | .replay d a m => Sys2Proof.Machine.execReplay d a m s
  | .tlbinv a b => Sys2Proof.Machine.execTlbinv a b s
  | .kill d a b => Sys2Proof.Machine.execKill d a b s
  | .fqpop d a b => Sys2Proof.Machine.execFqpop d a b s
  | .moncall d a => Sys2Proof.Machine.execMoncall d a s
  | .vaddF t d a b x => Sys2Proof.Machine.execVaddF t d a b x s
  | .vsubF t d a b x => Sys2Proof.Machine.execVsubF t d a b x s
  | .vmulF t d a b x => Sys2Proof.Machine.execVmulF t d a b x s
  | .vfma t d a b x => Sys2Proof.Machine.execVfma t d a b x s
  | .vminF t d a b x => Sys2Proof.Machine.execVminF t d a b x s
  | .vmaxF t d a b x => Sys2Proof.Machine.execVmaxF t d a b x s
  | .vdiv t d a b x => Sys2Proof.Machine.execVdiv t d a b x s
  | .vsqrt t d a x => Sys2Proof.Machine.execVsqrt t d a x s
  | .vabsF t d a x => Sys2Proof.Machine.execVabsF t d a x s
  | .vaddI t d a b x => Sys2Proof.Machine.execVaddI t d a b x s
  | .vsubI t d a b x => Sys2Proof.Machine.execVsubI t d a b x s
  | .vmulI t d a b x => Sys2Proof.Machine.execVmulI t d a b x s
  | .vmulh t d a b x => Sys2Proof.Machine.execVmulh t d a b x s
  | .vminI t d a b x => Sys2Proof.Machine.execVminI t d a b x s
  | .vmaxI t d a b x => Sys2Proof.Machine.execVmaxI t d a b x s
  | .vabsI t d a x => Sys2Proof.Machine.execVabsI t d a x s
  | .vand t d a b x => Sys2Proof.Machine.execVand t d a b x s
  | .vor t d a b x => Sys2Proof.Machine.execVor t d a b x s
  | .vxor t d a b x => Sys2Proof.Machine.execVxor t d a b x s
  | .vshl t d a b x => Sys2Proof.Machine.execVshl t d a b x s
  | .vshr t d a b x => Sys2Proof.Machine.execVshr t d a b x s
  | .vshra t d a b x => Sys2Proof.Machine.execVshra t d a b x s
  | .vcmpeq t c k a b x => Sys2Proof.Machine.execVcmpeq t c k a b x s
  | .vcmpne t c k a b x => Sys2Proof.Machine.execVcmpne t c k a b x s
  | .vcmplt t c k a b x => Sys2Proof.Machine.execVcmplt t c k a b x s
  | .vcmple t c k a b x => Sys2Proof.Machine.execVcmple t c k a b x s
  | .vsel t d a b x => Sys2Proof.Machine.execVsel t d a b x s
  | .kand d a b x => Sys2Proof.Machine.execKand d a b x s
  | .kor d a b x => Sys2Proof.Machine.execKor d a b x s
  | .kxor d a b x => Sys2Proof.Machine.execKxor d a b x s
  | .knot d a x => Sys2Proof.Machine.execKnot d a x s
  | .kpopc d a x => Sys2Proof.Machine.execKpopc d a x s
  | .vld t d x => Sys2Proof.Machine.execVld t d x s
  | .vst t d x => Sys2Proof.Machine.execVst t d x s
  | .vlds t d x => Sys2Proof.Machine.execVlds t d x s
  | .vsts t d x => Sys2Proof.Machine.execVsts t d x s
  | .vgath t d b x => Sys2Proof.Machine.execVgath t d b x s
  | .vscat t d b x => Sys2Proof.Machine.execVscat t d b x s
  | .vbcast t d x => Sys2Proof.Machine.execVbcast t d x s
  | .vperm t d a b x => Sys2Proof.Machine.execVperm t d a b x s
  | .vslide t d a x => Sys2Proof.Machine.execVslide t d a x s
  | .vred t d a c o x => Sys2Proof.Machine.execVred t d a c o x s
  | .vmovx t d a x => Sys2Proof.Machine.execVmovx t d a x s
  | .vidx t d x => Sys2Proof.Machine.execVidx t d x s
  | .vcvt t d a j iv sv x => Sys2Proof.Machine.execVcvt t d a j iv sv x s
  | .vqnt t d a b x => Sys2Proof.Machine.execVqnt t d a b x s
  | .vdqnt t d a b x => Sys2Proof.Machine.execVdqnt t d a b x s
  | .vsfu t d a f x => Sys2Proof.Machine.execVsfu t d a f x s
  | .vclaim d x => Sys2Proof.Machine.execVclaim d x s
  | .vfence x => Sys2Proof.Machine.execVfence x s
  | .vstat d x => Sys2Proof.Machine.execVstat d x s
  | .vpopq d x => Sys2Proof.Machine.execVpopq d x s
  | .coldReset => Sys2Proof.Machine.execColdReset s
  | .moduleReset => Sys2Proof.Machine.execModuleReset s
  | .tenantReset t => Sys2Proof.Machine.execTenantReset t s
  | .powerRemoval => Sys2Proof.Machine.execPowerRemoval s
  | .clusterClockGate cluster => Sys2Proof.Machine.execClusterClockGate cluster s
  | .a1Exit cluster => Sys2Proof.Machine.execA1Exit cluster s
  | .sleepEntry => Sys2Proof.Machine.execSleepEntry s
  | .wakeExitComplete => Sys2Proof.Machine.execWakeExitComplete s
  | .powerLimiterInterval watts => Sys2Proof.Machine.execPowerLimiterInterval watts s
  | .dltolWrite v => Sys2Proof.Machine.execDltolWrite v s
  | .tltolWrite t v => Sys2Proof.Machine.execTltolWrite t v s
  | .registerWrite space off size v => Sys2Proof.Machine.execRegisterWrite space off size v s
  | .tackBoundary => Sys2Proof.Machine.execTackBoundary s
  | .flitReceive spar peer flit => Sys2Proof.Machine.execFlitReceive spar peer flit s
  | .lockTimeout => Sys2Proof.Machine.execLockTimeout s
  | .referencePllLockLoss => Sys2Proof.Machine.execReferencePllLockLoss s
  | .grandmasterRelock => Sys2Proof.Machine.execGrandmasterRelock s
  | .packetAssign die => Sys2Proof.Machine.execPacketAssign die s
  | .relayForward die idx => Sys2Proof.Machine.execRelayForward die idx s
  | .packetReceive p => Sys2Proof.Machine.execPacketReceive p s
  | .endToEndTimer idx => Sys2Proof.Machine.execEndToEndTimer idx s
  | .beginDrain => Sys2Proof.Machine.execBeginDrain s
  | .arm => Sys2Proof.Machine.execArm s
  | .abandon => Sys2Proof.Machine.execAbandon s
  | .goDark => Sys2Proof.Machine.execGoDark s
  | .relockStart => Sys2Proof.Machine.execRelockStart s
  | .relockComplete => Sys2Proof.Machine.execRelockComplete s
  | .calendarSwitch => Sys2Proof.Machine.execCalendarSwitch s
  | .routerPacketArrive router flit => Sys2Proof.Machine.execRouterPacketArrive router flit s
  | .butterflyCombine die iv j => Sys2Proof.Machine.execButterflyCombine die iv j s
  | .combinedReply die idx => Sys2Proof.Machine.execCombinedReply die idx s
  | .splitLoadReply core ctx idx reply => Sys2Proof.Machine.execSplitLoadReply core ctx idx reply s
  | .messageDeliver core => Sys2Proof.Machine.execMessageDeliver core s
  | .messageResend core => Sys2Proof.Machine.execMessageResend core s
  | .killReceive idx unit => Sys2Proof.Machine.execKillReceive idx unit s
  | .killSweepEnd idx router => Sys2Proof.Machine.execKillSweepEnd idx router s
  | .purgeConfirm idx => Sys2Proof.Machine.execPurgeConfirm idx s
  | .submission t page off bytes => Sys2Proof.Machine.execSubmission t page off bytes s
  | .submissionPageWrite t page => Sys2Proof.Machine.execSubmissionPageWrite t page s
  | .submitLaunch t page => Sys2Proof.Machine.execSubmitLaunch t page s
  | .submitEcadd t page => Sys2Proof.Machine.execSubmitEcadd t page s
  | .submitEcarm t page => Sys2Proof.Machine.execSubmitEcarm t page s
  | .submitNop t page => Sys2Proof.Machine.execSubmitNop t page s
  | .launchEnd t ctxid => Sys2Proof.Machine.execLaunchEnd t ctxid s
  | .cqheadWrite t page v => Sys2Proof.Machine.execCqheadWrite t page v s
  | .cqcfgWrite t page base v => Sys2Proof.Machine.execCqcfgWrite t page base v s
  | .ecincWrite t j v => Sys2Proof.Machine.execEcincWrite t j v s
  | .vfEnable t => Sys2Proof.Machine.execVfEnable t s
  | .vfDisable t => Sys2Proof.Machine.execVfDisable t s
  | .mbregWrite svc ring v => Sys2Proof.Machine.execMbregWrite svc ring v s
  | .release svc => Sys2Proof.Machine.execRelease svc s
  | .suspend svc => Sys2Proof.Machine.execSuspend svc s
  | .resume svc => Sys2Proof.Machine.execResume svc s
  | .killremote svc => Sys2Proof.Machine.execKillremote svc s
  | .ctrreset svc => Sys2Proof.Machine.execCtrreset svc s
  | .fabsend svc => Sys2Proof.Machine.execFabsend svc s
  | .mappte svc => Sys2Proof.Machine.execMappte svc s
  | .frattr svc => Sys2Proof.Machine.execFrattr svc s
  | .segload svc => Sys2Proof.Machine.execSegload svc s
  | .quote svc => Sys2Proof.Machine.execQuote svc s
  | .tencfg svc => Sys2Proof.Machine.execTencfg svc s
  | .trectWrite t v => Sys2Proof.Machine.execTrectWrite t v s
  | .tecrWrite t v => Sys2Proof.Machine.execTecrWrite t v s
  | .tsubcfgWrite t v => Sys2Proof.Machine.execTsubcfgWrite t v s
  | .testrWrite t v => Sys2Proof.Machine.execTestrWrite t v s
  | .tfwinWrite t v => Sys2Proof.Machine.execTfwinWrite t v s
  | .claim => Sys2Proof.Machine.execClaim s
  | .claimReceive c => Sys2Proof.Machine.execClaimReceive c s
  | .manifestReceive bytes => Sys2Proof.Machine.execManifestReceive bytes s
  | .chunkReceive src idx bytes => Sys2Proof.Machine.execChunkReceive src idx bytes s
  | .heartbeat => Sys2Proof.Machine.execHeartbeat s
  | .leaderWatchdog => Sys2Proof.Machine.execLeaderWatchdog s
  | .launchPlace far => Sys2Proof.Machine.execLaunchPlace far s
  | .preemptVictim => Sys2Proof.Machine.execPreemptVictim s
  | .prectlWrite core ctx v => Sys2Proof.Machine.execPrectlWrite core ctx v s
  | .threadResume core => Sys2Proof.Machine.execThreadResume core s
  | .contRecordArrive idx => Sys2Proof.Machine.execContRecordArrive idx s
  | .continuationStart cluster => Sys2Proof.Machine.execContinuationStart cluster s
  | .vectorPassBind octet => Sys2Proof.Machine.execVectorPassBind octet s
  | .vectorPassComplete core => Sys2Proof.Machine.execVectorPassComplete core s
  | .pcSample core => Sys2Proof.Machine.execPcSample core s
  | .counterRotate cluster => Sys2Proof.Machine.execCounterRotate cluster s
  | .smpcfgWrite t v => Sys2Proof.Machine.execSmpcfgWrite t v s
  | .tableWalkComplete cluster idx => Sys2Proof.Machine.execTableWalkComplete cluster idx s
  | .faultEntryWrite t => Sys2Proof.Machine.execFaultEntryWrite t s
  | .storeQueueDrain core ctx => Sys2Proof.Machine.execStoreQueueDrain core ctx s
  | .portLineDrain cluster idx => Sys2Proof.Machine.execPortLineDrain cluster idx s
  | .versionUnitRetry core ctx => Sys2Proof.Machine.execVersionUnitRetry core ctx s
  | .remoteWaiterRetry idx => Sys2Proof.Machine.execRemoteWaiterRetry idx s
  | .hbmUncorrectable pa => Sys2Proof.Machine.execHbmUncorrectable pa s
  | .asyncCauseTake core ctx => Sys2Proof.Machine.execAsyncCauseTake core ctx s
  | .trapMessageForward core => Sys2Proof.Machine.execTrapMessageForward core s
  | .trapMessageTake core => Sys2Proof.Machine.execTrapMessageTake core s
  | .chreplyWrite core ctx v => Sys2Proof.Machine.execChreplyWrite core ctx v s
  | .watchdog core ctx => Sys2Proof.Machine.execWatchdog core ctx s
  | .userInterruptTake core ctx => Sys2Proof.Machine.execUserInterruptTake core ctx s
  | .deathEvent die => Sys2Proof.Machine.execDeathEvent die s
  | .arrivalPost => Sys2Proof.Machine.execArrivalPost s
  | .esthWrite core ctx v => Sys2Proof.Machine.execEsthWrite core ctx v s
  | .matrixCommandTake cluster => Sys2Proof.Machine.execMatrixCommandTake cluster s
  | .mmaAReadEnd cluster => Sys2Proof.Machine.execMmaAReadEnd cluster s
  | .matrixCommandComplete cluster => Sys2Proof.Machine.execMatrixCommandComplete cluster s
  | .wbloadComplete cluster => Sys2Proof.Machine.execWbloadComplete cluster s
  | .copyCommandComplete core tag host => Sys2Proof.Machine.execCopyCommandComplete core tag host s
  | .gsendOpen o => Sys2Proof.Machine.execGsendOpen o s
  | .gsendObject o => Sys2Proof.Machine.execGsendObject o s
  | .gsendFinish f => Sys2Proof.Machine.execGsendFinish f s
  | .illegalInsnWord w => Sys2Proof.Machine.execIllegalInsnWord w s
  | .graphWalkComplete core ctx => Sys2Proof.Machine.execGraphWalkComplete core ctx s
  | .amodReplyStore core ctx => Sys2Proof.Machine.execAmodReplyStore core ctx s
  | .prevecWrite v => Sys2Proof.Machine.execPrevecWrite v s
  | .msixVectorUnmask t vec => Sys2Proof.Machine.execMsixVectorUnmask t vec s

end Sys2Proof.Machine
end

