-- ==== Sys2Proof/Machine/Turn.lean ====
section
/-! DEFINITION. Turns: who moves next and what passes meanwhile (06 R106, R117, R118), what a context meets before it
issues (09 R172, R173, R178, R182, R183), fetching (07 R120, R387; 12 R232, R233) and the scoreboard (03 R59). -/

namespace Sys2Proof.Machine

open Sys2Proof

/-! ## Time -/

/-- What `dt` clk add to the counters of a core that holds a live context (06 R117, R118): T_live, T_cnt, and the clk
that its contexts lose to stall reasons. -/
def Core.elapse (k : Core) (record : List Byte) (counted : Bool) (dt : Nat) : Core :=
  if ! k.anyLive then k
  else if ! counted then { k with tlive := k.tlive + dt }
  else
    let lost := k.ctxs.foldl (fun (t : Tab Nat) p =>
      if p.2.live && decide (k.reason p.1 p.2 ≠ 0) then countIn record t (0x10 + k.reason p.1 p.2) dt else t)
    { k with tlive := k.tlive + dt, tcnt := k.tcnt + dt, vcnt := lost (countIn record k.vcnt 1 dt) }

/-- `dt` clk pass. (Mark: DESIGN CHOICE, safe, log 5) -/
def State.pass (s : State) (dt : Nat) : State :=
  { s with now := s.now + dt,
           cores := Tab.mapV s.cores (fun c k => match s.launchOf c with
             | some l => k.elapse l.record (s.counted c) dt
             | none => k) }

/-- The coming turn, and the state without it: with none listed the context of the last turn issues again.
(Mark: DESIGN CHOICE, safe, log 1) -/
def State.nextTurn (s : State) : Turn × State :=
  match s.turns with
  | [] => ({ dt := 1, core := s.core, ctx := s.ctx, event := none }, s)
  | t :: r => (t, { s with turns := r })

/-- A row of the opcode table that is an event of the machine and no instruction word. -/
def Instr.isEvent (i : Instr) : Bool :=
  ! i.encoded && (match i with
    | .illegalInsnWord _ => false
    | _ => true)

/-- COLD_RESET: the one event of a module without power. -/
def Instr.isColdReset (i : Instr) : Bool := match i with
  | .coldReset => true
  | _ => false

/-! ## Fetching -/

/-- What a fetch comes to: a word, a miss, a cause, or poison. -/
inductive Fetched where
  | word (w : W32) (s : State)
  | miss (va : W64)
  | trap (cause : Nat)
  | poison (w : W32)
deriving DecidableEq, Repr

/-- A line of the instruction cache. -/
def Core.icacheLine (k : Core) (ten line : Nat) : Option (List Byte) :=
  (k.icache.find? (fun l => decide (l.1 = ten ∧ l.2.1 = line))).map (fun l => l.2.2)

/-- A line enters the instruction cache of 16 KiB; the oldest of 256 leaves. (Mark: DESIGN CHOICE, safe, log 37) -/
def Core.icacheFill (k : Core) (ten line : Nat) (bytes : List Byte) : Core :=
  { k with icache := (if k.icache.length < 256 then k.icache else k.icache.drop 1) ++ [(ten, line, bytes)] }

/-- The word in four bytes. -/
def wordOf (l : List Byte) : W32 := BitVec.ofNat 32 (ofLeBytes l)

/-- The word at a key of plain memory, through the instruction cache; a line with poison in it is not cached. -/
def State.fetchAt (s : State) (pc : W64) (key : Nat) : Fetched :=
  let ten := s.tenOf s.core
  let line := pc.toNat / 64
  match s.myCore.icacheLine ten line with
  | some b => .word (wordOf (sliceBytes b (pc.toNat % 64) 4)) s
  | none =>
    let l := (upTo (key / 64 * 64) 64).map (s.seen s.core)
    let w := wordOf (sliceBytes l (key % 64) 4)
    if s.poisoned key 4 then .poison w
    else if s.poisoned (key / 64 * 64) 64 then .word w s
    else .word w (s.setMyCore (s.myCore.icacheFill ten line l))

/-- Fetch the word at the pc of the issuing context (R387). -/
def State.fetch (s : State) : Fetched :=
  let pc := s.me.pc
  match s.resolve s.core s.ctx pc 4 false true with
  | .bytes (key :: _) => s.fetchAt pc key
  | .place (.vers f d o) => .word (wordOf (((s.verPlain (verHeader f o) d).drop (o % 8)).take 4)) s
  | .place (.sync pa) => if s.poisoned pa 4 then .poison (wordOf (s.peekN pa 4)) else .word (wordOf (s.peekN pa 4)) s
  | .miss va => .miss va
  | .trap cause _ => .trap cause
  | _ => .trap 0x05

/-- The instruction of a word: one that decodes as none is an illegal word (12 R233). -/
def insnOf (w : W32) : Instr :=
  match decode w.toNat with
  | .ok i => i
  | .error _ => .illegalInsnWord w

/-! ## Before a context issues -/

/-- What the start of a turn comes to: the turn ends so, or an instruction or event executes. -/
inductive Ready where
  | ends (o : Out)
  | issue (i : Instr) (s : State)

/-- A fetched word is decoded; it waits with stall reason 1 while a register it names is pending. -/
def State.decoded (s : State) (w : W32) : Ready :=
  let s1 := s.setMe { s.me with ir := some w, yielded := false }
  if s1.me.scoreboardWaits (insnOf w) then .ends (s1.wait 1) else .issue (insnOf w) s1

/-- The instruction at the pc: kept while it waits, fetched otherwise. Poison that is fetched is consumed (09 R192).
(Mark: DESIGN CHOICE, safe, log 15) -/
def State.atPc (s : State) : Ready :=
  match s.me.ir, s.me.stall with
  | some w, _ + 1 => s.decoded w
  | _, _ =>
    let s1 := s.setMe { s.me with ir := none }
    match s1.fetch with
    | .word w t => t.decoded w
    | .miss va => .ends (s1.miss va (accBits false false true false false))
    | .trap cause => .ends (.next (s1.trap cause s1.me.pc))
    | .poison w =>
      let t := s1.consumePoison s1.core s1.ctx s1.me.pc 2
      if isArray s1.core then .ends (.next t) else t.decoded w

/-- An instruction of the context waits for an answer that is on its way. -/
def Ctx.asks (x : Ctx) : Bool := x.pends.any (fun p => p.keep && p.answer.isNone)

/-- The oldest precise trap that is due at the issuing context; an answer that is on its way comes first, and what the context waits for is withdrawn.
(Mark: DEDUCED, unsafe, log 92) -/
def State.takeDue (s : State) : Option State :=
  match s.me.due with
  | [] => none
  | (cause, va, addr) :: r =>
    if (s.me.stall < 16 ∨ s.me.stall = stWfi) ∧ s.me.grant.isNone ∧ ! s.me.asks then
      let s1 := s.withdraw s.core s.ctx
      some ((s1.setMe { s1.me with due := r }).trapAt cause.toNat va addr)
    else none

/-- What a context takes at this turn before it issues: a trap that is due, an asynchronous cause, a message of the handler
chain, a user interrupt. (Mark: DEDUCED, unsafe, log 92) -/
def State.takeFirst (s : State) : Option State :=
  match s.takeDue with
  | some t => some t
  | none => match s.takeAsync with
    | some t => some t
    | none => match s.takeChain with
      | some t => some t
      | none => s.takeUi

/-- The issuing context cannot move: it is not live, its core or cluster is halted, the cluster's clock is gated (01 R13), the
module sleeps, or it was stopped by a fault in a handler. -/
def State.still (s : State) : Bool :=
  let cl := s.clusterAt (clusterOf s.core)
  ! s.me.live || s.me.stopped || ! s.awake || s.myCore.halted || (isArray s.core && (cl.halted || cl.gatedAt.isSome))

/-- A context of a thread that is being saved or restored stops at its boundary, the handler's only until it has taken
PREEMPT (09 R183): a wait that has had no effect is withdrawn, and one that has goes on. -/
def State.heldBack (s : State) : Option State :=
  match s.myCore.saving with
  | some (k, h) =>
    if s.ctx = h ∧ ¬ (s.me.boundary ∧ s.me.preempted) then none
    else if k = 0 ∧ (16 ≤ s.me.stall ∨ s.me.grant.isSome ∨ s.me.asks) then none
    else if s.me.stall = 0 then some s
    else some (s.withdraw s.core s.ctx)
  | none => none

/-- Another live context of the core is not waiting (14 R274). -/
def State.othersReady (s : State) : Bool :=
  s.myCore.ctxs.any (fun p => decide (p.1 ≠ s.ctx) && p.2.live && ! p.2.stopped && decide (p.2.stall = 0))

/-- The turn of a context. One that has yielded passes a turn, if another context of the core can take it. -/
def State.ctxTurn (s : State) : Ready :=
  if s.core = monitorCore ∧ s.boot.boot = 1 then .ends (.next s.bootRom)
  else if s.still then .ends (.next s)
  else if s.me.yielded && s.othersReady then .ends (.next (s.setMe { s.me with yielded := false }))
  else match s.takeFirst with
    | some t => .ends (.next t)
    | none => match s.heldBack with
      | some t => .ends (.next t)
      | none => if s.me.stall = 10 then .ends (.next s) else s.atPc

/-- The checker of the core disagrees with the instruction that issues (09 R189): nothing of it commits, and it executes once
more, with stall reason 12 and counter event 0x0B; where that is the second mismatch, CHECKER_MISMATCH. An instruction that
waits for something else has been checked when it first issued. (Mark: DEDUCED, unsafe, log 128) -/
def Ready.mismatch (r : Ready) : Ready := match r with
  | .ends o => .ends o
  | .issue i s =>
    if s.me.stall = 12 then .ends (.next (s.trap 0x17 (zext (s.me.ir.getD 0))))
    else if s.me.stall = 0 then .ends ((s.countOn s.core 0x0B 1).wait 12)
    else .issue i s

/-- What the outside does to the hardware at a turn takes the turn: a read by the host, an error in SRAM or in the matrix
engine. (Mark: DEDUCED, unsafe, log 127) -/
def State.outside (s : State) (t : Turn) : Option State :=
  match t.read, t.upset with
  | some r, _ => some (s.hostRead r)
  | none, some (.sum cl pass elem delta) => some (s.sumError cl pass elem delta)
  | none, some (.sram key double) => some (s.sramError key double)
  | none, _ => none

/-- The start of a step: time passes, and a read by the host, an error, an event or the turn of a context comes.
(Mark: DESIGN CHOICE, safe, log 1; DESIGN CHOICE, safe, log 100) -/
def State.begin (s : State) : Ready :=
  let (t, s0) := s.nextTurn
  let s1 := s0.pass t.dt
  if s1.power.off then
    match t.event with
    | some i => if Instr.isColdReset i then .issue i s1 else .ends (.fault .poweredOff)
    | none => .ends (.fault .poweredOff)
  else match s1.outside t, t.event with
    | some u, _ => .ends (.next u)
    | none, some i => if Instr.isEvent i then .issue i s1.attend else .ends (.next s1)
    | none, none =>
      let s2 := s1.at t.core t.ctx
      let r := (if (Tab.find s2.cores t.core).isSome then s2.setMyCore { s2.myCore with turn := t.ctx } else s2).ctxTurn
      if t.upset = some .checker then r.mismatch else r

/-! ## Loading a word to be fetched -/

/-- The launch that a load puts on core 1: one thread of tenant 0 on a 1 × 1 sub-mesh, with vector weight 1.
(Mark: DESIGN CHOICE, safe, log 11) -/
def loadedLaunch (s : State) : Launch :=
  { ten := 0, ctxid := 1, record := leBytes 64 0x1010101 ++ leBytes 128 1, recVa := 0, prio := 0, sub := none, queue := 16, state := .placed,
    since := s.now, origin := 0, placedAt := some s.now, ended := none, faulted := false, held := false, saved := [], evicted := [], records := [], finished := [] }

/-- A program is loaded from outside (log 11): a thread of tenant 0 on core 1, its pc in a page that its TLB translates.
(Mark: DESIGN CHOICE, safe, log 11) -/
def State.loadThread (s : State) : State :=
  let leaf : W64 := w64 (1 + 4 + 8 + 2 ^ 10 + 8192 * 65536)
  let t : TlbEnt := { ten := 0, page := 65536, level := 3, pte := leaf }
  let x : Ctx := { Ctx.reset with live := true, pc := w64 (2 ^ 32) }
  let k : Core := { Core.reset with ctxs := [(0, x)], thread := some (0, 1, 0), tlb := [t] }
  let n := s.tenantAt 0
  let s1 := (s.setCore 1 k).setTenant 0 { n with trect := w64 (2 ^ 16) }
  { s1 with turns := [], core := 1, ctx := 0, launches := loadedLaunch s :: s.launches.filter (fun l => ! decide (l.ten = 0 ∧ l.ctxid = 1)),
            clusters := match Tab.find s1.clusters 0 with
              | some c => Tab.set s1.clusters 0 { c with halted := false, gatedAt := none }
              | none => s1.clusters,
            power := { s1.power with off := false, cur := 0, waking := none } }

/-- Where the coming step fetches in plain memory, if it fetches: the state, with the time of the turn passed, and the key.
(Mark: DESIGN CHOICE, safe, log 11) -/
def State.fetchKey (s : State) : Option Nat :=
  match s.turns with
  | t :: _ => if t.event.isSome ∨ t.read.isSome ∨ t.upset.isSome then none else keyOf (s.at t.core t.ctx)
  | [] => keyOf s
where
  /-- The key that a context's fetch reads, when nothing comes before it. -/
  keyOf (u : State) : Option Nat :=
    if (u.core = monitorCore ∧ u.boot.boot = 1) ∨ u.power.off ∨ u.still ∨ u.me.yielded ∨ u.takeFirst.isSome ∨ u.heldBack.isSome
        ∨ u.me.stall ≠ 0 then none
    else match u.resolve u.core u.ctx u.me.pc 4 false true with
      | .bytes (key :: _) => some key
      | _ => none

end Sys2Proof.Machine
end

