-- ==== Sys2Proof/Machine/Step.lean ====
section
/-! DEFINITION. The step: one turn of the machine (log 1). -/

namespace Sys2Proof.Machine

open Sys2Proof

/-- One step: what the start of the turn comes to, or the meaning of the instruction or event.
(Mark: DESIGN CHOICE, safe, log 1) -/
def step (s : State) : Out :=
  match s.begin with
  | .ends o => o
  | .issue i t => exec i t

/-- A word where the coming step fetches: into the memory that the context whose turn it is fetches from, or, where no
context is about to fetch, as a program loaded from outside. Cached lines of instructions are dropped.
(Mark: DESIGN CHOICE, safe, log 11) -/
def State.withFetchWord (s : State) (nbits w : Nat) : State :=
  let bytes := leBytes 4 (w % 2 ^ min nbits 32)
  match s.fetchKey with
  | some key =>
    let s1 := s.pokeN key bytes
    { s1 with cores := Tab.mapV s1.cores (fun _ k => { k with icache := [] }),
              clusters := Tab.mapV s1.clusters (fun _ k => { k with port := k.port.filter (fun l => l.line != key / 64) }) }
  | none => s.loadThread.pokeN (8192 * 65536) bytes

end Sys2Proof.Machine
end

