-- ==== Sys2Proof/Laws/PerInstr.lean ====
section
/-! SUPPORT. The statements that are made for every instruction, one lemma per constructor: decoding the encoded word of
a well-formed instruction gives it back (12_formats_assembly.md R233, R234; 13_opcode_map.md R251, R252). -/

-- One proof after the other: many at once need more threads than the check has memory for.
set_option Elab.async false

namespace Sys2Proof.Laws

open Sys2Proof

/-- A field of a word is the operand that was put there. -/
theorem fld_eq {n : Nat} (v : BitVec n) (w sh : Nat) (h : w / sh % 2 ^ n = v.toNat) : fld n w sh = v := by
  apply BitVec.eq_of_toNat_eq
  simpa [fld] using h

/-- A word whose fixed bits are those of a well-formed instruction decodes as it. -/
theorem decode_of_raw {w m : Nat} {i : Instr} (hm : w / 67108864 % 64 = m) (h0 : 0 < m) (h1 : m < 40)
    (hr : rawDecode w = some i) (hw : i.wf = true) : decode w = .ok i := by
  have ht : i.typeOk = true ∧ i.fieldsOk = true := by
    simp only [Instr.wf, Bool.and_eq_true] at hw
    exact ⟨hw.1.2, hw.2⟩
  simp only [decode, hm, hr, ht.1, ht.2, if_true]
  rw [if_neg (by omega), if_neg (by omega)]

end Sys2Proof.Laws

/-- Decoding the word of a well-formed encoded instruction gives it back. -/
def Sys2Proof.Laws.RoundTrip.Statement (i : Sys2Proof.Instr) : Prop :=
  i.encoded = true → i.wf = true → Sys2Proof.decode (Sys2Proof.encode i) = .ok i

namespace Sys2Proof.Laws.RoundTrip

open Sys2Proof Sys2Proof.Laws

theorem add (d : BitVec 5) (a : BitVec 5) (b : BitVec 5) : Statement (.add d a b) := by
  intro _ hw
  have h0 := d.isLt; have h1 := a.isLt; have h2 := b.isLt
  change decode (0x04000000 + d.toNat * 2097152 + a.toNat * 65536 + b.toNat * 2048) = _
  generalize hx : 0x04000000 + d.toNat * 2097152 + a.toNat * 65536 + b.toNat * 2048 = wd
  refine decode_of_raw (m := 1) (by omega) (by decide) (by decide) ?_ hw
  have hm : wd / 67108864 % 64 = 1 := by omega
  simp only [rawDecode, hm, decodeMajor01]
  rw [if_pos (by omega), fld_eq d _ _ (by omega), fld_eq a _ _ (by omega), fld_eq b _ _ (by omega)]

theorem sub (d : BitVec 5) (a : BitVec 5) (b : BitVec 5) : Statement (.sub d a b) := by
  intro _ hw
  have h0 := d.isLt; have h1 := a.isLt; have h2 := b.isLt
  change decode (0x04000040 + d.toNat * 2097152 + a.toNat * 65536 + b.toNat * 2048) = _
  generalize hx : 0x04000040 + d.toNat * 2097152 + a.toNat * 65536 + b.toNat * 2048 = wd
  refine decode_of_raw (m := 1) (by omega) (by decide) (by decide) ?_ hw
  have hm : wd / 67108864 % 64 = 1 := by omega
  simp only [rawDecode, hm, decodeMajor01]
  iterate 1 rw [if_neg (by omega)]
  rw [if_pos (by omega), fld_eq d _ _ (by omega), fld_eq a _ _ (by omega), fld_eq b _ _ (by omega)]

theorem mul (d : BitVec 5) (a : BitVec 5) (b : BitVec 5) : Statement (.mul d a b) := by
  intro _ hw
  have h0 := d.isLt; have h1 := a.isLt; have h2 := b.isLt
  change decode (0x04000080 + d.toNat * 2097152 + a.toNat * 65536 + b.toNat * 2048) = _
  generalize hx : 0x04000080 + d.toNat * 2097152 + a.toNat * 65536 + b.toNat * 2048 = wd
  refine decode_of_raw (m := 1) (by omega) (by decide) (by decide) ?_ hw
  have hm : wd / 67108864 % 64 = 1 := by omega
  simp only [rawDecode, hm, decodeMajor01]
  iterate 2 rw [if_neg (by omega)]
  rw [if_pos (by omega), fld_eq d _ _ (by omega), fld_eq a _ _ (by omega), fld_eq b _ _ (by omega)]

theorem mulh (d : BitVec 5) (a : BitVec 5) (b : BitVec 5) : Statement (.mulh d a b) := by
  intro _ hw
  have h0 := d.isLt; have h1 := a.isLt; have h2 := b.isLt
  change decode (0x040000C0 + d.toNat * 2097152 + a.toNat * 65536 + b.toNat * 2048) = _
  generalize hx : 0x040000C0 + d.toNat * 2097152 + a.toNat * 65536 + b.toNat * 2048 = wd
  refine decode_of_raw (m := 1) (by omega) (by decide) (by decide) ?_ hw
  have hm : wd / 67108864 % 64 = 1 := by omega
  simp only [rawDecode, hm, decodeMajor01]
  iterate 3 rw [if_neg (by omega)]
  rw [if_pos (by omega), fld_eq d _ _ (by omega), fld_eq a _ _ (by omega), fld_eq b _ _ (by omega)]

theorem mulhn (d : BitVec 5) (a : BitVec 5) (b : BitVec 5) : Statement (.mulhn d a b) := by
  intro _ hw
  have h0 := d.isLt; have h1 := a.isLt; have h2 := b.isLt
  change decode (0x04000100 + d.toNat * 2097152 + a.toNat * 65536 + b.toNat * 2048) = _
  generalize hx : 0x04000100 + d.toNat * 2097152 + a.toNat * 65536 + b.toNat * 2048 = wd
  refine decode_of_raw (m := 1) (by omega) (by decide) (by decide) ?_ hw
  have hm : wd / 67108864 % 64 = 1 := by omega
  simp only [rawDecode, hm, decodeMajor01]
  iterate 4 rw [if_neg (by omega)]
  rw [if_pos (by omega), fld_eq d _ _ (by omega), fld_eq a _ _ (by omega), fld_eq b _ _ (by omega)]

theorem div (d : BitVec 5) (a : BitVec 5) (b : BitVec 5) : Statement (.div d a b) := by
  intro _ hw
  have h0 := d.isLt; have h1 := a.isLt; have h2 := b.isLt
  change decode (0x04000140 + d.toNat * 2097152 + a.toNat * 65536 + b.toNat * 2048) = _
  generalize hx : 0x04000140 + d.toNat * 2097152 + a.toNat * 65536 + b.toNat * 2048 = wd
  refine decode_of_raw (m := 1) (by omega) (by decide) (by decide) ?_ hw
  have hm : wd / 67108864 % 64 = 1 := by omega
  simp only [rawDecode, hm, decodeMajor01]
  iterate 5 rw [if_neg (by omega)]
  rw [if_pos (by omega), fld_eq d _ _ (by omega), fld_eq a _ _ (by omega), fld_eq b _ _ (by omega)]

theorem divn (d : BitVec 5) (a : BitVec 5) (b : BitVec 5) : Statement (.divn d a b) := by
  intro _ hw
  have h0 := d.isLt; have h1 := a.isLt; have h2 := b.isLt
  change decode (0x04000180 + d.toNat * 2097152 + a.toNat * 65536 + b.toNat * 2048) = _
  generalize hx : 0x04000180 + d.toNat * 2097152 + a.toNat * 65536 + b.toNat * 2048 = wd
  refine decode_of_raw (m := 1) (by omega) (by decide) (by decide) ?_ hw
  have hm : wd / 67108864 % 64 = 1 := by omega
  simp only [rawDecode, hm, decodeMajor01]
  iterate 6 rw [if_neg (by omega)]
  rw [if_pos (by omega), fld_eq d _ _ (by omega), fld_eq a _ _ (by omega), fld_eq b _ _ (by omega)]

theorem rem (d : BitVec 5) (a : BitVec 5) (b : BitVec 5) : Statement (.rem d a b) := by
  intro _ hw
  have h0 := d.isLt; have h1 := a.isLt; have h2 := b.isLt
  change decode (0x040001C0 + d.toNat * 2097152 + a.toNat * 65536 + b.toNat * 2048) = _
  generalize hx : 0x040001C0 + d.toNat * 2097152 + a.toNat * 65536 + b.toNat * 2048 = wd
  refine decode_of_raw (m := 1) (by omega) (by decide) (by decide) ?_ hw
  have hm : wd / 67108864 % 64 = 1 := by omega
  simp only [rawDecode, hm, decodeMajor01]
  iterate 7 rw [if_neg (by omega)]
  rw [if_pos (by omega), fld_eq d _ _ (by omega), fld_eq a _ _ (by omega), fld_eq b _ _ (by omega)]

theorem remn (d : BitVec 5) (a : BitVec 5) (b : BitVec 5) : Statement (.remn d a b) := by
  intro _ hw
  have h0 := d.isLt; have h1 := a.isLt; have h2 := b.isLt
  change decode (0x04000200 + d.toNat * 2097152 + a.toNat * 65536 + b.toNat * 2048) = _
  generalize hx : 0x04000200 + d.toNat * 2097152 + a.toNat * 65536 + b.toNat * 2048 = wd
  refine decode_of_raw (m := 1) (by omega) (by decide) (by decide) ?_ hw
  have hm : wd / 67108864 % 64 = 1 := by omega
  simp only [rawDecode, hm, decodeMajor01]
  iterate 8 rw [if_neg (by omega)]
  rw [if_pos (by omega), fld_eq d _ _ (by omega), fld_eq a _ _ (by omega), fld_eq b _ _ (by omega)]

theorem and (d : BitVec 5) (a : BitVec 5) (b : BitVec 5) : Statement (.and d a b) := by
  intro _ hw
  have h0 := d.isLt; have h1 := a.isLt; have h2 := b.isLt
  change decode (0x04000240 + d.toNat * 2097152 + a.toNat * 65536 + b.toNat * 2048) = _
  generalize hx : 0x04000240 + d.toNat * 2097152 + a.toNat * 65536 + b.toNat * 2048 = wd
  refine decode_of_raw (m := 1) (by omega) (by decide) (by decide) ?_ hw
  have hm : wd / 67108864 % 64 = 1 := by omega
  simp only [rawDecode, hm, decodeMajor01]
  iterate 9 rw [if_neg (by omega)]
  rw [if_pos (by omega), fld_eq d _ _ (by omega), fld_eq a _ _ (by omega), fld_eq b _ _ (by omega)]

theorem or (d : BitVec 5) (a : BitVec 5) (b : BitVec 5) : Statement (.or d a b) := by
  intro _ hw
  have h0 := d.isLt; have h1 := a.isLt; have h2 := b.isLt
  change decode (0x04000280 + d.toNat * 2097152 + a.toNat * 65536 + b.toNat * 2048) = _
  generalize hx : 0x04000280 + d.toNat * 2097152 + a.toNat * 65536 + b.toNat * 2048 = wd
  refine decode_of_raw (m := 1) (by omega) (by decide) (by decide) ?_ hw
  have hm : wd / 67108864 % 64 = 1 := by omega
  simp only [rawDecode, hm, decodeMajor01]
  iterate 10 rw [if_neg (by omega)]
  rw [if_pos (by omega), fld_eq d _ _ (by omega), fld_eq a _ _ (by omega), fld_eq b _ _ (by omega)]

theorem xor (d : BitVec 5) (a : BitVec 5) (b : BitVec 5) : Statement (.xor d a b) := by
  intro _ hw
  have h0 := d.isLt; have h1 := a.isLt; have h2 := b.isLt
  change decode (0x040002C0 + d.toNat * 2097152 + a.toNat * 65536 + b.toNat * 2048) = _
  generalize hx : 0x040002C0 + d.toNat * 2097152 + a.toNat * 65536 + b.toNat * 2048 = wd
  refine decode_of_raw (m := 1) (by omega) (by decide) (by decide) ?_ hw
  have hm : wd / 67108864 % 64 = 1 := by omega
  simp only [rawDecode, hm, decodeMajor01]
  iterate 11 rw [if_neg (by omega)]
  rw [if_pos (by omega), fld_eq d _ _ (by omega), fld_eq a _ _ (by omega), fld_eq b _ _ (by omega)]

theorem andn (d : BitVec 5) (a : BitVec 5) (b : BitVec 5) : Statement (.andn d a b) := by
  intro _ hw
  have h0 := d.isLt; have h1 := a.isLt; have h2 := b.isLt
  change decode (0x04000300 + d.toNat * 2097152 + a.toNat * 65536 + b.toNat * 2048) = _
  generalize hx : 0x04000300 + d.toNat * 2097152 + a.toNat * 65536 + b.toNat * 2048 = wd
  refine decode_of_raw (m := 1) (by omega) (by decide) (by decide) ?_ hw
  have hm : wd / 67108864 % 64 = 1 := by omega
  simp only [rawDecode, hm, decodeMajor01]
  iterate 12 rw [if_neg (by omega)]
  rw [if_pos (by omega), fld_eq d _ _ (by omega), fld_eq a _ _ (by omega), fld_eq b _ _ (by omega)]

theorem shl (d : BitVec 5) (a : BitVec 5) (b : BitVec 5) : Statement (.shl d a b) := by
  intro _ hw
  have h0 := d.isLt; have h1 := a.isLt; have h2 := b.isLt
  change decode (0x04000340 + d.toNat * 2097152 + a.toNat * 65536 + b.toNat * 2048) = _
  generalize hx : 0x04000340 + d.toNat * 2097152 + a.toNat * 65536 + b.toNat * 2048 = wd
  refine decode_of_raw (m := 1) (by omega) (by decide) (by decide) ?_ hw
  have hm : wd / 67108864 % 64 = 1 := by omega
  simp only [rawDecode, hm, decodeMajor01]
  iterate 13 rw [if_neg (by omega)]
  rw [if_pos (by omega), fld_eq d _ _ (by omega), fld_eq a _ _ (by omega), fld_eq b _ _ (by omega)]

theorem shr (d : BitVec 5) (a : BitVec 5) (b : BitVec 5) : Statement (.shr d a b) := by
  intro _ hw
  have h0 := d.isLt; have h1 := a.isLt; have h2 := b.isLt
  change decode (0x04000380 + d.toNat * 2097152 + a.toNat * 65536 + b.toNat * 2048) = _
  generalize hx : 0x04000380 + d.toNat * 2097152 + a.toNat * 65536 + b.toNat * 2048 = wd
  refine decode_of_raw (m := 1) (by omega) (by decide) (by decide) ?_ hw
  have hm : wd / 67108864 % 64 = 1 := by omega
  simp only [rawDecode, hm, decodeMajor01]
  iterate 14 rw [if_neg (by omega)]
  rw [if_pos (by omega), fld_eq d _ _ (by omega), fld_eq a _ _ (by omega), fld_eq b _ _ (by omega)]

theorem shra (d : BitVec 5) (a : BitVec 5) (b : BitVec 5) : Statement (.shra d a b) := by
  intro _ hw
  have h0 := d.isLt; have h1 := a.isLt; have h2 := b.isLt
  change decode (0x040003C0 + d.toNat * 2097152 + a.toNat * 65536 + b.toNat * 2048) = _
  generalize hx : 0x040003C0 + d.toNat * 2097152 + a.toNat * 65536 + b.toNat * 2048 = wd
  refine decode_of_raw (m := 1) (by omega) (by decide) (by decide) ?_ hw
  have hm : wd / 67108864 % 64 = 1 := by omega
  simp only [rawDecode, hm, decodeMajor01]
  iterate 15 rw [if_neg (by omega)]
  rw [if_pos (by omega), fld_eq d _ _ (by omega), fld_eq a _ _ (by omega), fld_eq b _ _ (by omega)]

theorem rotl (d : BitVec 5) (a : BitVec 5) (b : BitVec 5) : Statement (.rotl d a b) := by
  intro _ hw
  have h0 := d.isLt; have h1 := a.isLt; have h2 := b.isLt
  change decode (0x04000400 + d.toNat * 2097152 + a.toNat * 65536 + b.toNat * 2048) = _
  generalize hx : 0x04000400 + d.toNat * 2097152 + a.toNat * 65536 + b.toNat * 2048 = wd
  refine decode_of_raw (m := 1) (by omega) (by decide) (by decide) ?_ hw
  have hm : wd / 67108864 % 64 = 1 := by omega
  simp only [rawDecode, hm, decodeMajor01]
  iterate 16 rw [if_neg (by omega)]
  rw [if_pos (by omega), fld_eq d _ _ (by omega), fld_eq a _ _ (by omega), fld_eq b _ _ (by omega)]

theorem min (d : BitVec 5) (a : BitVec 5) (b : BitVec 5) : Statement (.min d a b) := by
  intro _ hw
  have h0 := d.isLt; have h1 := a.isLt; have h2 := b.isLt
  change decode (0x04000440 + d.toNat * 2097152 + a.toNat * 65536 + b.toNat * 2048) = _
  generalize hx : 0x04000440 + d.toNat * 2097152 + a.toNat * 65536 + b.toNat * 2048 = wd
  refine decode_of_raw (m := 1) (by omega) (by decide) (by decide) ?_ hw
  have hm : wd / 67108864 % 64 = 1 := by omega
  simp only [rawDecode, hm, decodeMajor01]
  iterate 17 rw [if_neg (by omega)]
  rw [if_pos (by omega), fld_eq d _ _ (by omega), fld_eq a _ _ (by omega), fld_eq b _ _ (by omega)]

theorem max (d : BitVec 5) (a : BitVec 5) (b : BitVec 5) : Statement (.max d a b) := by
  intro _ hw
  have h0 := d.isLt; have h1 := a.isLt; have h2 := b.isLt
  change decode (0x04000480 + d.toNat * 2097152 + a.toNat * 65536 + b.toNat * 2048) = _
  generalize hx : 0x04000480 + d.toNat * 2097152 + a.toNat * 65536 + b.toNat * 2048 = wd
  refine decode_of_raw (m := 1) (by omega) (by decide) (by decide) ?_ hw
  have hm : wd / 67108864 % 64 = 1 := by omega
  simp only [rawDecode, hm, decodeMajor01]
  iterate 18 rw [if_neg (by omega)]
  rw [if_pos (by omega), fld_eq d _ _ (by omega), fld_eq a _ _ (by omega), fld_eq b _ _ (by omega)]

theorem minn (d : BitVec 5) (a : BitVec 5) (b : BitVec 5) : Statement (.minn d a b) := by
  intro _ hw
  have h0 := d.isLt; have h1 := a.isLt; have h2 := b.isLt
  change decode (0x040004C0 + d.toNat * 2097152 + a.toNat * 65536 + b.toNat * 2048) = _
  generalize hx : 0x040004C0 + d.toNat * 2097152 + a.toNat * 65536 + b.toNat * 2048 = wd
  refine decode_of_raw (m := 1) (by omega) (by decide) (by decide) ?_ hw
  have hm : wd / 67108864 % 64 = 1 := by omega
  simp only [rawDecode, hm, decodeMajor01]
  iterate 19 rw [if_neg (by omega)]
  rw [if_pos (by omega), fld_eq d _ _ (by omega), fld_eq a _ _ (by omega), fld_eq b _ _ (by omega)]

theorem maxn (d : BitVec 5) (a : BitVec 5) (b : BitVec 5) : Statement (.maxn d a b) := by
  intro _ hw
  have h0 := d.isLt; have h1 := a.isLt; have h2 := b.isLt
  change decode (0x04000500 + d.toNat * 2097152 + a.toNat * 65536 + b.toNat * 2048) = _
  generalize hx : 0x04000500 + d.toNat * 2097152 + a.toNat * 65536 + b.toNat * 2048 = wd
  refine decode_of_raw (m := 1) (by omega) (by decide) (by decide) ?_ hw
  have hm : wd / 67108864 % 64 = 1 := by omega
  simp only [rawDecode, hm, decodeMajor01]
  iterate 20 rw [if_neg (by omega)]
  rw [if_pos (by omega), fld_eq d _ _ (by omega), fld_eq a _ _ (by omega), fld_eq b _ _ (by omega)]

theorem slt (d : BitVec 5) (a : BitVec 5) (b : BitVec 5) : Statement (.slt d a b) := by
  intro _ hw
  have h0 := d.isLt; have h1 := a.isLt; have h2 := b.isLt
  change decode (0x04000540 + d.toNat * 2097152 + a.toNat * 65536 + b.toNat * 2048) = _
  generalize hx : 0x04000540 + d.toNat * 2097152 + a.toNat * 65536 + b.toNat * 2048 = wd
  refine decode_of_raw (m := 1) (by omega) (by decide) (by decide) ?_ hw
  have hm : wd / 67108864 % 64 = 1 := by omega
  simp only [rawDecode, hm, decodeMajor01]
  iterate 21 rw [if_neg (by omega)]
  rw [if_pos (by omega), fld_eq d _ _ (by omega), fld_eq a _ _ (by omega), fld_eq b _ _ (by omega)]

theorem sltn (d : BitVec 5) (a : BitVec 5) (b : BitVec 5) : Statement (.sltn d a b) := by
  intro _ hw
  have h0 := d.isLt; have h1 := a.isLt; have h2 := b.isLt
  change decode (0x04000580 + d.toNat * 2097152 + a.toNat * 65536 + b.toNat * 2048) = _
  generalize hx : 0x04000580 + d.toNat * 2097152 + a.toNat * 65536 + b.toNat * 2048 = wd
  refine decode_of_raw (m := 1) (by omega) (by decide) (by decide) ?_ hw
  have hm : wd / 67108864 % 64 = 1 := by omega
  simp only [rawDecode, hm, decodeMajor01]
  iterate 22 rw [if_neg (by omega)]
  rw [if_pos (by omega), fld_eq d _ _ (by omega), fld_eq a _ _ (by omega), fld_eq b _ _ (by omega)]

theorem sel (d : BitVec 5) (a : BitVec 5) (b : BitVec 5) (c : BitVec 5) : Statement (.sel d a b c) := by
  intro _ hw
  have h0 := d.isLt; have h1 := a.isLt; have h2 := b.isLt; have h3 := c.isLt
  change decode (0x040005C0 + d.toNat * 2097152 + a.toNat * 65536 + b.toNat * 2048 + c.toNat) = _
  generalize hx : 0x040005C0 + d.toNat * 2097152 + a.toNat * 65536 + b.toNat * 2048 + c.toNat = wd
  refine decode_of_raw (m := 1) (by omega) (by decide) (by decide) ?_ hw
  have hm : wd / 67108864 % 64 = 1 := by omega
  simp only [rawDecode, hm, decodeMajor01]
  iterate 23 rw [if_neg (by omega)]
  rw [if_pos (by omega), fld_eq d _ _ (by omega), fld_eq a _ _ (by omega), fld_eq b _ _ (by omega), fld_eq c _ _ (by omega)]

theorem clz (d : BitVec 5) (a : BitVec 5) : Statement (.clz d a) := by
  intro _ hw
  have h0 := d.isLt; have h1 := a.isLt
  change decode (0x04000600 + d.toNat * 2097152 + a.toNat * 65536) = _
  generalize hx : 0x04000600 + d.toNat * 2097152 + a.toNat * 65536 = wd
  refine decode_of_raw (m := 1) (by omega) (by decide) (by decide) ?_ hw
  have hm : wd / 67108864 % 64 = 1 := by omega
  simp only [rawDecode, hm, decodeMajor01]
  iterate 24 rw [if_neg (by omega)]
  rw [if_pos (by omega), fld_eq d _ _ (by omega), fld_eq a _ _ (by omega)]

theorem ctz (d : BitVec 5) (a : BitVec 5) : Statement (.ctz d a) := by
  intro _ hw
  have h0 := d.isLt; have h1 := a.isLt
  change decode (0x04000640 + d.toNat * 2097152 + a.toNat * 65536) = _
  generalize hx : 0x04000640 + d.toNat * 2097152 + a.toNat * 65536 = wd
  refine decode_of_raw (m := 1) (by omega) (by decide) (by decide) ?_ hw
  have hm : wd / 67108864 % 64 = 1 := by omega
  simp only [rawDecode, hm, decodeMajor01]
  iterate 25 rw [if_neg (by omega)]
  rw [if_pos (by omega), fld_eq d _ _ (by omega), fld_eq a _ _ (by omega)]

theorem popc (d : BitVec 5) (a : BitVec 5) : Statement (.popc d a) := by
  intro _ hw
  have h0 := d.isLt; have h1 := a.isLt
  change decode (0x04000680 + d.toNat * 2097152 + a.toNat * 65536) = _
  generalize hx : 0x04000680 + d.toNat * 2097152 + a.toNat * 65536 = wd
  refine decode_of_raw (m := 1) (by omega) (by decide) (by decide) ?_ hw
  have hm : wd / 67108864 % 64 = 1 := by omega
  simp only [rawDecode, hm, decodeMajor01]
  iterate 26 rw [if_neg (by omega)]
  rw [if_pos (by omega), fld_eq d _ _ (by omega), fld_eq a _ _ (by omega)]

theorem ext (d : BitVec 5) (a : BitVec 5) (b : BitVec 5) (l : BitVec 6) : Statement (.ext d a b l) := by
  intro _ hw
  have h0 := d.isLt; have h1 := a.isLt; have h2 := b.isLt; have h3 := l.isLt
  change decode (0x040006C0 + d.toNat * 2097152 + a.toNat * 65536 + b.toNat * 2048 + l.toNat) = _
  generalize hx : 0x040006C0 + d.toNat * 2097152 + a.toNat * 65536 + b.toNat * 2048 + l.toNat = wd
  refine decode_of_raw (m := 1) (by omega) (by decide) (by decide) ?_ hw
  have hm : wd / 67108864 % 64 = 1 := by omega
  simp only [rawDecode, hm, decodeMajor01]
  iterate 27 rw [if_neg (by omega)]
  rw [if_pos (by omega), fld_eq d _ _ (by omega), fld_eq a _ _ (by omega), fld_eq b _ _ (by omega), fld_eq l _ _ (by omega)]

theorem ins (d : BitVec 5) (a : BitVec 5) (b : BitVec 5) (l : BitVec 6) : Statement (.ins d a b l) := by
  intro _ hw
  have h0 := d.isLt; have h1 := a.isLt; have h2 := b.isLt; have h3 := l.isLt
  change decode (0x04000700 + d.toNat * 2097152 + a.toNat * 65536 + b.toNat * 2048 + l.toNat) = _
  generalize hx : 0x04000700 + d.toNat * 2097152 + a.toNat * 65536 + b.toNat * 2048 + l.toNat = wd
  refine decode_of_raw (m := 1) (by omega) (by decide) (by decide) ?_ hw
  have hm : wd / 67108864 % 64 = 1 := by omega
  simp only [rawDecode, hm, decodeMajor01]
  iterate 28 rw [if_neg (by omega)]
  rw [if_pos (by omega), fld_eq d _ _ (by omega), fld_eq a _ _ (by omega), fld_eq b _ _ (by omega), fld_eq l _ _ (by omega)]

theorem adds (d : BitVec 5) (a : BitVec 5) (b : BitVec 5) : Statement (.adds d a b) := by
  intro _ hw
  have h0 := d.isLt; have h1 := a.isLt; have h2 := b.isLt
  change decode (0x04000740 + d.toNat * 2097152 + a.toNat * 65536 + b.toNat * 2048) = _
  generalize hx : 0x04000740 + d.toNat * 2097152 + a.toNat * 65536 + b.toNat * 2048 = wd
  refine decode_of_raw (m := 1) (by omega) (by decide) (by decide) ?_ hw
  have hm : wd / 67108864 % 64 = 1 := by omega
  simp only [rawDecode, hm, decodeMajor01]
  iterate 29 rw [if_neg (by omega)]
  rw [if_pos (by omega), fld_eq d _ _ (by omega), fld_eq a _ _ (by omega), fld_eq b _ _ (by omega)]

theorem addi (d : BitVec 5) (a : BitVec 5) (i : BitVec 16) : Statement (.addi d a i) := by
  intro _ hw
  have h0 := d.isLt; have h1 := a.isLt; have h2 := i.isLt
  change decode (0x08000000 + d.toNat * 2097152 + a.toNat * 65536 + i.toNat) = _
  generalize hx : 0x08000000 + d.toNat * 2097152 + a.toNat * 65536 + i.toNat = wd
  refine decode_of_raw (m := 2) (by omega) (by decide) (by decide) ?_ hw
  have hm : wd / 67108864 % 64 = 2 := by omega
  simp only [rawDecode, hm, decodeMajor02]
  rw [fld_eq d _ _ (by omega), fld_eq a _ _ (by omega), fld_eq i _ _ (by omega)]

theorem andi (d : BitVec 5) (a : BitVec 5) (i : BitVec 16) : Statement (.andi d a i) := by
  intro _ hw
  have h0 := d.isLt; have h1 := a.isLt; have h2 := i.isLt
  change decode (0x0C000000 + d.toNat * 2097152 + a.toNat * 65536 + i.toNat) = _
  generalize hx : 0x0C000000 + d.toNat * 2097152 + a.toNat * 65536 + i.toNat = wd
  refine decode_of_raw (m := 3) (by omega) (by decide) (by decide) ?_ hw
  have hm : wd / 67108864 % 64 = 3 := by omega
  simp only [rawDecode, hm, decodeMajor03]
  rw [fld_eq d _ _ (by omega), fld_eq a _ _ (by omega), fld_eq i _ _ (by omega)]

theorem ori (d : BitVec 5) (a : BitVec 5) (i : BitVec 16) : Statement (.ori d a i) := by
  intro _ hw
  have h0 := d.isLt; have h1 := a.isLt; have h2 := i.isLt
  change decode (0x10000000 + d.toNat * 2097152 + a.toNat * 65536 + i.toNat) = _
  generalize hx : 0x10000000 + d.toNat * 2097152 + a.toNat * 65536 + i.toNat = wd
  refine decode_of_raw (m := 4) (by omega) (by decide) (by decide) ?_ hw
  have hm : wd / 67108864 % 64 = 4 := by omega
  simp only [rawDecode, hm, decodeMajor04]
  rw [fld_eq d _ _ (by omega), fld_eq a _ _ (by omega), fld_eq i _ _ (by omega)]

theorem xori (d : BitVec 5) (a : BitVec 5) (i : BitVec 16) : Statement (.xori d a i) := by
  intro _ hw
  have h0 := d.isLt; have h1 := a.isLt; have h2 := i.isLt
  change decode (0x14000000 + d.toNat * 2097152 + a.toNat * 65536 + i.toNat) = _
  generalize hx : 0x14000000 + d.toNat * 2097152 + a.toNat * 65536 + i.toNat = wd
  refine decode_of_raw (m := 5) (by omega) (by decide) (by decide) ?_ hw
  have hm : wd / 67108864 % 64 = 5 := by omega
  simp only [rawDecode, hm, decodeMajor05]
  rw [fld_eq d _ _ (by omega), fld_eq a _ _ (by omega), fld_eq i _ _ (by omega)]

theorem shi (d : BitVec 5) (a : BitVec 5) (k : BitVec 2) (s : BitVec 6) : Statement (.shi d a k s) := by
  intro _ hw
  have h0 := d.isLt; have h1 := a.isLt; have h2 := k.isLt; have h3 := s.isLt
  change decode (0x18000000 + d.toNat * 2097152 + a.toNat * 65536 + k.toNat * 64 + s.toNat) = _
  generalize hx : 0x18000000 + d.toNat * 2097152 + a.toNat * 65536 + k.toNat * 64 + s.toNat = wd
  refine decode_of_raw (m := 6) (by omega) (by decide) (by decide) ?_ hw
  have hm : wd / 67108864 % 64 = 6 := by omega
  simp only [rawDecode, hm, decodeMajor06]
  rw [if_pos (by omega), fld_eq d _ _ (by omega), fld_eq a _ _ (by omega), fld_eq k _ _ (by omega), fld_eq s _ _ (by omega)]

theorem slti (d : BitVec 5) (a : BitVec 5) (i : BitVec 16) : Statement (.slti d a i) := by
  intro _ hw
  have h0 := d.isLt; have h1 := a.isLt; have h2 := i.isLt
  change decode (0x1C000000 + d.toNat * 2097152 + a.toNat * 65536 + i.toNat) = _
  generalize hx : 0x1C000000 + d.toNat * 2097152 + a.toNat * 65536 + i.toNat = wd
  refine decode_of_raw (m := 7) (by omega) (by decide) (by decide) ?_ hw
  have hm : wd / 67108864 % 64 = 7 := by omega
  simp only [rawDecode, hm, decodeMajor07]
  rw [fld_eq d _ _ (by omega), fld_eq a _ _ (by omega), fld_eq i _ _ (by omega)]

theorem sltni (d : BitVec 5) (a : BitVec 5) (i : BitVec 16) : Statement (.sltni d a i) := by
  intro _ hw
  have h0 := d.isLt; have h1 := a.isLt; have h2 := i.isLt
  change decode (0x20000000 + d.toNat * 2097152 + a.toNat * 65536 + i.toNat) = _
  generalize hx : 0x20000000 + d.toNat * 2097152 + a.toNat * 65536 + i.toNat = wd
  refine decode_of_raw (m := 8) (by omega) (by decide) (by decide) ?_ hw
  have hm : wd / 67108864 % 64 = 8 := by omega
  simp only [rawDecode, hm, decodeMajor08]
  rw [fld_eq d _ _ (by omega), fld_eq a _ _ (by omega), fld_eq i _ _ (by omega)]

theorem lit (d : BitVec 5) (l : BitVec 2) (i : BitVec 16) : Statement (.lit d l i) := by
  intro _ hw
  have h0 := d.isLt; have h1 := l.isLt; have h2 := i.isLt
  change decode (0x24000000 + d.toNat * 2097152 + l.toNat * 524288 + i.toNat) = _
  generalize hx : 0x24000000 + d.toNat * 2097152 + l.toNat * 524288 + i.toNat = wd
  refine decode_of_raw (m := 9) (by omega) (by decide) (by decide) ?_ hw
  have hm : wd / 67108864 % 64 = 9 := by omega
  simp only [rawDecode, hm, decodeMajor09]
  rw [if_pos (by omega), fld_eq d _ _ (by omega), fld_eq l _ _ (by omega), fld_eq i _ _ (by omega)]

theorem litk (d : BitVec 5) (l : BitVec 2) (i : BitVec 16) : Statement (.litk d l i) := by
  intro _ hw
  have h0 := d.isLt; have h1 := l.isLt; have h2 := i.isLt
  change decode (0x24040000 + d.toNat * 2097152 + l.toNat * 524288 + i.toNat) = _
  generalize hx : 0x24040000 + d.toNat * 2097152 + l.toNat * 524288 + i.toNat = wd
  refine decode_of_raw (m := 9) (by omega) (by decide) (by decide) ?_ hw
  have hm : wd / 67108864 % 64 = 9 := by omega
  simp only [rawDecode, hm, decodeMajor09]
  iterate 1 rw [if_neg (by omega)]
  rw [if_pos (by omega), fld_eq d _ _ (by omega), fld_eq l _ _ (by omega), fld_eq i _ _ (by omega)]

theorem fadd (d : BitVec 5) (a : BitVec 5) (b : BitVec 5) (r : BitVec 3) (p : BitVec 1) : Statement (.fadd d a b r p) := by
  intro _ hw
  have h0 := d.isLt; have h1 := a.isLt; have h2 := b.isLt; have h3 := r.isLt; have h4 := p.isLt
  change decode (0x28000000 + d.toNat * 2097152 + a.toNat * 65536 + b.toNat * 2048 + r.toNat * 2 + p.toNat) = _
  generalize hx : 0x28000000 + d.toNat * 2097152 + a.toNat * 65536 + b.toNat * 2048 + r.toNat * 2 + p.toNat = wd
  refine decode_of_raw (m := 10) (by omega) (by decide) (by decide) ?_ hw
  have hm : wd / 67108864 % 64 = 10 := by omega
  simp only [rawDecode, hm, decodeMajor0A]
  rw [if_pos (by omega), fld_eq d _ _ (by omega), fld_eq a _ _ (by omega), fld_eq b _ _ (by omega), fld_eq r _ _ (by omega), fld_eq p _ _ (by omega)]

theorem fsub (d : BitVec 5) (a : BitVec 5) (b : BitVec 5) (r : BitVec 3) (p : BitVec 1) : Statement (.fsub d a b r p) := by
  intro _ hw
  have h0 := d.isLt; have h1 := a.isLt; have h2 := b.isLt; have h3 := r.isLt; have h4 := p.isLt
  change decode (0x28000040 + d.toNat * 2097152 + a.toNat * 65536 + b.toNat * 2048 + r.toNat * 2 + p.toNat) = _
  generalize hx : 0x28000040 + d.toNat * 2097152 + a.toNat * 65536 + b.toNat * 2048 + r.toNat * 2 + p.toNat = wd
  refine decode_of_raw (m := 10) (by omega) (by decide) (by decide) ?_ hw
  have hm : wd / 67108864 % 64 = 10 := by omega
  simp only [rawDecode, hm, decodeMajor0A]
  iterate 1 rw [if_neg (by omega)]
  rw [if_pos (by omega), fld_eq d _ _ (by omega), fld_eq a _ _ (by omega), fld_eq b _ _ (by omega), fld_eq r _ _ (by omega), fld_eq p _ _ (by omega)]

theorem fmul (d : BitVec 5) (a : BitVec 5) (b : BitVec 5) (r : BitVec 3) (p : BitVec 1) : Statement (.fmul d a b r p) := by
  intro _ hw
  have h0 := d.isLt; have h1 := a.isLt; have h2 := b.isLt; have h3 := r.isLt; have h4 := p.isLt
  change decode (0x28000080 + d.toNat * 2097152 + a.toNat * 65536 + b.toNat * 2048 + r.toNat * 2 + p.toNat) = _
  generalize hx : 0x28000080 + d.toNat * 2097152 + a.toNat * 65536 + b.toNat * 2048 + r.toNat * 2 + p.toNat = wd
  refine decode_of_raw (m := 10) (by omega) (by decide) (by decide) ?_ hw
  have hm : wd / 67108864 % 64 = 10 := by omega
  simp only [rawDecode, hm, decodeMajor0A]
  iterate 2 rw [if_neg (by omega)]
  rw [if_pos (by omega), fld_eq d _ _ (by omega), fld_eq a _ _ (by omega), fld_eq b _ _ (by omega), fld_eq r _ _ (by omega), fld_eq p _ _ (by omega)]

theorem fdiv (d : BitVec 5) (a : BitVec 5) (b : BitVec 5) (r : BitVec 3) (p : BitVec 1) : Statement (.fdiv d a b r p) := by
  intro _ hw
  have h0 := d.isLt; have h1 := a.isLt; have h2 := b.isLt; have h3 := r.isLt; have h4 := p.isLt
  change decode (0x280000C0 + d.toNat * 2097152 + a.toNat * 65536 + b.toNat * 2048 + r.toNat * 2 + p.toNat) = _
  generalize hx : 0x280000C0 + d.toNat * 2097152 + a.toNat * 65536 + b.toNat * 2048 + r.toNat * 2 + p.toNat = wd
  refine decode_of_raw (m := 10) (by omega) (by decide) (by decide) ?_ hw
  have hm : wd / 67108864 % 64 = 10 := by omega
  simp only [rawDecode, hm, decodeMajor0A]
  iterate 3 rw [if_neg (by omega)]
  rw [if_pos (by omega), fld_eq d _ _ (by omega), fld_eq a _ _ (by omega), fld_eq b _ _ (by omega), fld_eq r _ _ (by omega), fld_eq p _ _ (by omega)]

theorem fsqrt (d : BitVec 5) (a : BitVec 5) (r : BitVec 3) (p : BitVec 1) : Statement (.fsqrt d a r p) := by
  intro _ hw
  have h0 := d.isLt; have h1 := a.isLt; have h2 := r.isLt; have h3 := p.isLt
  change decode (0x28000100 + d.toNat * 2097152 + a.toNat * 65536 + r.toNat * 2 + p.toNat) = _
  generalize hx : 0x28000100 + d.toNat * 2097152 + a.toNat * 65536 + r.toNat * 2 + p.toNat = wd
  refine decode_of_raw (m := 10) (by omega) (by decide) (by decide) ?_ hw
  have hm : wd / 67108864 % 64 = 10 := by omega
  simp only [rawDecode, hm, decodeMajor0A]
  iterate 4 rw [if_neg (by omega)]
  rw [if_pos (by omega), fld_eq d _ _ (by omega), fld_eq a _ _ (by omega), fld_eq r _ _ (by omega), fld_eq p _ _ (by omega)]

theorem ffma (d : BitVec 5) (a : BitVec 5) (b : BitVec 5) (r : BitVec 3) (p : BitVec 1) : Statement (.ffma d a b r p) := by
  intro _ hw
  have h0 := d.isLt; have h1 := a.isLt; have h2 := b.isLt; have h3 := r.isLt; have h4 := p.isLt
  change decode (0x28000140 + d.toNat * 2097152 + a.toNat * 65536 + b.toNat * 2048 + r.toNat * 2 + p.toNat) = _
  generalize hx : 0x28000140 + d.toNat * 2097152 + a.toNat * 65536 + b.toNat * 2048 + r.toNat * 2 + p.toNat = wd
  refine decode_of_raw (m := 10) (by omega) (by decide) (by decide) ?_ hw
  have hm : wd / 67108864 % 64 = 10 := by omega
  simp only [rawDecode, hm, decodeMajor0A]
  iterate 5 rw [if_neg (by omega)]
  rw [if_pos (by omega), fld_eq d _ _ (by omega), fld_eq a _ _ (by omega), fld_eq b _ _ (by omega), fld_eq r _ _ (by omega), fld_eq p _ _ (by omega)]

theorem fmin (d : BitVec 5) (a : BitVec 5) (b : BitVec 5) (p : BitVec 1) : Statement (.fmin d a b p) := by
  intro _ hw
  have h0 := d.isLt; have h1 := a.isLt; have h2 := b.isLt; have h3 := p.isLt
  change decode (0x28000180 + d.toNat * 2097152 + a.toNat * 65536 + b.toNat * 2048 + p.toNat) = _
  generalize hx : 0x28000180 + d.toNat * 2097152 + a.toNat * 65536 + b.toNat * 2048 + p.toNat = wd
  refine decode_of_raw (m := 10) (by omega) (by decide) (by decide) ?_ hw
  have hm : wd / 67108864 % 64 = 10 := by omega
  simp only [rawDecode, hm, decodeMajor0A]
  iterate 6 rw [if_neg (by omega)]
  rw [if_pos (by omega), fld_eq d _ _ (by omega), fld_eq a _ _ (by omega), fld_eq b _ _ (by omega), fld_eq p _ _ (by omega)]

theorem fmax (d : BitVec 5) (a : BitVec 5) (b : BitVec 5) (p : BitVec 1) : Statement (.fmax d a b p) := by
  intro _ hw
  have h0 := d.isLt; have h1 := a.isLt; have h2 := b.isLt; have h3 := p.isLt
  change decode (0x280001C0 + d.toNat * 2097152 + a.toNat * 65536 + b.toNat * 2048 + p.toNat) = _
  generalize hx : 0x280001C0 + d.toNat * 2097152 + a.toNat * 65536 + b.toNat * 2048 + p.toNat = wd
  refine decode_of_raw (m := 10) (by omega) (by decide) (by decide) ?_ hw
  have hm : wd / 67108864 % 64 = 10 := by omega
  simp only [rawDecode, hm, decodeMajor0A]
  iterate 7 rw [if_neg (by omega)]
  rw [if_pos (by omega), fld_eq d _ _ (by omega), fld_eq a _ _ (by omega), fld_eq b _ _ (by omega), fld_eq p _ _ (by omega)]

theorem fcmp (d : BitVec 5) (a : BitVec 5) (b : BitVec 5) (c : BitVec 2) (p : BitVec 1) : Statement (.fcmp d a b c p) := by
  intro _ hw
  have h0 := d.isLt; have h1 := a.isLt; have h2 := b.isLt; have h3 := c.isLt; have h4 := p.isLt
  change decode (0x28000200 + d.toNat * 2097152 + a.toNat * 65536 + b.toNat * 2048 + c.toNat * 16 + p.toNat) = _
  generalize hx : 0x28000200 + d.toNat * 2097152 + a.toNat * 65536 + b.toNat * 2048 + c.toNat * 16 + p.toNat = wd
  refine decode_of_raw (m := 10) (by omega) (by decide) (by decide) ?_ hw
  have hm : wd / 67108864 % 64 = 10 := by omega
  simp only [rawDecode, hm, decodeMajor0A]
  iterate 8 rw [if_neg (by omega)]
  rw [if_pos (by omega), fld_eq d _ _ (by omega), fld_eq a _ _ (by omega), fld_eq b _ _ (by omega), fld_eq c _ _ (by omega), fld_eq p _ _ (by omega)]

theorem fcvt (d : BitVec 5) (a : BitVec 5) (t : BitVec 2) (s : BitVec 2) (r : BitVec 3) : Statement (.fcvt d a t s r) := by
  intro _ hw
  have h0 := d.isLt; have h1 := a.isLt; have h2 := t.isLt; have h3 := s.isLt; have h4 := r.isLt
  change decode (0x28000240 + d.toNat * 2097152 + a.toNat * 65536 + t.toNat * 8192 + s.toNat * 2048 + r.toNat * 2) = _
  generalize hx : 0x28000240 + d.toNat * 2097152 + a.toNat * 65536 + t.toNat * 8192 + s.toNat * 2048 + r.toNat * 2 = wd
  refine decode_of_raw (m := 10) (by omega) (by decide) (by decide) ?_ hw
  have hm : wd / 67108864 % 64 = 10 := by omega
  simp only [rawDecode, hm, decodeMajor0A]
  iterate 9 rw [if_neg (by omega)]
  rw [if_pos (by omega), fld_eq d _ _ (by omega), fld_eq a _ _ (by omega), fld_eq t _ _ (by omega), fld_eq s _ _ (by omega), fld_eq r _ _ (by omega)]

theorem ld (d : BitVec 5) (b : BitVec 5) (z : BitVec 3) (s : BitVec 1) (o : BitVec 12) : Statement (.ld d b z s o) := by
  intro _ hw
  have h0 := d.isLt; have h1 := b.isLt; have h2 := z.isLt; have h3 := s.isLt; have h4 := o.isLt
  change decode (0x2C000000 + d.toNat * 2097152 + b.toNat * 65536 + z.toNat * 8192 + s.toNat * 4096 + o.toNat) = _
  generalize hx : 0x2C000000 + d.toNat * 2097152 + b.toNat * 65536 + z.toNat * 8192 + s.toNat * 4096 + o.toNat = wd
  refine decode_of_raw (m := 11) (by omega) (by decide) (by decide) ?_ hw
  have hm : wd / 67108864 % 64 = 11 := by omega
  simp only [rawDecode, hm, decodeMajor0B]
  rw [fld_eq d _ _ (by omega), fld_eq b _ _ (by omega), fld_eq z _ _ (by omega), fld_eq s _ _ (by omega), fld_eq o _ _ (by omega)]

theorem st (d : BitVec 5) (b : BitVec 5) (z : BitVec 3) (o : BitVec 12) : Statement (.st d b z o) := by
  intro _ hw
  have h0 := d.isLt; have h1 := b.isLt; have h2 := z.isLt; have h3 := o.isLt
  change decode (0x30000000 + d.toNat * 2097152 + b.toNat * 65536 + z.toNat * 8192 + o.toNat) = _
  generalize hx : 0x30000000 + d.toNat * 2097152 + b.toNat * 65536 + z.toNat * 8192 + o.toNat = wd
  refine decode_of_raw (m := 12) (by omega) (by decide) (by decide) ?_ hw
  have hm : wd / 67108864 % 64 = 12 := by omega
  simp only [rawDecode, hm, decodeMajor0C]
  rw [if_pos (by omega), fld_eq d _ _ (by omega), fld_eq b _ _ (by omega), fld_eq z _ _ (by omega), fld_eq o _ _ (by omega)]

theorem ldv (d : BitVec 5) (a : BitVec 5) (b : BitVec 5) : Statement (.ldv d a b) := by
  intro _ hw
  have h0 := d.isLt; have h1 := a.isLt; have h2 := b.isLt
  change decode (0x34000000 + d.toNat * 2097152 + a.toNat * 65536 + b.toNat * 2048) = _
  generalize hx : 0x34000000 + d.toNat * 2097152 + a.toNat * 65536 + b.toNat * 2048 = wd
  refine decode_of_raw (m := 13) (by omega) (by decide) (by decide) ?_ hw
  have hm : wd / 67108864 % 64 = 13 := by omega
  simp only [rawDecode, hm, decodeMajor0D]
  rw [if_pos (by omega), fld_eq d _ _ (by omega), fld_eq a _ _ (by omega), fld_eq b _ _ (by omega)]

theorem stv (d : BitVec 5) (a : BitVec 5) (b : BitVec 5) : Statement (.stv d a b) := by
  intro _ hw
  have h0 := d.isLt; have h1 := a.isLt; have h2 := b.isLt
  change decode (0x34000040 + d.toNat * 2097152 + a.toNat * 65536 + b.toNat * 2048) = _
  generalize hx : 0x34000040 + d.toNat * 2097152 + a.toNat * 65536 + b.toNat * 2048 = wd
  refine decode_of_raw (m := 13) (by omega) (by decide) (by decide) ?_ hw
  have hm : wd / 67108864 % 64 = 13 := by omega
  simp only [rawDecode, hm, decodeMajor0D]
  iterate 1 rw [if_neg (by omega)]
  rw [if_pos (by omega), fld_eq d _ _ (by omega), fld_eq a _ _ (by omega), fld_eq b _ _ (by omega)]

theorem reclaim (a : BitVec 5) (b : BitVec 5) : Statement (.reclaim a b) := by
  intro _ hw
  have h0 := a.isLt; have h1 := b.isLt
  change decode (0x34000080 + a.toNat * 65536 + b.toNat * 2048) = _
  generalize hx : 0x34000080 + a.toNat * 65536 + b.toNat * 2048 = wd
  refine decode_of_raw (m := 13) (by omega) (by decide) (by decide) ?_ hw
  have hm : wd / 67108864 % 64 = 13 := by omega
  simp only [rawDecode, hm, decodeMajor0D]
  iterate 2 rw [if_neg (by omega)]
  rw [if_pos (by omega), fld_eq a _ _ (by omega), fld_eq b _ _ (by omega)]

theorem verq (d : BitVec 5) (a : BitVec 5) : Statement (.verq d a) := by
  intro _ hw
  have h0 := d.isLt; have h1 := a.isLt
  change decode (0x340000C0 + d.toNat * 2097152 + a.toNat * 65536) = _
  generalize hx : 0x340000C0 + d.toNat * 2097152 + a.toNat * 65536 = wd
  refine decode_of_raw (m := 13) (by omega) (by decide) (by decide) ?_ hw
  have hm : wd / 67108864 % 64 = 13 := by omega
  simp only [rawDecode, hm, decodeMajor0D]
  iterate 3 rw [if_neg (by omega)]
  rw [if_pos (by omega), fld_eq d _ _ (by omega), fld_eq a _ _ (by omega)]

theorem beq (a : BitVec 5) (b : BitVec 5) (o : BitVec 16) : Statement (.beq a b o) := by
  intro _ hw
  have h0 := a.isLt; have h1 := b.isLt; have h2 := o.isLt
  change decode (0x38000000 + a.toNat * 2097152 + b.toNat * 65536 + o.toNat) = _
  generalize hx : 0x38000000 + a.toNat * 2097152 + b.toNat * 65536 + o.toNat = wd
  refine decode_of_raw (m := 14) (by omega) (by decide) (by decide) ?_ hw
  have hm : wd / 67108864 % 64 = 14 := by omega
  simp only [rawDecode, hm, decodeMajor0E]
  rw [fld_eq a _ _ (by omega), fld_eq b _ _ (by omega), fld_eq o _ _ (by omega)]

theorem bne (a : BitVec 5) (b : BitVec 5) (o : BitVec 16) : Statement (.bne a b o) := by
  intro _ hw
  have h0 := a.isLt; have h1 := b.isLt; have h2 := o.isLt
  change decode (0x3C000000 + a.toNat * 2097152 + b.toNat * 65536 + o.toNat) = _
  generalize hx : 0x3C000000 + a.toNat * 2097152 + b.toNat * 65536 + o.toNat = wd
  refine decode_of_raw (m := 15) (by omega) (by decide) (by decide) ?_ hw
  have hm : wd / 67108864 % 64 = 15 := by omega
  simp only [rawDecode, hm, decodeMajor0F]
  rw [fld_eq a _ _ (by omega), fld_eq b _ _ (by omega), fld_eq o _ _ (by omega)]

theorem blt (a : BitVec 5) (b : BitVec 5) (o : BitVec 16) : Statement (.blt a b o) := by
  intro _ hw
  have h0 := a.isLt; have h1 := b.isLt; have h2 := o.isLt
  change decode (0x40000000 + a.toNat * 2097152 + b.toNat * 65536 + o.toNat) = _
  generalize hx : 0x40000000 + a.toNat * 2097152 + b.toNat * 65536 + o.toNat = wd
  refine decode_of_raw (m := 16) (by omega) (by decide) (by decide) ?_ hw
  have hm : wd / 67108864 % 64 = 16 := by omega
  simp only [rawDecode, hm, decodeMajor10]
  rw [fld_eq a _ _ (by omega), fld_eq b _ _ (by omega), fld_eq o _ _ (by omega)]

theorem bge (a : BitVec 5) (b : BitVec 5) (o : BitVec 16) : Statement (.bge a b o) := by
  intro _ hw
  have h0 := a.isLt; have h1 := b.isLt; have h2 := o.isLt
  change decode (0x44000000 + a.toNat * 2097152 + b.toNat * 65536 + o.toNat) = _
  generalize hx : 0x44000000 + a.toNat * 2097152 + b.toNat * 65536 + o.toNat = wd
  refine decode_of_raw (m := 17) (by omega) (by decide) (by decide) ?_ hw
  have hm : wd / 67108864 % 64 = 17 := by omega
  simp only [rawDecode, hm, decodeMajor11]
  rw [fld_eq a _ _ (by omega), fld_eq b _ _ (by omega), fld_eq o _ _ (by omega)]

theorem bltn (a : BitVec 5) (b : BitVec 5) (o : BitVec 16) : Statement (.bltn a b o) := by
  intro _ hw
  have h0 := a.isLt; have h1 := b.isLt; have h2 := o.isLt
  change decode (0x48000000 + a.toNat * 2097152 + b.toNat * 65536 + o.toNat) = _
  generalize hx : 0x48000000 + a.toNat * 2097152 + b.toNat * 65536 + o.toNat = wd
  refine decode_of_raw (m := 18) (by omega) (by decide) (by decide) ?_ hw
  have hm : wd / 67108864 % 64 = 18 := by omega
  simp only [rawDecode, hm, decodeMajor12]
  rw [fld_eq a _ _ (by omega), fld_eq b _ _ (by omega), fld_eq o _ _ (by omega)]

theorem bgen (a : BitVec 5) (b : BitVec 5) (o : BitVec 16) : Statement (.bgen a b o) := by
  intro _ hw
  have h0 := a.isLt; have h1 := b.isLt; have h2 := o.isLt
  change decode (0x4C000000 + a.toNat * 2097152 + b.toNat * 65536 + o.toNat) = _
  generalize hx : 0x4C000000 + a.toNat * 2097152 + b.toNat * 65536 + o.toNat = wd
  refine decode_of_raw (m := 19) (by omega) (by decide) (by decide) ?_ hw
  have hm : wd / 67108864 % 64 = 19 := by omega
  simp only [rawDecode, hm, decodeMajor13]
  rw [fld_eq a _ _ (by omega), fld_eq b _ _ (by omega), fld_eq o _ _ (by omega)]

theorem jal (d : BitVec 5) (o : BitVec 21) : Statement (.jal d o) := by
  intro _ hw
  have h0 := d.isLt; have h1 := o.isLt
  change decode (0x50000000 + d.toNat * 2097152 + o.toNat) = _
  generalize hx : 0x50000000 + d.toNat * 2097152 + o.toNat = wd
  refine decode_of_raw (m := 20) (by omega) (by decide) (by decide) ?_ hw
  have hm : wd / 67108864 % 64 = 20 := by omega
  simp only [rawDecode, hm, decodeMajor14]
  rw [fld_eq d _ _ (by omega), fld_eq o _ _ (by omega)]

theorem jalr (d : BitVec 5) (a : BitVec 5) (i : BitVec 16) : Statement (.jalr d a i) := by
  intro _ hw
  have h0 := d.isLt; have h1 := a.isLt; have h2 := i.isLt
  change decode (0x54000000 + d.toNat * 2097152 + a.toNat * 65536 + i.toNat) = _
  generalize hx : 0x54000000 + d.toNat * 2097152 + a.toNat * 65536 + i.toNat = wd
  refine decode_of_raw (m := 21) (by omega) (by decide) (by decide) ?_ hw
  have hm : wd / 67108864 % 64 = 21 := by omega
  simp only [rawDecode, hm, decodeMajor15]
  rw [fld_eq d _ _ (by omega), fld_eq a _ _ (by omega), fld_eq i _ _ (by omega)]

theorem trap (i : BitVec 15) : Statement (.trap i) := by
  intro _ hw
  have h0 := i.isLt
  change decode (0x58000000 + i.toNat * 2048) = _
  generalize hx : 0x58000000 + i.toNat * 2048 = wd
  refine decode_of_raw (m := 22) (by omega) (by decide) (by decide) ?_ hw
  have hm : wd / 67108864 % 64 = 22 := by omega
  simp only [rawDecode, hm, decodeMajor16]
  rw [if_pos (by omega), fld_eq i _ _ (by omega)]

theorem tret  : Statement (.tret) := by
  intro _ hw
  change decode (0x58000040) = _
  generalize hx : 0x58000040 = wd
  refine decode_of_raw (m := 22) (by omega) (by decide) (by decide) ?_ hw
  have hm : wd / 67108864 % 64 = 22 := by omega
  simp only [rawDecode, hm, decodeMajor16]
  iterate 1 rw [if_neg (by omega)]
  rw [if_pos (by omega)]

theorem uiret  : Statement (.uiret) := by
  intro _ hw
  change decode (0x58000080) = _
  generalize hx : 0x58000080 = wd
  refine decode_of_raw (m := 22) (by omega) (by decide) (by decide) ?_ hw
  have hm : wd / 67108864 % 64 = 22 := by omega
  simp only [rawDecode, hm, decodeMajor16]
  iterate 2 rw [if_neg (by omega)]
  rw [if_pos (by omega)]

theorem mfs (d : BitVec 5) (n : BitVec 10) : Statement (.mfs d n) := by
  intro _ hw
  have h0 := d.isLt; have h1 := n.isLt
  change decode (0x580000C0 + d.toNat * 2097152 + n.toNat * 2048) = _
  generalize hx : 0x580000C0 + d.toNat * 2097152 + n.toNat * 2048 = wd
  refine decode_of_raw (m := 22) (by omega) (by decide) (by decide) ?_ hw
  have hm : wd / 67108864 % 64 = 22 := by omega
  simp only [rawDecode, hm, decodeMajor16]
  iterate 3 rw [if_neg (by omega)]
  rw [if_pos (by omega), fld_eq d _ _ (by omega), fld_eq n _ _ (by omega)]

theorem mts (s : BitVec 5) (n : BitVec 10) : Statement (.mts s n) := by
  intro _ hw
  have h0 := s.isLt; have h1 := n.isLt
  change decode (0x58000100 + s.toNat * 2097152 + n.toNat * 2048) = _
  generalize hx : 0x58000100 + s.toNat * 2097152 + n.toNat * 2048 = wd
  refine decode_of_raw (m := 22) (by omega) (by decide) (by decide) ?_ hw
  have hm : wd / 67108864 % 64 = 22 := by omega
  simp only [rawDecode, hm, decodeMajor16]
  iterate 4 rw [if_neg (by omega)]
  rw [if_pos (by omega), fld_eq s _ _ (by omega), fld_eq n _ _ (by omega)]

theorem wfi  : Statement (.wfi) := by
  intro _ hw
  change decode (0x58000140) = _
  generalize hx : 0x58000140 = wd
  refine decode_of_raw (m := 22) (by omega) (by decide) (by decide) ?_ hw
  have hm : wd / 67108864 % 64 = 22 := by omega
  simp only [rawDecode, hm, decodeMajor16]
  iterate 5 rw [if_neg (by omega)]
  rw [if_pos (by omega)]

theorem halt  : Statement (.halt) := by
  intro _ hw
  change decode (0x58000180) = _
  generalize hx : 0x58000180 = wd
  refine decode_of_raw (m := 22) (by omega) (by decide) (by decide) ?_ hw
  have hm : wd / 67108864 % 64 = 22 := by omega
  simp only [rawDecode, hm, decodeMajor16]
  iterate 6 rw [if_neg (by omega)]
  rw [if_pos (by omega)]

theorem yield  : Statement (.yield) := by
  intro _ hw
  change decode (0x580001C0) = _
  generalize hx : 0x580001C0 = wd
  refine decode_of_raw (m := 22) (by omega) (by decide) (by decide) ?_ hw
  have hm : wd / 67108864 % 64 = 22 := by omega
  simp only [rawDecode, hm, decodeMajor16]
  iterate 7 rw [if_neg (by omega)]
  rw [if_pos (by omega)]

theorem rdctr (d : BitVec 5) (c : BitVec 3) : Statement (.rdctr d c) := by
  intro _ hw
  have h0 := d.isLt; have h1 := c.isLt
  change decode (0x58000200 + d.toNat * 2097152 + c.toNat) = _
  generalize hx : 0x58000200 + d.toNat * 2097152 + c.toNat = wd
  refine decode_of_raw (m := 22) (by omega) (by decide) (by decide) ?_ hw
  have hm : wd / 67108864 % 64 = 22 := by omega
  simp only [rawDecode, hm, decodeMajor16]
  iterate 8 rw [if_neg (by omega)]
  rw [if_pos (by omega), fld_eq d _ _ (by omega), fld_eq c _ _ (by omega)]

theorem start (d : BitVec 5) (a : BitVec 5) (b : BitVec 5) : Statement (.start d a b) := by
  intro _ hw
  have h0 := d.isLt; have h1 := a.isLt; have h2 := b.isLt
  change decode (0x5C000000 + d.toNat * 2097152 + a.toNat * 65536 + b.toNat * 2048) = _
  generalize hx : 0x5C000000 + d.toNat * 2097152 + a.toNat * 65536 + b.toNat * 2048 = wd
  refine decode_of_raw (m := 23) (by omega) (by decide) (by decide) ?_ hw
  have hm : wd / 67108864 % 64 = 23 := by omega
  simp only [rawDecode, hm, decodeMajor17]
  rw [if_pos (by omega), fld_eq d _ _ (by omega), fld_eq a _ _ (by omega), fld_eq b _ _ (by omega)]

theorem joinh (d : BitVec 5) (a : BitVec 5) : Statement (.joinh d a) := by
  intro _ hw
  have h0 := d.isLt; have h1 := a.isLt
  change decode (0x5C000040 + d.toNat * 2097152 + a.toNat * 65536) = _
  generalize hx : 0x5C000040 + d.toNat * 2097152 + a.toNat * 65536 = wd
  refine decode_of_raw (m := 23) (by omega) (by decide) (by decide) ?_ hw
  have hm : wd / 67108864 % 64 = 23 := by omega
  simp only [rawDecode, hm, decodeMajor17]
  iterate 1 rw [if_neg (by omega)]
  rw [if_pos (by omega), fld_eq d _ _ (by omega), fld_eq a _ _ (by omega)]

theorem cont (a : BitVec 5) : Statement (.cont a) := by
  intro _ hw
  have h0 := a.isLt
  change decode (0x5C000080 + a.toNat * 65536) = _
  generalize hx : 0x5C000080 + a.toNat * 65536 = wd
  refine decode_of_raw (m := 23) (by omega) (by decide) (by decide) ?_ hw
  have hm : wd / 67108864 % 64 = 23 := by omega
  simp only [rawDecode, hm, decodeMajor17]
  iterate 2 rw [if_neg (by omega)]
  rw [if_pos (by omega), fld_eq a _ _ (by omega)]

theorem launch (d : BitVec 5) (a : BitVec 5) : Statement (.launch d a) := by
  intro _ hw
  have h0 := d.isLt; have h1 := a.isLt
  change decode (0x5C0000C0 + d.toNat * 2097152 + a.toNat * 65536) = _
  generalize hx : 0x5C0000C0 + d.toNat * 2097152 + a.toNat * 65536 = wd
  refine decode_of_raw (m := 23) (by omega) (by decide) (by decide) ?_ hw
  have hm : wd / 67108864 % 64 = 23 := by omega
  simp only [rawDecode, hm, decodeMajor17]
  iterate 3 rw [if_neg (by omega)]
  rw [if_pos (by omega), fld_eq d _ _ (by omega), fld_eq a _ _ (by omega)]

theorem amo (d : BitVec 5) (a : BitVec 5) (b : BitVec 5) (w : BitVec 1) (o : BitVec 4) : Statement (.amo d a b w o) := by
  intro _ hw
  have h0 := d.isLt; have h1 := a.isLt; have h2 := b.isLt; have h3 := w.isLt; have h4 := o.isLt
  have hf : decide (o.toNat ≤ 10) = true := by
    have hw2 := hw
    simp only [Instr.wf, Bool.and_eq_true] at hw2
    exact hw2.2
  have h5 : o.toNat ≤ 10 := of_decide_eq_true hf
  change decode (0x60000000 + d.toNat * 2097152 + a.toNat * 65536 + b.toNat * 2048 + w.toNat * 16 + o.toNat) = _
  generalize hx : 0x60000000 + d.toNat * 2097152 + a.toNat * 65536 + b.toNat * 2048 + w.toNat * 16 + o.toNat = wd
  refine decode_of_raw (m := 24) (by omega) (by decide) (by decide) ?_ hw
  have hm : wd / 67108864 % 64 = 24 := by omega
  simp only [rawDecode, hm, decodeMajor18]
  iterate 14 rw [if_neg (by omega)]
  rw [if_pos (by omega), fld_eq d _ _ (by omega), fld_eq a _ _ (by omega), fld_eq b _ _ (by omega), fld_eq w _ _ (by omega), fld_eq o _ _ (by omega)]

theorem amoLock (d : BitVec 5) (a : BitVec 5) (b : BitVec 5) : Statement (.amoLock d a b) := by
  intro _ hw
  have h0 := d.isLt; have h1 := a.isLt; have h2 := b.isLt
  change decode (0x6000000B + d.toNat * 2097152 + a.toNat * 65536 + b.toNat * 2048) = _
  generalize hx : 0x6000000B + d.toNat * 2097152 + a.toNat * 65536 + b.toNat * 2048 = wd
  refine decode_of_raw (m := 24) (by omega) (by decide) (by decide) ?_ hw
  have hm : wd / 67108864 % 64 = 24 := by omega
  simp only [rawDecode, hm, decodeMajor18]
  iterate 6 rw [if_neg (by omega)]
  rw [if_pos (by omega), fld_eq d _ _ (by omega), fld_eq a _ _ (by omega), fld_eq b _ _ (by omega)]

theorem amoUnlock (d : BitVec 5) (a : BitVec 5) (b : BitVec 5) : Statement (.amoUnlock d a b) := by
  intro _ hw
  have h0 := d.isLt; have h1 := a.isLt; have h2 := b.isLt
  change decode (0x6000000C + d.toNat * 2097152 + a.toNat * 65536 + b.toNat * 2048) = _
  generalize hx : 0x6000000C + d.toNat * 2097152 + a.toNat * 65536 + b.toNat * 2048 = wd
  refine decode_of_raw (m := 24) (by omega) (by decide) (by decide) ?_ hw
  have hm : wd / 67108864 % 64 = 24 := by omega
  simp only [rawDecode, hm, decodeMajor18]
  iterate 7 rw [if_neg (by omega)]
  rw [if_pos (by omega), fld_eq d _ _ (by omega), fld_eq a _ _ (by omega), fld_eq b _ _ (by omega)]

theorem amoTrylock (d : BitVec 5) (a : BitVec 5) (b : BitVec 5) : Statement (.amoTrylock d a b) := by
  intro _ hw
  have h0 := d.isLt; have h1 := a.isLt; have h2 := b.isLt
  change decode (0x6000000D + d.toNat * 2097152 + a.toNat * 65536 + b.toNat * 2048) = _
  generalize hx : 0x6000000D + d.toNat * 2097152 + a.toNat * 65536 + b.toNat * 2048 = wd
  refine decode_of_raw (m := 24) (by omega) (by decide) (by decide) ?_ hw
  have hm : wd / 67108864 % 64 = 24 := by omega
  simp only [rawDecode, hm, decodeMajor18]
  iterate 8 rw [if_neg (by omega)]
  rw [if_pos (by omega), fld_eq d _ _ (by omega), fld_eq a _ _ (by omega), fld_eq b _ _ (by omega)]

theorem amod (d : BitVec 5) (a : BitVec 5) (b : BitVec 5) (w : BitVec 1) (o : BitVec 4) : Statement (.amod d a b w o) := by
  intro _ hw
  have h0 := d.isLt; have h1 := a.isLt; have h2 := b.isLt; have h3 := w.isLt; have h4 := o.isLt
  have hf : decide (o.toNat ≤ 10) = true := by
    have hw2 := hw
    simp only [Instr.wf, Bool.and_eq_true] at hw2
    exact hw2.2
  have h5 : o.toNat ≤ 10 := of_decide_eq_true hf
  change decode (0x60000040 + d.toNat * 2097152 + a.toNat * 65536 + b.toNat * 2048 + w.toNat * 16 + o.toNat) = _
  generalize hx : 0x60000040 + d.toNat * 2097152 + a.toNat * 65536 + b.toNat * 2048 + w.toNat * 16 + o.toNat = wd
  refine decode_of_raw (m := 24) (by omega) (by decide) (by decide) ?_ hw
  have hm : wd / 67108864 % 64 = 24 := by omega
  simp only [rawDecode, hm, decodeMajor18]
  iterate 15 rw [if_neg (by omega)]
  rw [if_pos (by omega), fld_eq d _ _ (by omega), fld_eq a _ _ (by omega), fld_eq b _ _ (by omega), fld_eq w _ _ (by omega), fld_eq o _ _ (by omega)]

theorem red (a : BitVec 5) (b : BitVec 5) (w : BitVec 1) (o : BitVec 4) : Statement (.red a b w o) := by
  intro _ hw
  have h0 := a.isLt; have h1 := b.isLt; have h2 := w.isLt; have h3 := o.isLt
  change decode (0x60000080 + a.toNat * 65536 + b.toNat * 2048 + w.toNat * 16 + o.toNat) = _
  generalize hx : 0x60000080 + a.toNat * 65536 + b.toNat * 2048 + w.toNat * 16 + o.toNat = wd
  refine decode_of_raw (m := 24) (by omega) (by decide) (by decide) ?_ hw
  have hm : wd / 67108864 % 64 = 24 := by omega
  simp only [rawDecode, hm, decodeMajor18]
  iterate 9 rw [if_neg (by omega)]
  rw [if_pos (by omega), fld_eq a _ _ (by omega), fld_eq b _ _ (by omega), fld_eq w _ _ (by omega), fld_eq o _ _ (by omega)]

theorem redf (d : BitVec 5) (a : BitVec 5) (b : BitVec 5) (t : BitVec 2) (o : BitVec 2) : Statement (.redf d a b t o) := by
  intro _ hw
  have h0 := d.isLt; have h1 := a.isLt; have h2 := b.isLt; have h3 := t.isLt; have h4 := o.isLt
  change decode (0x600000C0 + d.toNat * 2097152 + a.toNat * 65536 + b.toNat * 2048 + t.toNat * 4 + o.toNat) = _
  generalize hx : 0x600000C0 + d.toNat * 2097152 + a.toNat * 65536 + b.toNat * 2048 + t.toNat * 4 + o.toNat = wd
  refine decode_of_raw (m := 24) (by omega) (by decide) (by decide) ?_ hw
  have hm : wd / 67108864 % 64 = 24 := by omega
  simp only [rawDecode, hm, decodeMajor18]
  iterate 13 rw [if_neg (by omega)]
  rw [if_pos (by omega), fld_eq d _ _ (by omega), fld_eq a _ _ (by omega), fld_eq b _ _ (by omega), fld_eq t _ _ (by omega), fld_eq o _ _ (by omega)]

theorem arrive (t : BitVec 4) : Statement (.arrive t) := by
  intro _ hw
  have h0 := t.isLt
  change decode (0x60000100 + t.toNat) = _
  generalize hx : 0x60000100 + t.toNat = wd
  refine decode_of_raw (m := 24) (by omega) (by decide) (by decide) ?_ hw
  have hm : wd / 67108864 % 64 = 24 := by omega
  simp only [rawDecode, hm, decodeMajor18]
  iterate 3 rw [if_neg (by omega)]
  rw [if_pos (by omega), fld_eq t _ _ (by omega)]

theorem waitb (t : BitVec 4) : Statement (.waitb t) := by
  intro _ hw
  have h0 := t.isLt
  change decode (0x60000140 + t.toNat) = _
  generalize hx : 0x60000140 + t.toNat = wd
  refine decode_of_raw (m := 24) (by omega) (by decide) (by decide) ?_ hw
  have hm : wd / 67108864 % 64 = 24 := by omega
  simp only [rawDecode, hm, decodeMajor18]
  iterate 4 rw [if_neg (by omega)]
  rw [if_pos (by omega), fld_eq t _ _ (by omega)]

theorem bmask (a : BitVec 5) : Statement (.bmask a) := by
  intro _ hw
  have h0 := a.isLt
  change decode (0x60000180 + a.toNat * 65536) = _
  generalize hx : 0x60000180 + a.toNat * 65536 = wd
  refine decode_of_raw (m := 24) (by omega) (by decide) (by decide) ?_ hw
  have hm : wd / 67108864 % 64 = 24 := by omega
  simp only [rawDecode, hm, decodeMajor18]
  iterate 5 rw [if_neg (by omega)]
  rw [if_pos (by omega), fld_eq a _ _ (by omega)]

theorem fencel  : Statement (.fencel) := by
  intro _ hw
  change decode (0x600001C0) = _
  generalize hx : 0x600001C0 = wd
  refine decode_of_raw (m := 24) (by omega) (by decide) (by decide) ?_ hw
  have hm : wd / 67108864 % 64 = 24 := by omega
  simp only [rawDecode, hm, decodeMajor18]
  rw [if_pos (by omega)]

theorem fenceh (s : BitVec 3) : Statement (.fenceh s) := by
  intro _ hw
  have h0 := s.isLt
  change decode (0x60000200 + s.toNat) = _
  generalize hx : 0x60000200 + s.toNat = wd
  refine decode_of_raw (m := 24) (by omega) (by decide) (by decide) ?_ hw
  have hm : wd / 67108864 % 64 = 24 := by omega
  simp only [rawDecode, hm, decodeMajor18]
  iterate 1 rw [if_neg (by omega)]
  rw [if_pos (by omega), fld_eq s _ _ (by omega)]

theorem fence (s : BitVec 3) : Statement (.fence s) := by
  intro _ hw
  have h0 := s.isLt
  change decode (0x60000240 + s.toNat) = _
  generalize hx : 0x60000240 + s.toNat = wd
  refine decode_of_raw (m := 24) (by omega) (by decide) (by decide) ?_ hw
  have hm : wd / 67108864 % 64 = 24 := by omega
  simp only [rawDecode, hm, decodeMajor18]
  iterate 2 rw [if_neg (by omega)]
  rw [if_pos (by omega), fld_eq s _ _ (by omega)]

theorem ecadd (d : BitVec 5) (a : BitVec 5) (b : BitVec 5) : Statement (.ecadd d a b) := by
  intro _ hw
  have h0 := d.isLt; have h1 := a.isLt; have h2 := b.isLt
  change decode (0x60000280 + d.toNat * 2097152 + a.toNat * 65536 + b.toNat * 2048) = _
  generalize hx : 0x60000280 + d.toNat * 2097152 + a.toNat * 65536 + b.toNat * 2048 = wd
  refine decode_of_raw (m := 24) (by omega) (by decide) (by decide) ?_ hw
  have hm : wd / 67108864 % 64 = 24 := by omega
  simp only [rawDecode, hm, decodeMajor18]
  iterate 10 rw [if_neg (by omega)]
  rw [if_pos (by omega), fld_eq d _ _ (by omega), fld_eq a _ _ (by omega), fld_eq b _ _ (by omega)]

theorem ecwait (d : BitVec 5) (a : BitVec 5) (b : BitVec 5) : Statement (.ecwait d a b) := by
  intro _ hw
  have h0 := d.isLt; have h1 := a.isLt; have h2 := b.isLt
  change decode (0x600002C0 + d.toNat * 2097152 + a.toNat * 65536 + b.toNat * 2048) = _
  generalize hx : 0x600002C0 + d.toNat * 2097152 + a.toNat * 65536 + b.toNat * 2048 = wd
  refine decode_of_raw (m := 24) (by omega) (by decide) (by decide) ?_ hw
  have hm : wd / 67108864 % 64 = 24 := by omega
  simp only [rawDecode, hm, decodeMajor18]
  iterate 11 rw [if_neg (by omega)]
  rw [if_pos (by omega), fld_eq d _ _ (by omega), fld_eq a _ _ (by omega), fld_eq b _ _ (by omega)]

theorem ectrig (d : BitVec 5) (a : BitVec 5) (b : BitVec 5) : Statement (.ectrig d a b) := by
  intro _ hw
  have h0 := d.isLt; have h1 := a.isLt; have h2 := b.isLt
  change decode (0x60000300 + d.toNat * 2097152 + a.toNat * 65536 + b.toNat * 2048) = _
  generalize hx : 0x60000300 + d.toNat * 2097152 + a.toNat * 65536 + b.toNat * 2048 = wd
  refine decode_of_raw (m := 24) (by omega) (by decide) (by decide) ?_ hw
  have hm : wd / 67108864 % 64 = 24 := by omega
  simp only [rawDecode, hm, decodeMajor18]
  iterate 12 rw [if_neg (by omega)]
  rw [if_pos (by omega), fld_eq d _ _ (by omega), fld_eq a _ _ (by omega), fld_eq b _ _ (by omega)]

theorem hold (d : BitVec 5) (a : BitVec 5) (b : BitVec 5) : Statement (.hold d a b) := by
  intro _ hw
  have h0 := d.isLt; have h1 := a.isLt; have h2 := b.isLt
  change decode (0x64000000 + d.toNat * 2097152 + a.toNat * 65536 + b.toNat * 2048) = _
  generalize hx : 0x64000000 + d.toNat * 2097152 + a.toNat * 65536 + b.toNat * 2048 = wd
  refine decode_of_raw (m := 25) (by omega) (by decide) (by decide) ?_ hw
  have hm : wd / 67108864 % 64 = 25 := by omega
  simp only [rawDecode, hm, decodeMajor19]
  rw [if_pos (by omega), fld_eq d _ _ (by omega), fld_eq a _ _ (by omega), fld_eq b _ _ (by omega)]

theorem relq (d : BitVec 5) (a : BitVec 5) (k : BitVec 2) : Statement (.relq d a k) := by
  intro _ hw
  have h0 := d.isLt; have h1 := a.isLt; have h2 := k.isLt
  change decode (0x64000040 + d.toNat * 2097152 + a.toNat * 65536 + k.toNat) = _
  generalize hx : 0x64000040 + d.toNat * 2097152 + a.toNat * 65536 + k.toNat = wd
  refine decode_of_raw (m := 25) (by omega) (by decide) (by decide) ?_ hw
  have hm : wd / 67108864 % 64 = 25 := by omega
  simp only [rawDecode, hm, decodeMajor19]
  iterate 1 rw [if_neg (by omega)]
  rw [if_pos (by omega), fld_eq d _ _ (by omega), fld_eq a _ _ (by omega), fld_eq k _ _ (by omega)]

theorem heir (d : BitVec 5) (a : BitVec 5) (b : BitVec 5) (k : BitVec 2) : Statement (.heir d a b k) := by
  intro _ hw
  have h0 := d.isLt; have h1 := a.isLt; have h2 := b.isLt; have h3 := k.isLt
  change decode (0x64000080 + d.toNat * 2097152 + a.toNat * 65536 + b.toNat * 2048 + k.toNat) = _
  generalize hx : 0x64000080 + d.toNat * 2097152 + a.toNat * 65536 + b.toNat * 2048 + k.toNat = wd
  refine decode_of_raw (m := 25) (by omega) (by decide) (by decide) ?_ hw
  have hm : wd / 67108864 % 64 = 25 := by omega
  simp only [rawDecode, hm, decodeMajor19]
  iterate 2 rw [if_neg (by omega)]
  rw [if_pos (by omega), fld_eq d _ _ (by omega), fld_eq a _ _ (by omega), fld_eq b _ _ (by omega), fld_eq k _ _ (by omega)]

theorem promise (d : BitVec 5) (a : BitVec 5) (b : BitVec 5) : Statement (.promise d a b) := by
  intro _ hw
  have h0 := d.isLt; have h1 := a.isLt; have h2 := b.isLt
  change decode (0x640000C0 + d.toNat * 2097152 + a.toNat * 65536 + b.toNat * 2048) = _
  generalize hx : 0x640000C0 + d.toNat * 2097152 + a.toNat * 65536 + b.toNat * 2048 = wd
  refine decode_of_raw (m := 25) (by omega) (by decide) (by decide) ?_ hw
  have hm : wd / 67108864 % 64 = 25 := by omega
  simp only [rawDecode, hm, decodeMajor19]
  iterate 3 rw [if_neg (by omega)]
  rw [if_pos (by omega), fld_eq d _ _ (by omega), fld_eq a _ _ (by omega), fld_eq b _ _ (by omega)]

theorem estq (d : BitVec 5) (a : BitVec 5) (b : BitVec 5) (k : BitVec 2) : Statement (.estq d a b k) := by
  intro _ hw
  have h0 := d.isLt; have h1 := a.isLt; have h2 := b.isLt; have h3 := k.isLt
  change decode (0x64000100 + d.toNat * 2097152 + a.toNat * 65536 + b.toNat * 2048 + k.toNat * 8) = _
  generalize hx : 0x64000100 + d.toNat * 2097152 + a.toNat * 65536 + b.toNat * 2048 + k.toNat * 8 = wd
  refine decode_of_raw (m := 25) (by omega) (by decide) (by decide) ?_ hw
  have hm : wd / 67108864 % 64 = 25 := by omega
  simp only [rawDecode, hm, decodeMajor19]
  iterate 4 rw [if_neg (by omega)]
  rw [if_pos (by omega), fld_eq d _ _ (by omega), fld_eq a _ _ (by omega), fld_eq b _ _ (by omega), fld_eq k _ _ (by omega)]

theorem estqPop (d : BitVec 5) (b : BitVec 5) : Statement (.estqPop d b) := by
  intro _ hw
  have h0 := d.isLt; have h1 := b.isLt
  change decode (0x64000101 + d.toNat * 2097152 + b.toNat * 2048) = _
  generalize hx : 0x64000101 + d.toNat * 2097152 + b.toNat * 2048 = wd
  refine decode_of_raw (m := 25) (by omega) (by decide) (by decide) ?_ hw
  have hm : wd / 67108864 % 64 = 25 := by omega
  simp only [rawDecode, hm, decodeMajor19]
  iterate 5 rw [if_neg (by omega)]
  rw [if_pos (by omega), fld_eq d _ _ (by omega), fld_eq b _ _ (by omega)]

theorem estqWait (d : BitVec 5) (b : BitVec 5) : Statement (.estqWait d b) := by
  intro _ hw
  have h0 := d.isLt; have h1 := b.isLt
  change decode (0x64000102 + d.toNat * 2097152 + b.toNat * 2048) = _
  generalize hx : 0x64000102 + d.toNat * 2097152 + b.toNat * 2048 = wd
  refine decode_of_raw (m := 25) (by omega) (by decide) (by decide) ?_ hw
  have hm : wd / 67108864 % 64 = 25 := by omega
  simp only [rawDecode, hm, decodeMajor19]
  iterate 6 rw [if_neg (by omega)]
  rw [if_pos (by omega), fld_eq d _ _ (by omega), fld_eq b _ _ (by omega)]

theorem orphcl (d : BitVec 5) (a : BitVec 5) : Statement (.orphcl d a) := by
  intro _ hw
  have h0 := d.isLt; have h1 := a.isLt
  change decode (0x64000140 + d.toNat * 2097152 + a.toNat * 65536) = _
  generalize hx : 0x64000140 + d.toNat * 2097152 + a.toNat * 65536 = wd
  refine decode_of_raw (m := 25) (by omega) (by decide) (by decide) ?_ hw
  have hm : wd / 67108864 % 64 = 25 := by omega
  simp only [rawDecode, hm, decodeMajor19]
  iterate 7 rw [if_neg (by omega)]
  rw [if_pos (by omega), fld_eq d _ _ (by omega), fld_eq a _ _ (by omega)]

theorem send (d : BitVec 5) (a : BitVec 5) : Statement (.send d a) := by
  intro _ hw
  have h0 := d.isLt; have h1 := a.isLt
  change decode (0x68000000 + d.toNat * 2097152 + a.toNat * 65536) = _
  generalize hx : 0x68000000 + d.toNat * 2097152 + a.toNat * 65536 = wd
  refine decode_of_raw (m := 26) (by omega) (by decide) (by decide) ?_ hw
  have hm : wd / 67108864 % 64 = 26 := by omega
  simp only [rawDecode, hm, decodeMajor1A]
  rw [if_pos (by omega), fld_eq d _ _ (by omega), fld_eq a _ _ (by omega)]

theorem recv (d : BitVec 5) (p : BitVec 1) (w : BitVec 1) : Statement (.recv d p w) := by
  intro _ hw
  have h0 := d.isLt; have h1 := p.isLt; have h2 := w.isLt
  change decode (0x68000040 + d.toNat * 2097152 + p.toNat * 2 + w.toNat) = _
  generalize hx : 0x68000040 + d.toNat * 2097152 + p.toNat * 2 + w.toNat = wd
  refine decode_of_raw (m := 26) (by omega) (by decide) (by decide) ?_ hw
  have hm : wd / 67108864 % 64 = 26 := by omega
  simp only [rawDecode, hm, decodeMajor1A]
  iterate 1 rw [if_neg (by omega)]
  rw [if_pos (by omega), fld_eq d _ _ (by omega), fld_eq p _ _ (by omega), fld_eq w _ _ (by omega)]

theorem qstat (d : BitVec 5) : Statement (.qstat d) := by
  intro _ hw
  have h0 := d.isLt
  change decode (0x68000080 + d.toNat * 2097152) = _
  generalize hx : 0x68000080 + d.toNat * 2097152 = wd
  refine decode_of_raw (m := 26) (by omega) (by decide) (by decide) ?_ hw
  have hm : wd / 67108864 % 64 = 26 := by omega
  simp only [rawDecode, hm, decodeMajor1A]
  iterate 2 rw [if_neg (by omega)]
  rw [if_pos (by omega), fld_eq d _ _ (by omega)]

theorem gcopy (d : BitVec 5) (a : BitVec 5) (b : BitVec 5) (v : BitVec 1) : Statement (.gcopy d a b v) := by
  intro _ hw
  have h0 := d.isLt; have h1 := a.isLt; have h2 := b.isLt; have h3 := v.isLt
  change decode (0x6C000000 + d.toNat * 2097152 + a.toNat * 65536 + b.toNat * 2048 + v.toNat) = _
  generalize hx : 0x6C000000 + d.toNat * 2097152 + a.toNat * 65536 + b.toNat * 2048 + v.toNat = wd
  refine decode_of_raw (m := 27) (by omega) (by decide) (by decide) ?_ hw
  have hm : wd / 67108864 % 64 = 27 := by omega
  simp only [rawDecode, hm, decodeMajor1B]
  rw [if_pos (by omega), fld_eq d _ _ (by omega), fld_eq a _ _ (by omega), fld_eq b _ _ (by omega), fld_eq v _ _ (by omega)]

theorem gsend (d : BitVec 5) (a : BitVec 5) (b : BitVec 5) (v : BitVec 1) : Statement (.gsend d a b v) := by
  intro _ hw
  have h0 := d.isLt; have h1 := a.isLt; have h2 := b.isLt; have h3 := v.isLt
  change decode (0x6C000040 + d.toNat * 2097152 + a.toNat * 65536 + b.toNat * 2048 + v.toNat) = _
  generalize hx : 0x6C000040 + d.toNat * 2097152 + a.toNat * 65536 + b.toNat * 2048 + v.toNat = wd
  refine decode_of_raw (m := 27) (by omega) (by decide) (by decide) ?_ hw
  have hm : wd / 67108864 % 64 = 27 := by omega
  simp only [rawDecode, hm, decodeMajor1B]
  iterate 1 rw [if_neg (by omega)]
  rw [if_pos (by omega), fld_eq d _ _ (by omega), fld_eq a _ _ (by omega), fld_eq b _ _ (by omega), fld_eq v _ _ (by omega)]

theorem gcmp (d : BitVec 5) (a : BitVec 5) (b : BitVec 5) (v : BitVec 1) : Statement (.gcmp d a b v) := by
  intro _ hw
  have h0 := d.isLt; have h1 := a.isLt; have h2 := b.isLt; have h3 := v.isLt
  change decode (0x6C000080 + d.toNat * 2097152 + a.toNat * 65536 + b.toNat * 2048 + v.toNat) = _
  generalize hx : 0x6C000080 + d.toNat * 2097152 + a.toNat * 65536 + b.toNat * 2048 + v.toNat = wd
  refine decode_of_raw (m := 27) (by omega) (by decide) (by decide) ?_ hw
  have hm : wd / 67108864 % 64 = 27 := by omega
  simp only [rawDecode, hm, decodeMajor1B]
  iterate 2 rw [if_neg (by omega)]
  rw [if_pos (by omega), fld_eq d _ _ (by omega), fld_eq a _ _ (by omega), fld_eq b _ _ (by omega), fld_eq v _ _ (by omega)]

theorem ghash (d : BitVec 5) (a : BitVec 5) (b : BitVec 5) (v : BitVec 1) : Statement (.ghash d a b v) := by
  intro _ hw
  have h0 := d.isLt; have h1 := a.isLt; have h2 := b.isLt; have h3 := v.isLt
  change decode (0x6C0000C0 + d.toNat * 2097152 + a.toNat * 65536 + b.toNat * 2048 + v.toNat) = _
  generalize hx : 0x6C0000C0 + d.toNat * 2097152 + a.toNat * 65536 + b.toNat * 2048 + v.toNat = wd
  refine decode_of_raw (m := 27) (by omega) (by decide) (by decide) ?_ hw
  have hm : wd / 67108864 % 64 = 27 := by omega
  simp only [rawDecode, hm, decodeMajor1B]
  iterate 3 rw [if_neg (by omega)]
  rw [if_pos (by omega), fld_eq d _ _ (by omega), fld_eq a _ _ (by omega), fld_eq b _ _ (by omega), fld_eq v _ _ (by omega)]

theorem gfree (d : BitVec 5) (a : BitVec 5) (b : BitVec 5) : Statement (.gfree d a b) := by
  intro _ hw
  have h0 := d.isLt; have h1 := a.isLt; have h2 := b.isLt
  change decode (0x6C000100 + d.toNat * 2097152 + a.toNat * 65536 + b.toNat * 2048) = _
  generalize hx : 0x6C000100 + d.toNat * 2097152 + a.toNat * 65536 + b.toNat * 2048 = wd
  refine decode_of_raw (m := 27) (by omega) (by decide) (by decide) ?_ hw
  have hm : wd / 67108864 % 64 = 27 := by omega
  simp only [rawDecode, hm, decodeMajor1B]
  iterate 4 rw [if_neg (by omega)]
  rw [if_pos (by omega), fld_eq d _ _ (by omega), fld_eq a _ _ (by omega), fld_eq b _ _ (by omega)]

theorem oalloc (d : BitVec 5) (a : BitVec 5) (b : BitVec 5) : Statement (.oalloc d a b) := by
  intro _ hw
  have h0 := d.isLt; have h1 := a.isLt; have h2 := b.isLt
  change decode (0x6C000140 + d.toNat * 2097152 + a.toNat * 65536 + b.toNat * 2048) = _
  generalize hx : 0x6C000140 + d.toNat * 2097152 + a.toNat * 65536 + b.toNat * 2048 = wd
  refine decode_of_raw (m := 27) (by omega) (by decide) (by decide) ?_ hw
  have hm : wd / 67108864 % 64 = 27 := by omega
  simp only [rawDecode, hm, decodeMajor1B]
  iterate 5 rw [if_neg (by omega)]
  rw [if_pos (by omega), fld_eq d _ _ (by omega), fld_eq a _ _ (by omega), fld_eq b _ _ (by omega)]

theorem ostp (d : BitVec 5) (a : BitVec 5) (b : BitVec 5) : Statement (.ostp d a b) := by
  intro _ hw
  have h0 := d.isLt; have h1 := a.isLt; have h2 := b.isLt
  change decode (0x6C000180 + d.toNat * 2097152 + a.toNat * 65536 + b.toNat * 2048) = _
  generalize hx : 0x6C000180 + d.toNat * 2097152 + a.toNat * 65536 + b.toNat * 2048 = wd
  refine decode_of_raw (m := 27) (by omega) (by decide) (by decide) ?_ hw
  have hm : wd / 67108864 % 64 = 27 := by omega
  simp only [rawDecode, hm, decodeMajor1B]
  iterate 6 rw [if_neg (by omega)]
  rw [if_pos (by omega), fld_eq d _ _ (by omega), fld_eq a _ _ (by omega), fld_eq b _ _ (by omega)]

theorem gstat (d : BitVec 5) (a : BitVec 5) : Statement (.gstat d a) := by
  intro _ hw
  have h0 := d.isLt; have h1 := a.isLt
  change decode (0x6C0001C0 + d.toNat * 2097152 + a.toNat * 65536) = _
  generalize hx : 0x6C0001C0 + d.toNat * 2097152 + a.toNat * 65536 = wd
  refine decode_of_raw (m := 27) (by omega) (by decide) (by decide) ?_ hw
  have hm : wd / 67108864 % 64 = 27 := by omega
  simp only [rawDecode, hm, decodeMajor1B]
  iterate 7 rw [if_neg (by omega)]
  rw [if_pos (by omega), fld_eq d _ _ (by omega), fld_eq a _ _ (by omega)]

theorem hdef (h : BitVec 4) (a : BitVec 5) : Statement (.hdef h a) := by
  intro _ hw
  have h0 := h.isLt; have h1 := a.isLt
  change decode (0x70000000 + h.toNat * 4194304 + a.toNat * 4096) = _
  generalize hx : 0x70000000 + h.toNat * 4194304 + a.toNat * 4096 = wd
  refine decode_of_raw (m := 28) (by omega) (by decide) (by decide) ?_ hw
  have hm : wd / 67108864 % 64 = 28 := by omega
  simp only [rawDecode, hm, decodeMajor1C]
  rw [if_pos (by omega), fld_eq h _ _ (by omega), fld_eq a _ _ (by omega)]

theorem hwait (h : BitVec 4) (n : BitVec 5) : Statement (.hwait h n) := by
  intro _ hw
  have h0 := h.isLt; have h1 := n.isLt
  change decode (0x70000040 + h.toNat * 4194304 + n.toNat * 131072) = _
  generalize hx : 0x70000040 + h.toNat * 4194304 + n.toNat * 131072 = wd
  refine decode_of_raw (m := 28) (by omega) (by decide) (by decide) ?_ hw
  have hm : wd / 67108864 % 64 = 28 := by omega
  simp only [rawDecode, hm, decodeMajor1C]
  iterate 1 rw [if_neg (by omega)]
  rw [if_pos (by omega), fld_eq h _ _ (by omega), fld_eq n _ _ (by omega)]

theorem hwaitP (h : BitVec 4) (n : BitVec 5) : Statement (.hwaitP h n) := by
  intro _ hw
  have h0 := h.isLt; have h1 := n.isLt
  change decode (0x70000041 + h.toNat * 4194304 + n.toNat * 131072) = _
  generalize hx : 0x70000041 + h.toNat * 4194304 + n.toNat * 131072 = wd
  refine decode_of_raw (m := 28) (by omega) (by decide) (by decide) ?_ hw
  have hm : wd / 67108864 % 64 = 28 := by omega
  simp only [rawDecode, hm, decodeMajor1C]
  iterate 2 rw [if_neg (by omega)]
  rw [if_pos (by omega), fld_eq h _ _ (by omega), fld_eq n _ _ (by omega)]

theorem hwaitT (n : BitVec 5) (a : BitVec 5) : Statement (.hwaitT n a) := by
  intro _ hw
  have h0 := n.isLt; have h1 := a.isLt
  change decode (0x70000042 + n.toNat * 131072 + a.toNat * 4096) = _
  generalize hx : 0x70000042 + n.toNat * 131072 + a.toNat * 4096 = wd
  refine decode_of_raw (m := 28) (by omega) (by decide) (by decide) ?_ hw
  have hm : wd / 67108864 % 64 = 28 := by omega
  simp only [rawDecode, hm, decodeMajor1C]
  iterate 3 rw [if_neg (by omega)]
  rw [if_pos (by omega), fld_eq n _ _ (by omega), fld_eq a _ _ (by omega)]

theorem advp (h : BitVec 4) (n : BitVec 5) : Statement (.advp h n) := by
  intro _ hw
  have h0 := h.isLt; have h1 := n.isLt
  change decode (0x70000080 + h.toNat * 4194304 + n.toNat * 131072) = _
  generalize hx : 0x70000080 + h.toNat * 4194304 + n.toNat * 131072 = wd
  refine decode_of_raw (m := 28) (by omega) (by decide) (by decide) ?_ hw
  have hm : wd / 67108864 % 64 = 28 := by omega
  simp only [rawDecode, hm, decodeMajor1C]
  iterate 4 rw [if_neg (by omega)]
  rw [if_pos (by omega), fld_eq h _ _ (by omega), fld_eq n _ _ (by omega)]

theorem advc (h : BitVec 4) (n : BitVec 5) : Statement (.advc h n) := by
  intro _ hw
  have h0 := h.isLt; have h1 := n.isLt
  change decode (0x700000C0 + h.toNat * 4194304 + n.toNat * 131072) = _
  generalize hx : 0x700000C0 + h.toNat * 4194304 + n.toNat * 131072 = wd
  refine decode_of_raw (m := 28) (by omega) (by decide) (by decide) ?_ hw
  have hm : wd / 67108864 % 64 = 28 := by omega
  simp only [rawDecode, hm, decodeMajor1C]
  iterate 5 rw [if_neg (by omega)]
  rw [if_pos (by omega), fld_eq h _ _ (by omega), fld_eq n _ _ (by omega)]

theorem advcL (n : BitVec 5) (a : BitVec 5) : Statement (.advcL n a) := by
  intro _ hw
  have h0 := n.isLt; have h1 := a.isLt
  change decode (0x700000C1 + n.toNat * 131072 + a.toNat * 4096) = _
  generalize hx : 0x700000C1 + n.toNat * 131072 + a.toNat * 4096 = wd
  refine decode_of_raw (m := 28) (by omega) (by decide) (by decide) ?_ hw
  have hm : wd / 67108864 % 64 = 28 := by omega
  simp only [rawDecode, hm, decodeMajor1C]
  iterate 6 rw [if_neg (by omega)]
  rw [if_pos (by omega), fld_eq n _ _ (by omega), fld_eq a _ _ (by omega)]

theorem hstat (h : BitVec 4) (a : BitVec 5) : Statement (.hstat h a) := by
  intro _ hw
  have h0 := h.isLt; have h1 := a.isLt
  change decode (0x70000100 + h.toNat * 4194304 + a.toNat * 4096) = _
  generalize hx : 0x70000100 + h.toNat * 4194304 + a.toNat * 4096 = wd
  refine decode_of_raw (m := 28) (by omega) (by decide) (by decide) ?_ hw
  have hm : wd / 67108864 % 64 = 28 := by omega
  simp only [rawDecode, hm, decodeMajor1C]
  iterate 7 rw [if_neg (by omega)]
  rw [if_pos (by omega), fld_eq h _ _ (by omega), fld_eq a _ _ (by omega)]

theorem bcopy (d : BitVec 5) (a : BitVec 5) : Statement (.bcopy d a) := by
  intro _ hw
  have h0 := d.isLt; have h1 := a.isLt
  change decode (0x74000000 + d.toNat * 2097152 + a.toNat * 65536) = _
  generalize hx : 0x74000000 + d.toNat * 2097152 + a.toNat * 65536 = wd
  refine decode_of_raw (m := 29) (by omega) (by decide) (by decide) ?_ hw
  have hm : wd / 67108864 % 64 = 29 := by omega
  simp only [rawDecode, hm, decodeMajor1D]
  rw [if_pos (by omega), fld_eq d _ _ (by omega), fld_eq a _ _ (by omega)]

theorem bcast (d : BitVec 5) (a : BitVec 5) : Statement (.bcast d a) := by
  intro _ hw
  have h0 := d.isLt; have h1 := a.isLt
  change decode (0x74000040 + d.toNat * 2097152 + a.toNat * 65536) = _
  generalize hx : 0x74000040 + d.toNat * 2097152 + a.toNat * 65536 = wd
  refine decode_of_raw (m := 29) (by omega) (by decide) (by decide) ?_ hw
  have hm : wd / 67108864 % 64 = 29 := by omega
  simp only [rawDecode, hm, decodeMajor1D]
  iterate 1 rw [if_neg (by omega)]
  rw [if_pos (by omega), fld_eq d _ _ (by omega), fld_eq a _ _ (by omega)]

theorem deal (d : BitVec 5) (a : BitVec 5) : Statement (.deal d a) := by
  intro _ hw
  have h0 := d.isLt; have h1 := a.isLt
  change decode (0x74000080 + d.toNat * 2097152 + a.toNat * 65536) = _
  generalize hx : 0x74000080 + d.toNat * 2097152 + a.toNat * 65536 = wd
  refine decode_of_raw (m := 29) (by omega) (by decide) (by decide) ?_ hw
  have hm : wd / 67108864 % 64 = 29 := by omega
  simp only [rawDecode, hm, decodeMajor1D]
  iterate 2 rw [if_neg (by omega)]
  rw [if_pos (by omega), fld_eq d _ _ (by omega), fld_eq a _ _ (by omega)]

theorem cstat (d : BitVec 5) (a : BitVec 5) (s : BitVec 3) : Statement (.cstat d a s) := by
  intro _ hw
  have h0 := d.isLt; have h1 := a.isLt; have h2 := s.isLt
  change decode (0x740000C0 + d.toNat * 2097152 + a.toNat * 65536 + s.toNat) = _
  generalize hx : 0x740000C0 + d.toNat * 2097152 + a.toNat * 65536 + s.toNat = wd
  refine decode_of_raw (m := 29) (by omega) (by decide) (by decide) ?_ hw
  have hm : wd / 67108864 % 64 = 29 := by omega
  simp only [rawDecode, hm, decodeMajor1D]
  iterate 3 rw [if_neg (by omega)]
  rw [if_pos (by omega), fld_eq d _ _ (by omega), fld_eq a _ _ (by omega), fld_eq s _ _ (by omega)]

theorem mma (h : BitVec 4) (w : BitVec 4) (s : BitVec 6) (t : BitVec 3) (z : BitVec 1) (v : BitVec 1) : Statement (.mma h w s t z v) := by
  intro _ hw
  have h0 := h.isLt; have h1 := w.isLt; have h2 := s.isLt; have h3 := t.isLt; have h4 := z.isLt; have h5 := v.isLt
  change decode (0x78000000 + h.toNat * 262144 + w.toNat * 16384 + s.toNat * 256 + t.toNat * 32 + z.toNat * 16 + v.toNat * 8) = _
  generalize hx : 0x78000000 + h.toNat * 262144 + w.toNat * 16384 + s.toNat * 256 + t.toNat * 32 + z.toNat * 16 + v.toNat * 8 = wd
  refine decode_of_raw (m := 30) (by omega) (by decide) (by decide) ?_ hw
  have hm : wd / 67108864 % 64 = 30 := by omega
  simp only [rawDecode, hm, decodeMajor1E]
  rw [if_pos (by omega), fld_eq h _ _ (by omega), fld_eq w _ _ (by omega), fld_eq s _ _ (by omega), fld_eq t _ _ (by omega), fld_eq z _ _ (by omega), fld_eq v _ _ (by omega)]

theorem mclr  : Statement (.mclr) := by
  intro _ hw
  change decode (0x78400000) = _
  generalize hx : 0x78400000 = wd
  refine decode_of_raw (m := 30) (by omega) (by decide) (by decide) ?_ hw
  have hm : wd / 67108864 % 64 = 30 := by omega
  simp only [rawDecode, hm, decodeMajor1E]
  iterate 1 rw [if_neg (by omega)]
  rw [if_pos (by omega)]

theorem mdrain (a : BitVec 5) (q : BitVec 1) (t : BitVec 3) (u : BitVec 1) (r : BitVec 3) : Statement (.mdrain a q t u r) := by
  intro _ hw
  have h0 := a.isLt; have h1 := q.isLt; have h2 := t.isLt; have h3 := u.isLt; have h4 := r.isLt
  change decode (0x78800000 + a.toNat * 131072 + q.toNat * 256 + t.toNat * 32 + u.toNat * 16 + r.toNat) = _
  generalize hx : 0x78800000 + a.toNat * 131072 + q.toNat * 256 + t.toNat * 32 + u.toNat * 16 + r.toNat = wd
  refine decode_of_raw (m := 30) (by omega) (by decide) (by decide) ?_ hw
  have hm : wd / 67108864 % 64 = 30 := by omega
  simp only [rawDecode, hm, decodeMajor1E]
  iterate 2 rw [if_neg (by omega)]
  rw [if_pos (by omega), fld_eq a _ _ (by omega), fld_eq q _ _ (by omega), fld_eq t _ _ (by omega), fld_eq u _ _ (by omega), fld_eq r _ _ (by omega)]

theorem mmap (a : BitVec 5) : Statement (.mmap a) := by
  intro _ hw
  have h0 := a.isLt
  change decode (0x78C00000 + a.toNat * 131072) = _
  generalize hx : 0x78C00000 + a.toNat * 131072 = wd
  refine decode_of_raw (m := 30) (by omega) (by decide) (by decide) ?_ hw
  have hm : wd / 67108864 % 64 = 30 := by omega
  simp only [rawDecode, hm, decodeMajor1E]
  iterate 3 rw [if_neg (by omega)]
  rw [if_pos (by omega), fld_eq a _ _ (by omega)]

theorem wbload (a : BitVec 5) (b : BitVec 5) : Statement (.wbload a b) := by
  intro _ hw
  have h0 := a.isLt; have h1 := b.isLt
  change decode (0x79000000 + a.toNat * 131072 + b.toNat * 4096) = _
  generalize hx : 0x79000000 + a.toNat * 131072 + b.toNat * 4096 = wd
  refine decode_of_raw (m := 30) (by omega) (by decide) (by decide) ?_ hw
  have hm : wd / 67108864 % 64 = 30 := by omega
  simp only [rawDecode, hm, decodeMajor1E]
  iterate 4 rw [if_neg (by omega)]
  rw [if_pos (by omega), fld_eq a _ _ (by omega), fld_eq b _ _ (by omega)]

theorem mswap  : Statement (.mswap) := by
  intro _ hw
  change decode (0x79400000) = _
  generalize hx : 0x79400000 = wd
  refine decode_of_raw (m := 30) (by omega) (by decide) (by decide) ?_ hw
  have hm : wd / 67108864 % 64 = 30 := by omega
  simp only [rawDecode, hm, decodeMajor1E]
  iterate 5 rw [if_neg (by omega)]
  rw [if_pos (by omega)]

theorem mpert (a : BitVec 5) (b : BitVec 5) : Statement (.mpert a b) := by
  intro _ hw
  have h0 := a.isLt; have h1 := b.isLt
  change decode (0x79800000 + a.toNat * 131072 + b.toNat * 4096) = _
  generalize hx : 0x79800000 + a.toNat * 131072 + b.toNat * 4096 = wd
  refine decode_of_raw (m := 30) (by omega) (by decide) (by decide) ?_ hw
  have hm : wd / 67108864 % 64 = 30 := by omega
  simp only [rawDecode, hm, decodeMajor1E]
  iterate 6 rw [if_neg (by omega)]
  rw [if_pos (by omega), fld_eq a _ _ (by omega), fld_eq b _ _ (by omega)]

theorem mchk (a : BitVec 5) : Statement (.mchk a) := by
  intro _ hw
  have h0 := a.isLt
  change decode (0x79C00000 + a.toNat * 131072) = _
  generalize hx : 0x79C00000 + a.toNat * 131072 = wd
  refine decode_of_raw (m := 30) (by omega) (by decide) (by decide) ?_ hw
  have hm : wd / 67108864 % 64 = 30 := by omega
  simp only [rawDecode, hm, decodeMajor1E]
  iterate 7 rw [if_neg (by omega)]
  rw [if_pos (by omega), fld_eq a _ _ (by omega)]

theorem mstat (a : BitVec 5) (d : BitVec 5) : Statement (.mstat a d) := by
  intro _ hw
  have h0 := a.isLt; have h1 := d.isLt
  change decode (0x7A000000 + a.toNat * 131072 + d.toNat * 128) = _
  generalize hx : 0x7A000000 + a.toNat * 131072 + d.toNat * 128 = wd
  refine decode_of_raw (m := 30) (by omega) (by decide) (by decide) ?_ hw
  have hm : wd / 67108864 % 64 = 30 := by omega
  simp only [rawDecode, hm, decodeMajor1E]
  iterate 8 rw [if_neg (by omega)]
  rw [if_pos (by omega), fld_eq a _ _ (by omega), fld_eq d _ _ (by omega)]

theorem replay (d : BitVec 5) (a : BitVec 5) (m : BitVec 1) : Statement (.replay d a m) := by
  intro _ hw
  have h0 := d.isLt; have h1 := a.isLt; have h2 := m.isLt
  change decode (0x7C000000 + d.toNat * 2097152 + a.toNat * 65536 + m.toNat) = _
  generalize hx : 0x7C000000 + d.toNat * 2097152 + a.toNat * 65536 + m.toNat = wd
  refine decode_of_raw (m := 31) (by omega) (by decide) (by decide) ?_ hw
  have hm : wd / 67108864 % 64 = 31 := by omega
  simp only [rawDecode, hm, decodeMajor1F]
  rw [if_pos (by omega), fld_eq d _ _ (by omega), fld_eq a _ _ (by omega), fld_eq m _ _ (by omega)]

theorem tlbinv (a : BitVec 5) (b : BitVec 5) : Statement (.tlbinv a b) := by
  intro _ hw
  have h0 := a.isLt; have h1 := b.isLt
  change decode (0x7C000040 + a.toNat * 65536 + b.toNat * 2048) = _
  generalize hx : 0x7C000040 + a.toNat * 65536 + b.toNat * 2048 = wd
  refine decode_of_raw (m := 31) (by omega) (by decide) (by decide) ?_ hw
  have hm : wd / 67108864 % 64 = 31 := by omega
  simp only [rawDecode, hm, decodeMajor1F]
  iterate 1 rw [if_neg (by omega)]
  rw [if_pos (by omega), fld_eq a _ _ (by omega), fld_eq b _ _ (by omega)]

theorem kill (d : BitVec 5) (a : BitVec 5) (b : BitVec 5) : Statement (.kill d a b) := by
  intro _ hw
  have h0 := d.isLt; have h1 := a.isLt; have h2 := b.isLt
  change decode (0x7C000080 + d.toNat * 2097152 + a.toNat * 65536 + b.toNat * 2048) = _
  generalize hx : 0x7C000080 + d.toNat * 2097152 + a.toNat * 65536 + b.toNat * 2048 = wd
  refine decode_of_raw (m := 31) (by omega) (by decide) (by decide) ?_ hw
  have hm : wd / 67108864 % 64 = 31 := by omega
  simp only [rawDecode, hm, decodeMajor1F]
  iterate 2 rw [if_neg (by omega)]
  rw [if_pos (by omega), fld_eq d _ _ (by omega), fld_eq a _ _ (by omega), fld_eq b _ _ (by omega)]

theorem fqpop (d : BitVec 5) (a : BitVec 5) (b : BitVec 5) : Statement (.fqpop d a b) := by
  intro _ hw
  have h0 := d.isLt; have h1 := a.isLt; have h2 := b.isLt
  change decode (0x7C0000C0 + d.toNat * 2097152 + a.toNat * 65536 + b.toNat * 2048) = _
  generalize hx : 0x7C0000C0 + d.toNat * 2097152 + a.toNat * 65536 + b.toNat * 2048 = wd
  refine decode_of_raw (m := 31) (by omega) (by decide) (by decide) ?_ hw
  have hm : wd / 67108864 % 64 = 31 := by omega
  simp only [rawDecode, hm, decodeMajor1F]
  iterate 3 rw [if_neg (by omega)]
  rw [if_pos (by omega), fld_eq d _ _ (by omega), fld_eq a _ _ (by omega), fld_eq b _ _ (by omega)]

theorem moncall (d : BitVec 5) (a : BitVec 5) : Statement (.moncall d a) := by
  intro _ hw
  have h0 := d.isLt; have h1 := a.isLt
  change decode (0x7C000100 + d.toNat * 2097152 + a.toNat * 65536) = _
  generalize hx : 0x7C000100 + d.toNat * 2097152 + a.toNat * 65536 = wd
  refine decode_of_raw (m := 31) (by omega) (by decide) (by decide) ?_ hw
  have hm : wd / 67108864 % 64 = 31 := by omega
  simp only [rawDecode, hm, decodeMajor1F]
  iterate 4 rw [if_neg (by omega)]
  rw [if_pos (by omega), fld_eq d _ _ (by omega), fld_eq a _ _ (by omega)]

theorem vaddF (t : BitVec 3) (d : BitVec 5) (a : BitVec 5) (b : BitVec 5) (x : BitVec 4) : Statement (.vaddF t d a b x) := by
  intro _ hw
  have h0 := t.isLt; have h1 := d.isLt; have h2 := a.isLt; have h3 := b.isLt; have h4 := x.isLt
  change decode (0x80000000 + t.toNat * 524288 + d.toNat * 16384 + a.toNat * 512 + b.toNat * 16 + x.toNat) = _
  generalize hx : 0x80000000 + t.toNat * 524288 + d.toNat * 16384 + a.toNat * 512 + b.toNat * 16 + x.toNat = wd
  refine decode_of_raw (m := 32) (by omega) (by decide) (by decide) ?_ hw
  have hm : wd / 67108864 % 64 = 32 := by omega
  simp only [rawDecode, hm, decodeMajor20]
  rw [if_pos (by omega), fld_eq t _ _ (by omega), fld_eq d _ _ (by omega), fld_eq a _ _ (by omega), fld_eq b _ _ (by omega), fld_eq x _ _ (by omega)]

theorem vsubF (t : BitVec 3) (d : BitVec 5) (a : BitVec 5) (b : BitVec 5) (x : BitVec 4) : Statement (.vsubF t d a b x) := by
  intro _ hw
  have h0 := t.isLt; have h1 := d.isLt; have h2 := a.isLt; have h3 := b.isLt; have h4 := x.isLt
  change decode (0x80400000 + t.toNat * 524288 + d.toNat * 16384 + a.toNat * 512 + b.toNat * 16 + x.toNat) = _
  generalize hx : 0x80400000 + t.toNat * 524288 + d.toNat * 16384 + a.toNat * 512 + b.toNat * 16 + x.toNat = wd
  refine decode_of_raw (m := 32) (by omega) (by decide) (by decide) ?_ hw
  have hm : wd / 67108864 % 64 = 32 := by omega
  simp only [rawDecode, hm, decodeMajor20]
  iterate 1 rw [if_neg (by omega)]
  rw [if_pos (by omega), fld_eq t _ _ (by omega), fld_eq d _ _ (by omega), fld_eq a _ _ (by omega), fld_eq b _ _ (by omega), fld_eq x _ _ (by omega)]

theorem vmulF (t : BitVec 3) (d : BitVec 5) (a : BitVec 5) (b : BitVec 5) (x : BitVec 4) : Statement (.vmulF t d a b x) := by
  intro _ hw
  have h0 := t.isLt; have h1 := d.isLt; have h2 := a.isLt; have h3 := b.isLt; have h4 := x.isLt
  change decode (0x80800000 + t.toNat * 524288 + d.toNat * 16384 + a.toNat * 512 + b.toNat * 16 + x.toNat) = _
  generalize hx : 0x80800000 + t.toNat * 524288 + d.toNat * 16384 + a.toNat * 512 + b.toNat * 16 + x.toNat = wd
  refine decode_of_raw (m := 32) (by omega) (by decide) (by decide) ?_ hw
  have hm : wd / 67108864 % 64 = 32 := by omega
  simp only [rawDecode, hm, decodeMajor20]
  iterate 2 rw [if_neg (by omega)]
  rw [if_pos (by omega), fld_eq t _ _ (by omega), fld_eq d _ _ (by omega), fld_eq a _ _ (by omega), fld_eq b _ _ (by omega), fld_eq x _ _ (by omega)]

theorem vfma (t : BitVec 3) (d : BitVec 5) (a : BitVec 5) (b : BitVec 5) (x : BitVec 4) : Statement (.vfma t d a b x) := by
  intro _ hw
  have h0 := t.isLt; have h1 := d.isLt; have h2 := a.isLt; have h3 := b.isLt; have h4 := x.isLt
  change decode (0x80C00000 + t.toNat * 524288 + d.toNat * 16384 + a.toNat * 512 + b.toNat * 16 + x.toNat) = _
  generalize hx : 0x80C00000 + t.toNat * 524288 + d.toNat * 16384 + a.toNat * 512 + b.toNat * 16 + x.toNat = wd
  refine decode_of_raw (m := 32) (by omega) (by decide) (by decide) ?_ hw
  have hm : wd / 67108864 % 64 = 32 := by omega
  simp only [rawDecode, hm, decodeMajor20]
  iterate 3 rw [if_neg (by omega)]
  rw [if_pos (by omega), fld_eq t _ _ (by omega), fld_eq d _ _ (by omega), fld_eq a _ _ (by omega), fld_eq b _ _ (by omega), fld_eq x _ _ (by omega)]

theorem vminF (t : BitVec 3) (d : BitVec 5) (a : BitVec 5) (b : BitVec 5) (x : BitVec 4) : Statement (.vminF t d a b x) := by
  intro _ hw
  have h0 := t.isLt; have h1 := d.isLt; have h2 := a.isLt; have h3 := b.isLt; have h4 := x.isLt
  change decode (0x81000000 + t.toNat * 524288 + d.toNat * 16384 + a.toNat * 512 + b.toNat * 16 + x.toNat) = _
  generalize hx : 0x81000000 + t.toNat * 524288 + d.toNat * 16384 + a.toNat * 512 + b.toNat * 16 + x.toNat = wd
  refine decode_of_raw (m := 32) (by omega) (by decide) (by decide) ?_ hw
  have hm : wd / 67108864 % 64 = 32 := by omega
  simp only [rawDecode, hm, decodeMajor20]
  iterate 4 rw [if_neg (by omega)]
  rw [if_pos (by omega), fld_eq t _ _ (by omega), fld_eq d _ _ (by omega), fld_eq a _ _ (by omega), fld_eq b _ _ (by omega), fld_eq x _ _ (by omega)]

theorem vmaxF (t : BitVec 3) (d : BitVec 5) (a : BitVec 5) (b : BitVec 5) (x : BitVec 4) : Statement (.vmaxF t d a b x) := by
  intro _ hw
  have h0 := t.isLt; have h1 := d.isLt; have h2 := a.isLt; have h3 := b.isLt; have h4 := x.isLt
  change decode (0x81400000 + t.toNat * 524288 + d.toNat * 16384 + a.toNat * 512 + b.toNat * 16 + x.toNat) = _
  generalize hx : 0x81400000 + t.toNat * 524288 + d.toNat * 16384 + a.toNat * 512 + b.toNat * 16 + x.toNat = wd
  refine decode_of_raw (m := 32) (by omega) (by decide) (by decide) ?_ hw
  have hm : wd / 67108864 % 64 = 32 := by omega
  simp only [rawDecode, hm, decodeMajor20]
  iterate 5 rw [if_neg (by omega)]
  rw [if_pos (by omega), fld_eq t _ _ (by omega), fld_eq d _ _ (by omega), fld_eq a _ _ (by omega), fld_eq b _ _ (by omega), fld_eq x _ _ (by omega)]

theorem vdiv (t : BitVec 3) (d : BitVec 5) (a : BitVec 5) (b : BitVec 5) (x : BitVec 4) : Statement (.vdiv t d a b x) := by
  intro _ hw
  have h0 := t.isLt; have h1 := d.isLt; have h2 := a.isLt; have h3 := b.isLt; have h4 := x.isLt
  change decode (0x81800000 + t.toNat * 524288 + d.toNat * 16384 + a.toNat * 512 + b.toNat * 16 + x.toNat) = _
  generalize hx : 0x81800000 + t.toNat * 524288 + d.toNat * 16384 + a.toNat * 512 + b.toNat * 16 + x.toNat = wd
  refine decode_of_raw (m := 32) (by omega) (by decide) (by decide) ?_ hw
  have hm : wd / 67108864 % 64 = 32 := by omega
  simp only [rawDecode, hm, decodeMajor20]
  iterate 6 rw [if_neg (by omega)]
  rw [if_pos (by omega), fld_eq t _ _ (by omega), fld_eq d _ _ (by omega), fld_eq a _ _ (by omega), fld_eq b _ _ (by omega), fld_eq x _ _ (by omega)]

theorem vsqrt (t : BitVec 3) (d : BitVec 5) (a : BitVec 5) (x : BitVec 4) : Statement (.vsqrt t d a x) := by
  intro _ hw
  have h0 := t.isLt; have h1 := d.isLt; have h2 := a.isLt; have h3 := x.isLt
  change decode (0x81C00000 + t.toNat * 524288 + d.toNat * 16384 + a.toNat * 512 + x.toNat) = _
  generalize hx : 0x81C00000 + t.toNat * 524288 + d.toNat * 16384 + a.toNat * 512 + x.toNat = wd
  refine decode_of_raw (m := 32) (by omega) (by decide) (by decide) ?_ hw
  have hm : wd / 67108864 % 64 = 32 := by omega
  simp only [rawDecode, hm, decodeMajor20]
  iterate 7 rw [if_neg (by omega)]
  rw [if_pos (by omega), fld_eq t _ _ (by omega), fld_eq d _ _ (by omega), fld_eq a _ _ (by omega), fld_eq x _ _ (by omega)]

theorem vabsF (t : BitVec 3) (d : BitVec 5) (a : BitVec 5) (x : BitVec 4) : Statement (.vabsF t d a x) := by
  intro _ hw
  have h0 := t.isLt; have h1 := d.isLt; have h2 := a.isLt; have h3 := x.isLt
  change decode (0x82000000 + t.toNat * 524288 + d.toNat * 16384 + a.toNat * 512 + x.toNat) = _
  generalize hx : 0x82000000 + t.toNat * 524288 + d.toNat * 16384 + a.toNat * 512 + x.toNat = wd
  refine decode_of_raw (m := 32) (by omega) (by decide) (by decide) ?_ hw
  have hm : wd / 67108864 % 64 = 32 := by omega
  simp only [rawDecode, hm, decodeMajor20]
  iterate 8 rw [if_neg (by omega)]
  rw [if_pos (by omega), fld_eq t _ _ (by omega), fld_eq d _ _ (by omega), fld_eq a _ _ (by omega), fld_eq x _ _ (by omega)]

theorem vaddI (t : BitVec 3) (d : BitVec 5) (a : BitVec 5) (b : BitVec 5) (x : BitVec 4) : Statement (.vaddI t d a b x) := by
  intro _ hw
  have h0 := t.isLt; have h1 := d.isLt; have h2 := a.isLt; have h3 := b.isLt; have h4 := x.isLt
  change decode (0x84000000 + t.toNat * 524288 + d.toNat * 16384 + a.toNat * 512 + b.toNat * 16 + x.toNat) = _
  generalize hx : 0x84000000 + t.toNat * 524288 + d.toNat * 16384 + a.toNat * 512 + b.toNat * 16 + x.toNat = wd
  refine decode_of_raw (m := 33) (by omega) (by decide) (by decide) ?_ hw
  have hm : wd / 67108864 % 64 = 33 := by omega
  simp only [rawDecode, hm, decodeMajor21]
  rw [if_pos (by omega), fld_eq t _ _ (by omega), fld_eq d _ _ (by omega), fld_eq a _ _ (by omega), fld_eq b _ _ (by omega), fld_eq x _ _ (by omega)]

theorem vsubI (t : BitVec 3) (d : BitVec 5) (a : BitVec 5) (b : BitVec 5) (x : BitVec 4) : Statement (.vsubI t d a b x) := by
  intro _ hw
  have h0 := t.isLt; have h1 := d.isLt; have h2 := a.isLt; have h3 := b.isLt; have h4 := x.isLt
  change decode (0x84400000 + t.toNat * 524288 + d.toNat * 16384 + a.toNat * 512 + b.toNat * 16 + x.toNat) = _
  generalize hx : 0x84400000 + t.toNat * 524288 + d.toNat * 16384 + a.toNat * 512 + b.toNat * 16 + x.toNat = wd
  refine decode_of_raw (m := 33) (by omega) (by decide) (by decide) ?_ hw
  have hm : wd / 67108864 % 64 = 33 := by omega
  simp only [rawDecode, hm, decodeMajor21]
  iterate 1 rw [if_neg (by omega)]
  rw [if_pos (by omega), fld_eq t _ _ (by omega), fld_eq d _ _ (by omega), fld_eq a _ _ (by omega), fld_eq b _ _ (by omega), fld_eq x _ _ (by omega)]

theorem vmulI (t : BitVec 3) (d : BitVec 5) (a : BitVec 5) (b : BitVec 5) (x : BitVec 4) : Statement (.vmulI t d a b x) := by
  intro _ hw
  have h0 := t.isLt; have h1 := d.isLt; have h2 := a.isLt; have h3 := b.isLt; have h4 := x.isLt
  change decode (0x84800000 + t.toNat * 524288 + d.toNat * 16384 + a.toNat * 512 + b.toNat * 16 + x.toNat) = _
  generalize hx : 0x84800000 + t.toNat * 524288 + d.toNat * 16384 + a.toNat * 512 + b.toNat * 16 + x.toNat = wd
  refine decode_of_raw (m := 33) (by omega) (by decide) (by decide) ?_ hw
  have hm : wd / 67108864 % 64 = 33 := by omega
  simp only [rawDecode, hm, decodeMajor21]
  iterate 2 rw [if_neg (by omega)]
  rw [if_pos (by omega), fld_eq t _ _ (by omega), fld_eq d _ _ (by omega), fld_eq a _ _ (by omega), fld_eq b _ _ (by omega), fld_eq x _ _ (by omega)]

theorem vmulh (t : BitVec 3) (d : BitVec 5) (a : BitVec 5) (b : BitVec 5) (x : BitVec 4) : Statement (.vmulh t d a b x) := by
  intro _ hw
  have h0 := t.isLt; have h1 := d.isLt; have h2 := a.isLt; have h3 := b.isLt; have h4 := x.isLt
  change decode (0x84C00000 + t.toNat * 524288 + d.toNat * 16384 + a.toNat * 512 + b.toNat * 16 + x.toNat) = _
  generalize hx : 0x84C00000 + t.toNat * 524288 + d.toNat * 16384 + a.toNat * 512 + b.toNat * 16 + x.toNat = wd
  refine decode_of_raw (m := 33) (by omega) (by decide) (by decide) ?_ hw
  have hm : wd / 67108864 % 64 = 33 := by omega
  simp only [rawDecode, hm, decodeMajor21]
  iterate 3 rw [if_neg (by omega)]
  rw [if_pos (by omega), fld_eq t _ _ (by omega), fld_eq d _ _ (by omega), fld_eq a _ _ (by omega), fld_eq b _ _ (by omega), fld_eq x _ _ (by omega)]

theorem vminI (t : BitVec 3) (d : BitVec 5) (a : BitVec 5) (b : BitVec 5) (x : BitVec 4) : Statement (.vminI t d a b x) := by
  intro _ hw
  have h0 := t.isLt; have h1 := d.isLt; have h2 := a.isLt; have h3 := b.isLt; have h4 := x.isLt
  change decode (0x85000000 + t.toNat * 524288 + d.toNat * 16384 + a.toNat * 512 + b.toNat * 16 + x.toNat) = _
  generalize hx : 0x85000000 + t.toNat * 524288 + d.toNat * 16384 + a.toNat * 512 + b.toNat * 16 + x.toNat = wd
  refine decode_of_raw (m := 33) (by omega) (by decide) (by decide) ?_ hw
  have hm : wd / 67108864 % 64 = 33 := by omega
  simp only [rawDecode, hm, decodeMajor21]
  iterate 4 rw [if_neg (by omega)]
  rw [if_pos (by omega), fld_eq t _ _ (by omega), fld_eq d _ _ (by omega), fld_eq a _ _ (by omega), fld_eq b _ _ (by omega), fld_eq x _ _ (by omega)]

theorem vmaxI (t : BitVec 3) (d : BitVec 5) (a : BitVec 5) (b : BitVec 5) (x : BitVec 4) : Statement (.vmaxI t d a b x) := by
  intro _ hw
  have h0 := t.isLt; have h1 := d.isLt; have h2 := a.isLt; have h3 := b.isLt; have h4 := x.isLt
  change decode (0x85400000 + t.toNat * 524288 + d.toNat * 16384 + a.toNat * 512 + b.toNat * 16 + x.toNat) = _
  generalize hx : 0x85400000 + t.toNat * 524288 + d.toNat * 16384 + a.toNat * 512 + b.toNat * 16 + x.toNat = wd
  refine decode_of_raw (m := 33) (by omega) (by decide) (by decide) ?_ hw
  have hm : wd / 67108864 % 64 = 33 := by omega
  simp only [rawDecode, hm, decodeMajor21]
  iterate 5 rw [if_neg (by omega)]
  rw [if_pos (by omega), fld_eq t _ _ (by omega), fld_eq d _ _ (by omega), fld_eq a _ _ (by omega), fld_eq b _ _ (by omega), fld_eq x _ _ (by omega)]

theorem vabsI (t : BitVec 3) (d : BitVec 5) (a : BitVec 5) (x : BitVec 4) : Statement (.vabsI t d a x) := by
  intro _ hw
  have h0 := t.isLt; have h1 := d.isLt; have h2 := a.isLt; have h3 := x.isLt
  change decode (0x85800000 + t.toNat * 524288 + d.toNat * 16384 + a.toNat * 512 + x.toNat) = _
  generalize hx : 0x85800000 + t.toNat * 524288 + d.toNat * 16384 + a.toNat * 512 + x.toNat = wd
  refine decode_of_raw (m := 33) (by omega) (by decide) (by decide) ?_ hw
  have hm : wd / 67108864 % 64 = 33 := by omega
  simp only [rawDecode, hm, decodeMajor21]
  iterate 6 rw [if_neg (by omega)]
  rw [if_pos (by omega), fld_eq t _ _ (by omega), fld_eq d _ _ (by omega), fld_eq a _ _ (by omega), fld_eq x _ _ (by omega)]

theorem vand (t : BitVec 3) (d : BitVec 5) (a : BitVec 5) (b : BitVec 5) (x : BitVec 4) : Statement (.vand t d a b x) := by
  intro _ hw
  have h0 := t.isLt; have h1 := d.isLt; have h2 := a.isLt; have h3 := b.isLt; have h4 := x.isLt
  change decode (0x88000000 + t.toNat * 524288 + d.toNat * 16384 + a.toNat * 512 + b.toNat * 16 + x.toNat) = _
  generalize hx : 0x88000000 + t.toNat * 524288 + d.toNat * 16384 + a.toNat * 512 + b.toNat * 16 + x.toNat = wd
  refine decode_of_raw (m := 34) (by omega) (by decide) (by decide) ?_ hw
  have hm : wd / 67108864 % 64 = 34 := by omega
  simp only [rawDecode, hm, decodeMajor22]
  rw [if_pos (by omega), fld_eq t _ _ (by omega), fld_eq d _ _ (by omega), fld_eq a _ _ (by omega), fld_eq b _ _ (by omega), fld_eq x _ _ (by omega)]

theorem vor (t : BitVec 3) (d : BitVec 5) (a : BitVec 5) (b : BitVec 5) (x : BitVec 4) : Statement (.vor t d a b x) := by
  intro _ hw
  have h0 := t.isLt; have h1 := d.isLt; have h2 := a.isLt; have h3 := b.isLt; have h4 := x.isLt
  change decode (0x88400000 + t.toNat * 524288 + d.toNat * 16384 + a.toNat * 512 + b.toNat * 16 + x.toNat) = _
  generalize hx : 0x88400000 + t.toNat * 524288 + d.toNat * 16384 + a.toNat * 512 + b.toNat * 16 + x.toNat = wd
  refine decode_of_raw (m := 34) (by omega) (by decide) (by decide) ?_ hw
  have hm : wd / 67108864 % 64 = 34 := by omega
  simp only [rawDecode, hm, decodeMajor22]
  iterate 1 rw [if_neg (by omega)]
  rw [if_pos (by omega), fld_eq t _ _ (by omega), fld_eq d _ _ (by omega), fld_eq a _ _ (by omega), fld_eq b _ _ (by omega), fld_eq x _ _ (by omega)]

theorem vxor (t : BitVec 3) (d : BitVec 5) (a : BitVec 5) (b : BitVec 5) (x : BitVec 4) : Statement (.vxor t d a b x) := by
  intro _ hw
  have h0 := t.isLt; have h1 := d.isLt; have h2 := a.isLt; have h3 := b.isLt; have h4 := x.isLt
  change decode (0x88800000 + t.toNat * 524288 + d.toNat * 16384 + a.toNat * 512 + b.toNat * 16 + x.toNat) = _
  generalize hx : 0x88800000 + t.toNat * 524288 + d.toNat * 16384 + a.toNat * 512 + b.toNat * 16 + x.toNat = wd
  refine decode_of_raw (m := 34) (by omega) (by decide) (by decide) ?_ hw
  have hm : wd / 67108864 % 64 = 34 := by omega
  simp only [rawDecode, hm, decodeMajor22]
  iterate 2 rw [if_neg (by omega)]
  rw [if_pos (by omega), fld_eq t _ _ (by omega), fld_eq d _ _ (by omega), fld_eq a _ _ (by omega), fld_eq b _ _ (by omega), fld_eq x _ _ (by omega)]

theorem vshl (t : BitVec 3) (d : BitVec 5) (a : BitVec 5) (b : BitVec 5) (x : BitVec 4) : Statement (.vshl t d a b x) := by
  intro _ hw
  have h0 := t.isLt; have h1 := d.isLt; have h2 := a.isLt; have h3 := b.isLt; have h4 := x.isLt
  change decode (0x88C00000 + t.toNat * 524288 + d.toNat * 16384 + a.toNat * 512 + b.toNat * 16 + x.toNat) = _
  generalize hx : 0x88C00000 + t.toNat * 524288 + d.toNat * 16384 + a.toNat * 512 + b.toNat * 16 + x.toNat = wd
  refine decode_of_raw (m := 34) (by omega) (by decide) (by decide) ?_ hw
  have hm : wd / 67108864 % 64 = 34 := by omega
  simp only [rawDecode, hm, decodeMajor22]
  iterate 3 rw [if_neg (by omega)]
  rw [if_pos (by omega), fld_eq t _ _ (by omega), fld_eq d _ _ (by omega), fld_eq a _ _ (by omega), fld_eq b _ _ (by omega), fld_eq x _ _ (by omega)]

theorem vshr (t : BitVec 3) (d : BitVec 5) (a : BitVec 5) (b : BitVec 5) (x : BitVec 4) : Statement (.vshr t d a b x) := by
  intro _ hw
  have h0 := t.isLt; have h1 := d.isLt; have h2 := a.isLt; have h3 := b.isLt; have h4 := x.isLt
  change decode (0x89000000 + t.toNat * 524288 + d.toNat * 16384 + a.toNat * 512 + b.toNat * 16 + x.toNat) = _
  generalize hx : 0x89000000 + t.toNat * 524288 + d.toNat * 16384 + a.toNat * 512 + b.toNat * 16 + x.toNat = wd
  refine decode_of_raw (m := 34) (by omega) (by decide) (by decide) ?_ hw
  have hm : wd / 67108864 % 64 = 34 := by omega
  simp only [rawDecode, hm, decodeMajor22]
  iterate 4 rw [if_neg (by omega)]
  rw [if_pos (by omega), fld_eq t _ _ (by omega), fld_eq d _ _ (by omega), fld_eq a _ _ (by omega), fld_eq b _ _ (by omega), fld_eq x _ _ (by omega)]

theorem vshra (t : BitVec 3) (d : BitVec 5) (a : BitVec 5) (b : BitVec 5) (x : BitVec 4) : Statement (.vshra t d a b x) := by
  intro _ hw
  have h0 := t.isLt; have h1 := d.isLt; have h2 := a.isLt; have h3 := b.isLt; have h4 := x.isLt
  change decode (0x89400000 + t.toNat * 524288 + d.toNat * 16384 + a.toNat * 512 + b.toNat * 16 + x.toNat) = _
  generalize hx : 0x89400000 + t.toNat * 524288 + d.toNat * 16384 + a.toNat * 512 + b.toNat * 16 + x.toNat = wd
  refine decode_of_raw (m := 34) (by omega) (by decide) (by decide) ?_ hw
  have hm : wd / 67108864 % 64 = 34 := by omega
  simp only [rawDecode, hm, decodeMajor22]
  iterate 5 rw [if_neg (by omega)]
  rw [if_pos (by omega), fld_eq t _ _ (by omega), fld_eq d _ _ (by omega), fld_eq a _ _ (by omega), fld_eq b _ _ (by omega), fld_eq x _ _ (by omega)]

theorem vcmpeq (t : BitVec 3) (c : BitVec 1) (k : BitVec 3) (a : BitVec 5) (b : BitVec 5) (x : BitVec 4) : Statement (.vcmpeq t c k a b x) := by
  intro _ hw
  have h0 := t.isLt; have h1 := c.isLt; have h2 := k.isLt; have h3 := a.isLt; have h4 := b.isLt; have h5 := x.isLt
  change decode (0x8C000000 + t.toNat * 524288 + c.toNat * 131072 + k.toNat * 16384 + a.toNat * 512 + b.toNat * 16 + x.toNat) = _
  generalize hx : 0x8C000000 + t.toNat * 524288 + c.toNat * 131072 + k.toNat * 16384 + a.toNat * 512 + b.toNat * 16 + x.toNat = wd
  refine decode_of_raw (m := 35) (by omega) (by decide) (by decide) ?_ hw
  have hm : wd / 67108864 % 64 = 35 := by omega
  simp only [rawDecode, hm, decodeMajor23]
  rw [if_pos (by omega), fld_eq t _ _ (by omega), fld_eq c _ _ (by omega), fld_eq k _ _ (by omega), fld_eq a _ _ (by omega), fld_eq b _ _ (by omega), fld_eq x _ _ (by omega)]

theorem vcmpne (t : BitVec 3) (c : BitVec 1) (k : BitVec 3) (a : BitVec 5) (b : BitVec 5) (x : BitVec 4) : Statement (.vcmpne t c k a b x) := by
  intro _ hw
  have h0 := t.isLt; have h1 := c.isLt; have h2 := k.isLt; have h3 := a.isLt; have h4 := b.isLt; have h5 := x.isLt
  change decode (0x8C400000 + t.toNat * 524288 + c.toNat * 131072 + k.toNat * 16384 + a.toNat * 512 + b.toNat * 16 + x.toNat) = _
  generalize hx : 0x8C400000 + t.toNat * 524288 + c.toNat * 131072 + k.toNat * 16384 + a.toNat * 512 + b.toNat * 16 + x.toNat = wd
  refine decode_of_raw (m := 35) (by omega) (by decide) (by decide) ?_ hw
  have hm : wd / 67108864 % 64 = 35 := by omega
  simp only [rawDecode, hm, decodeMajor23]
  iterate 1 rw [if_neg (by omega)]
  rw [if_pos (by omega), fld_eq t _ _ (by omega), fld_eq c _ _ (by omega), fld_eq k _ _ (by omega), fld_eq a _ _ (by omega), fld_eq b _ _ (by omega), fld_eq x _ _ (by omega)]

theorem vcmplt (t : BitVec 3) (c : BitVec 1) (k : BitVec 3) (a : BitVec 5) (b : BitVec 5) (x : BitVec 4) : Statement (.vcmplt t c k a b x) := by
  intro _ hw
  have h0 := t.isLt; have h1 := c.isLt; have h2 := k.isLt; have h3 := a.isLt; have h4 := b.isLt; have h5 := x.isLt
  change decode (0x8C800000 + t.toNat * 524288 + c.toNat * 131072 + k.toNat * 16384 + a.toNat * 512 + b.toNat * 16 + x.toNat) = _
  generalize hx : 0x8C800000 + t.toNat * 524288 + c.toNat * 131072 + k.toNat * 16384 + a.toNat * 512 + b.toNat * 16 + x.toNat = wd
  refine decode_of_raw (m := 35) (by omega) (by decide) (by decide) ?_ hw
  have hm : wd / 67108864 % 64 = 35 := by omega
  simp only [rawDecode, hm, decodeMajor23]
  iterate 2 rw [if_neg (by omega)]
  rw [if_pos (by omega), fld_eq t _ _ (by omega), fld_eq c _ _ (by omega), fld_eq k _ _ (by omega), fld_eq a _ _ (by omega), fld_eq b _ _ (by omega), fld_eq x _ _ (by omega)]

theorem vcmple (t : BitVec 3) (c : BitVec 1) (k : BitVec 3) (a : BitVec 5) (b : BitVec 5) (x : BitVec 4) : Statement (.vcmple t c k a b x) := by
  intro _ hw
  have h0 := t.isLt; have h1 := c.isLt; have h2 := k.isLt; have h3 := a.isLt; have h4 := b.isLt; have h5 := x.isLt
  change decode (0x8CC00000 + t.toNat * 524288 + c.toNat * 131072 + k.toNat * 16384 + a.toNat * 512 + b.toNat * 16 + x.toNat) = _
  generalize hx : 0x8CC00000 + t.toNat * 524288 + c.toNat * 131072 + k.toNat * 16384 + a.toNat * 512 + b.toNat * 16 + x.toNat = wd
  refine decode_of_raw (m := 35) (by omega) (by decide) (by decide) ?_ hw
  have hm : wd / 67108864 % 64 = 35 := by omega
  simp only [rawDecode, hm, decodeMajor23]
  iterate 3 rw [if_neg (by omega)]
  rw [if_pos (by omega), fld_eq t _ _ (by omega), fld_eq c _ _ (by omega), fld_eq k _ _ (by omega), fld_eq a _ _ (by omega), fld_eq b _ _ (by omega), fld_eq x _ _ (by omega)]

theorem vsel (t : BitVec 3) (d : BitVec 5) (a : BitVec 5) (b : BitVec 5) (x : BitVec 4) : Statement (.vsel t d a b x) := by
  intro _ hw
  have h0 := t.isLt; have h1 := d.isLt; have h2 := a.isLt; have h3 := b.isLt; have h4 := x.isLt
  change decode (0x8D000000 + t.toNat * 524288 + d.toNat * 16384 + a.toNat * 512 + b.toNat * 16 + x.toNat) = _
  generalize hx : 0x8D000000 + t.toNat * 524288 + d.toNat * 16384 + a.toNat * 512 + b.toNat * 16 + x.toNat = wd
  refine decode_of_raw (m := 35) (by omega) (by decide) (by decide) ?_ hw
  have hm : wd / 67108864 % 64 = 35 := by omega
  simp only [rawDecode, hm, decodeMajor23]
  iterate 4 rw [if_neg (by omega)]
  rw [if_pos (by omega), fld_eq t _ _ (by omega), fld_eq d _ _ (by omega), fld_eq a _ _ (by omega), fld_eq b _ _ (by omega), fld_eq x _ _ (by omega)]

theorem kand (d : BitVec 3) (a : BitVec 3) (b : BitVec 3) (x : BitVec 4) : Statement (.kand d a b x) := by
  intro _ hw
  have h0 := d.isLt; have h1 := a.isLt; have h2 := b.isLt; have h3 := x.isLt
  change decode (0x8D400000 + d.toNat * 16384 + a.toNat * 512 + b.toNat * 16 + x.toNat) = _
  generalize hx : 0x8D400000 + d.toNat * 16384 + a.toNat * 512 + b.toNat * 16 + x.toNat = wd
  refine decode_of_raw (m := 35) (by omega) (by decide) (by decide) ?_ hw
  have hm : wd / 67108864 % 64 = 35 := by omega
  simp only [rawDecode, hm, decodeMajor23]
  iterate 5 rw [if_neg (by omega)]
  rw [if_pos (by omega), fld_eq d _ _ (by omega), fld_eq a _ _ (by omega), fld_eq b _ _ (by omega), fld_eq x _ _ (by omega)]

theorem kor (d : BitVec 3) (a : BitVec 3) (b : BitVec 3) (x : BitVec 4) : Statement (.kor d a b x) := by
  intro _ hw
  have h0 := d.isLt; have h1 := a.isLt; have h2 := b.isLt; have h3 := x.isLt
  change decode (0x8D800000 + d.toNat * 16384 + a.toNat * 512 + b.toNat * 16 + x.toNat) = _
  generalize hx : 0x8D800000 + d.toNat * 16384 + a.toNat * 512 + b.toNat * 16 + x.toNat = wd
  refine decode_of_raw (m := 35) (by omega) (by decide) (by decide) ?_ hw
  have hm : wd / 67108864 % 64 = 35 := by omega
  simp only [rawDecode, hm, decodeMajor23]
  iterate 6 rw [if_neg (by omega)]
  rw [if_pos (by omega), fld_eq d _ _ (by omega), fld_eq a _ _ (by omega), fld_eq b _ _ (by omega), fld_eq x _ _ (by omega)]

theorem kxor (d : BitVec 3) (a : BitVec 3) (b : BitVec 3) (x : BitVec 4) : Statement (.kxor d a b x) := by
  intro _ hw
  have h0 := d.isLt; have h1 := a.isLt; have h2 := b.isLt; have h3 := x.isLt
  change decode (0x8DC00000 + d.toNat * 16384 + a.toNat * 512 + b.toNat * 16 + x.toNat) = _
  generalize hx : 0x8DC00000 + d.toNat * 16384 + a.toNat * 512 + b.toNat * 16 + x.toNat = wd
  refine decode_of_raw (m := 35) (by omega) (by decide) (by decide) ?_ hw
  have hm : wd / 67108864 % 64 = 35 := by omega
  simp only [rawDecode, hm, decodeMajor23]
  iterate 7 rw [if_neg (by omega)]
  rw [if_pos (by omega), fld_eq d _ _ (by omega), fld_eq a _ _ (by omega), fld_eq b _ _ (by omega), fld_eq x _ _ (by omega)]

theorem knot (d : BitVec 3) (a : BitVec 3) (x : BitVec 4) : Statement (.knot d a x) := by
  intro _ hw
  have h0 := d.isLt; have h1 := a.isLt; have h2 := x.isLt
  change decode (0x8E000000 + d.toNat * 16384 + a.toNat * 512 + x.toNat) = _
  generalize hx : 0x8E000000 + d.toNat * 16384 + a.toNat * 512 + x.toNat = wd
  refine decode_of_raw (m := 35) (by omega) (by decide) (by decide) ?_ hw
  have hm : wd / 67108864 % 64 = 35 := by omega
  simp only [rawDecode, hm, decodeMajor23]
  iterate 8 rw [if_neg (by omega)]
  rw [if_pos (by omega), fld_eq d _ _ (by omega), fld_eq a _ _ (by omega), fld_eq x _ _ (by omega)]

theorem kpopc (d : BitVec 5) (a : BitVec 3) (x : BitVec 4) : Statement (.kpopc d a x) := by
  intro _ hw
  have h0 := d.isLt; have h1 := a.isLt; have h2 := x.isLt
  change decode (0x8E400000 + d.toNat * 16384 + a.toNat * 512 + x.toNat) = _
  generalize hx : 0x8E400000 + d.toNat * 16384 + a.toNat * 512 + x.toNat = wd
  refine decode_of_raw (m := 35) (by omega) (by decide) (by decide) ?_ hw
  have hm : wd / 67108864 % 64 = 35 := by omega
  simp only [rawDecode, hm, decodeMajor23]
  iterate 9 rw [if_neg (by omega)]
  rw [if_pos (by omega), fld_eq d _ _ (by omega), fld_eq a _ _ (by omega), fld_eq x _ _ (by omega)]

theorem vld (t : BitVec 3) (d : BitVec 5) (x : BitVec 4) : Statement (.vld t d x) := by
  intro _ hw
  have h0 := t.isLt; have h1 := d.isLt; have h2 := x.isLt
  change decode (0x90000000 + t.toNat * 524288 + d.toNat * 16384 + x.toNat) = _
  generalize hx : 0x90000000 + t.toNat * 524288 + d.toNat * 16384 + x.toNat = wd
  refine decode_of_raw (m := 36) (by omega) (by decide) (by decide) ?_ hw
  have hm : wd / 67108864 % 64 = 36 := by omega
  simp only [rawDecode, hm, decodeMajor24]
  rw [if_pos (by omega), fld_eq t _ _ (by omega), fld_eq d _ _ (by omega), fld_eq x _ _ (by omega)]

theorem vst (t : BitVec 3) (d : BitVec 5) (x : BitVec 4) : Statement (.vst t d x) := by
  intro _ hw
  have h0 := t.isLt; have h1 := d.isLt; have h2 := x.isLt
  change decode (0x90400000 + t.toNat * 524288 + d.toNat * 16384 + x.toNat) = _
  generalize hx : 0x90400000 + t.toNat * 524288 + d.toNat * 16384 + x.toNat = wd
  refine decode_of_raw (m := 36) (by omega) (by decide) (by decide) ?_ hw
  have hm : wd / 67108864 % 64 = 36 := by omega
  simp only [rawDecode, hm, decodeMajor24]
  iterate 1 rw [if_neg (by omega)]
  rw [if_pos (by omega), fld_eq t _ _ (by omega), fld_eq d _ _ (by omega), fld_eq x _ _ (by omega)]

theorem vlds (t : BitVec 3) (d : BitVec 5) (x : BitVec 4) : Statement (.vlds t d x) := by
  intro _ hw
  have h0 := t.isLt; have h1 := d.isLt; have h2 := x.isLt
  change decode (0x90800000 + t.toNat * 524288 + d.toNat * 16384 + x.toNat) = _
  generalize hx : 0x90800000 + t.toNat * 524288 + d.toNat * 16384 + x.toNat = wd
  refine decode_of_raw (m := 36) (by omega) (by decide) (by decide) ?_ hw
  have hm : wd / 67108864 % 64 = 36 := by omega
  simp only [rawDecode, hm, decodeMajor24]
  iterate 2 rw [if_neg (by omega)]
  rw [if_pos (by omega), fld_eq t _ _ (by omega), fld_eq d _ _ (by omega), fld_eq x _ _ (by omega)]

theorem vsts (t : BitVec 3) (d : BitVec 5) (x : BitVec 4) : Statement (.vsts t d x) := by
  intro _ hw
  have h0 := t.isLt; have h1 := d.isLt; have h2 := x.isLt
  change decode (0x90C00000 + t.toNat * 524288 + d.toNat * 16384 + x.toNat) = _
  generalize hx : 0x90C00000 + t.toNat * 524288 + d.toNat * 16384 + x.toNat = wd
  refine decode_of_raw (m := 36) (by omega) (by decide) (by decide) ?_ hw
  have hm : wd / 67108864 % 64 = 36 := by omega
  simp only [rawDecode, hm, decodeMajor24]
  iterate 3 rw [if_neg (by omega)]
  rw [if_pos (by omega), fld_eq t _ _ (by omega), fld_eq d _ _ (by omega), fld_eq x _ _ (by omega)]

theorem vgath (t : BitVec 3) (d : BitVec 5) (b : BitVec 5) (x : BitVec 4) : Statement (.vgath t d b x) := by
  intro _ hw
  have h0 := t.isLt; have h1 := d.isLt; have h2 := b.isLt; have h3 := x.isLt
  change decode (0x91000000 + t.toNat * 524288 + d.toNat * 16384 + b.toNat * 16 + x.toNat) = _
  generalize hx : 0x91000000 + t.toNat * 524288 + d.toNat * 16384 + b.toNat * 16 + x.toNat = wd
  refine decode_of_raw (m := 36) (by omega) (by decide) (by decide) ?_ hw
  have hm : wd / 67108864 % 64 = 36 := by omega
  simp only [rawDecode, hm, decodeMajor24]
  iterate 4 rw [if_neg (by omega)]
  rw [if_pos (by omega), fld_eq t _ _ (by omega), fld_eq d _ _ (by omega), fld_eq b _ _ (by omega), fld_eq x _ _ (by omega)]

theorem vscat (t : BitVec 3) (d : BitVec 5) (b : BitVec 5) (x : BitVec 4) : Statement (.vscat t d b x) := by
  intro _ hw
  have h0 := t.isLt; have h1 := d.isLt; have h2 := b.isLt; have h3 := x.isLt
  change decode (0x91400000 + t.toNat * 524288 + d.toNat * 16384 + b.toNat * 16 + x.toNat) = _
  generalize hx : 0x91400000 + t.toNat * 524288 + d.toNat * 16384 + b.toNat * 16 + x.toNat = wd
  refine decode_of_raw (m := 36) (by omega) (by decide) (by decide) ?_ hw
  have hm : wd / 67108864 % 64 = 36 := by omega
  simp only [rawDecode, hm, decodeMajor24]
  iterate 5 rw [if_neg (by omega)]
  rw [if_pos (by omega), fld_eq t _ _ (by omega), fld_eq d _ _ (by omega), fld_eq b _ _ (by omega), fld_eq x _ _ (by omega)]

theorem vbcast (t : BitVec 3) (d : BitVec 5) (x : BitVec 4) : Statement (.vbcast t d x) := by
  intro _ hw
  have h0 := t.isLt; have h1 := d.isLt; have h2 := x.isLt
  change decode (0x94000000 + t.toNat * 524288 + d.toNat * 16384 + x.toNat) = _
  generalize hx : 0x94000000 + t.toNat * 524288 + d.toNat * 16384 + x.toNat = wd
  refine decode_of_raw (m := 37) (by omega) (by decide) (by decide) ?_ hw
  have hm : wd / 67108864 % 64 = 37 := by omega
  simp only [rawDecode, hm, decodeMajor25]
  rw [if_pos (by omega), fld_eq t _ _ (by omega), fld_eq d _ _ (by omega), fld_eq x _ _ (by omega)]

theorem vperm (t : BitVec 3) (d : BitVec 5) (a : BitVec 5) (b : BitVec 5) (x : BitVec 4) : Statement (.vperm t d a b x) := by
  intro _ hw
  have h0 := t.isLt; have h1 := d.isLt; have h2 := a.isLt; have h3 := b.isLt; have h4 := x.isLt
  change decode (0x94400000 + t.toNat * 524288 + d.toNat * 16384 + a.toNat * 512 + b.toNat * 16 + x.toNat) = _
  generalize hx : 0x94400000 + t.toNat * 524288 + d.toNat * 16384 + a.toNat * 512 + b.toNat * 16 + x.toNat = wd
  refine decode_of_raw (m := 37) (by omega) (by decide) (by decide) ?_ hw
  have hm : wd / 67108864 % 64 = 37 := by omega
  simp only [rawDecode, hm, decodeMajor25]
  iterate 1 rw [if_neg (by omega)]
  rw [if_pos (by omega), fld_eq t _ _ (by omega), fld_eq d _ _ (by omega), fld_eq a _ _ (by omega), fld_eq b _ _ (by omega), fld_eq x _ _ (by omega)]

theorem vslide (t : BitVec 3) (d : BitVec 5) (a : BitVec 5) (x : BitVec 4) : Statement (.vslide t d a x) := by
  intro _ hw
  have h0 := t.isLt; have h1 := d.isLt; have h2 := a.isLt; have h3 := x.isLt
  change decode (0x94800000 + t.toNat * 524288 + d.toNat * 16384 + a.toNat * 512 + x.toNat) = _
  generalize hx : 0x94800000 + t.toNat * 524288 + d.toNat * 16384 + a.toNat * 512 + x.toNat = wd
  refine decode_of_raw (m := 37) (by omega) (by decide) (by decide) ?_ hw
  have hm : wd / 67108864 % 64 = 37 := by omega
  simp only [rawDecode, hm, decodeMajor25]
  iterate 2 rw [if_neg (by omega)]
  rw [if_pos (by omega), fld_eq t _ _ (by omega), fld_eq d _ _ (by omega), fld_eq a _ _ (by omega), fld_eq x _ _ (by omega)]

theorem vred (t : BitVec 3) (d : BitVec 5) (a : BitVec 5) (c : BitVec 1) (o : BitVec 2) (x : BitVec 4) : Statement (.vred t d a c o x) := by
  intro _ hw
  have h0 := t.isLt; have h1 := d.isLt; have h2 := a.isLt; have h3 := c.isLt; have h4 := o.isLt; have h5 := x.isLt
  change decode (0x94C00000 + t.toNat * 524288 + d.toNat * 16384 + a.toNat * 512 + c.toNat * 128 + o.toNat * 16 + x.toNat) = _
  generalize hx : 0x94C00000 + t.toNat * 524288 + d.toNat * 16384 + a.toNat * 512 + c.toNat * 128 + o.toNat * 16 + x.toNat = wd
  refine decode_of_raw (m := 37) (by omega) (by decide) (by decide) ?_ hw
  have hm : wd / 67108864 % 64 = 37 := by omega
  simp only [rawDecode, hm, decodeMajor25]
  iterate 3 rw [if_neg (by omega)]
  rw [if_pos (by omega), fld_eq t _ _ (by omega), fld_eq d _ _ (by omega), fld_eq a _ _ (by omega), fld_eq c _ _ (by omega), fld_eq o _ _ (by omega), fld_eq x _ _ (by omega)]

theorem vmovx (t : BitVec 3) (d : BitVec 5) (a : BitVec 5) (x : BitVec 4) : Statement (.vmovx t d a x) := by
  intro _ hw
  have h0 := t.isLt; have h1 := d.isLt; have h2 := a.isLt; have h3 := x.isLt
  change decode (0x95000000 + t.toNat * 524288 + d.toNat * 16384 + a.toNat * 512 + x.toNat) = _
  generalize hx : 0x95000000 + t.toNat * 524288 + d.toNat * 16384 + a.toNat * 512 + x.toNat = wd
  refine decode_of_raw (m := 37) (by omega) (by decide) (by decide) ?_ hw
  have hm : wd / 67108864 % 64 = 37 := by omega
  simp only [rawDecode, hm, decodeMajor25]
  iterate 4 rw [if_neg (by omega)]
  rw [if_pos (by omega), fld_eq t _ _ (by omega), fld_eq d _ _ (by omega), fld_eq a _ _ (by omega), fld_eq x _ _ (by omega)]

theorem vidx (t : BitVec 3) (d : BitVec 5) (x : BitVec 4) : Statement (.vidx t d x) := by
  intro _ hw
  have h0 := t.isLt; have h1 := d.isLt; have h2 := x.isLt
  change decode (0x95400000 + t.toNat * 524288 + d.toNat * 16384 + x.toNat) = _
  generalize hx : 0x95400000 + t.toNat * 524288 + d.toNat * 16384 + x.toNat = wd
  refine decode_of_raw (m := 37) (by omega) (by decide) (by decide) ?_ hw
  have hm : wd / 67108864 % 64 = 37 := by omega
  simp only [rawDecode, hm, decodeMajor25]
  iterate 5 rw [if_neg (by omega)]
  rw [if_pos (by omega), fld_eq t _ _ (by omega), fld_eq d _ _ (by omega), fld_eq x _ _ (by omega)]

theorem vcvt (t : BitVec 3) (d : BitVec 5) (a : BitVec 5) (j : BitVec 1) (i : BitVec 1) (s : BitVec 3) (x : BitVec 4) : Statement (.vcvt t d a j i s x) := by
  intro _ hw
  have h0 := t.isLt; have h1 := d.isLt; have h2 := a.isLt; have h3 := j.isLt; have h4 := i.isLt; have h5 := s.isLt; have h6 := x.isLt
  change decode (0x98000000 + t.toNat * 524288 + d.toNat * 16384 + a.toNat * 512 + j.toNat * 256 + i.toNat * 128 + s.toNat * 16 + x.toNat) = _
  generalize hx : 0x98000000 + t.toNat * 524288 + d.toNat * 16384 + a.toNat * 512 + j.toNat * 256 + i.toNat * 128 + s.toNat * 16 + x.toNat = wd
  refine decode_of_raw (m := 38) (by omega) (by decide) (by decide) ?_ hw
  have hm : wd / 67108864 % 64 = 38 := by omega
  simp only [rawDecode, hm, decodeMajor26]
  rw [if_pos (by omega), fld_eq t _ _ (by omega), fld_eq d _ _ (by omega), fld_eq a _ _ (by omega), fld_eq j _ _ (by omega), fld_eq i _ _ (by omega), fld_eq s _ _ (by omega), fld_eq x _ _ (by omega)]

theorem vqnt (t : BitVec 3) (d : BitVec 5) (a : BitVec 5) (b : BitVec 5) (x : BitVec 4) : Statement (.vqnt t d a b x) := by
  intro _ hw
  have h0 := t.isLt; have h1 := d.isLt; have h2 := a.isLt; have h3 := b.isLt; have h4 := x.isLt
  change decode (0x98400000 + t.toNat * 524288 + d.toNat * 16384 + a.toNat * 512 + b.toNat * 16 + x.toNat) = _
  generalize hx : 0x98400000 + t.toNat * 524288 + d.toNat * 16384 + a.toNat * 512 + b.toNat * 16 + x.toNat = wd
  refine decode_of_raw (m := 38) (by omega) (by decide) (by decide) ?_ hw
  have hm : wd / 67108864 % 64 = 38 := by omega
  simp only [rawDecode, hm, decodeMajor26]
  iterate 1 rw [if_neg (by omega)]
  rw [if_pos (by omega), fld_eq t _ _ (by omega), fld_eq d _ _ (by omega), fld_eq a _ _ (by omega), fld_eq b _ _ (by omega), fld_eq x _ _ (by omega)]

theorem vdqnt (t : BitVec 3) (d : BitVec 5) (a : BitVec 5) (b : BitVec 5) (x : BitVec 4) : Statement (.vdqnt t d a b x) := by
  intro _ hw
  have h0 := t.isLt; have h1 := d.isLt; have h2 := a.isLt; have h3 := b.isLt; have h4 := x.isLt
  change decode (0x98800000 + t.toNat * 524288 + d.toNat * 16384 + a.toNat * 512 + b.toNat * 16 + x.toNat) = _
  generalize hx : 0x98800000 + t.toNat * 524288 + d.toNat * 16384 + a.toNat * 512 + b.toNat * 16 + x.toNat = wd
  refine decode_of_raw (m := 38) (by omega) (by decide) (by decide) ?_ hw
  have hm : wd / 67108864 % 64 = 38 := by omega
  simp only [rawDecode, hm, decodeMajor26]
  iterate 2 rw [if_neg (by omega)]
  rw [if_pos (by omega), fld_eq t _ _ (by omega), fld_eq d _ _ (by omega), fld_eq a _ _ (by omega), fld_eq b _ _ (by omega), fld_eq x _ _ (by omega)]

theorem vsfu (t : BitVec 3) (d : BitVec 5) (a : BitVec 5) (f : BitVec 4) (x : BitVec 4) : Statement (.vsfu t d a f x) := by
  intro _ hw
  have h0 := t.isLt; have h1 := d.isLt; have h2 := a.isLt; have h3 := f.isLt; have h4 := x.isLt
  change decode (0x98C00000 + t.toNat * 524288 + d.toNat * 16384 + a.toNat * 512 + f.toNat * 16 + x.toNat) = _
  generalize hx : 0x98C00000 + t.toNat * 524288 + d.toNat * 16384 + a.toNat * 512 + f.toNat * 16 + x.toNat = wd
  refine decode_of_raw (m := 38) (by omega) (by decide) (by decide) ?_ hw
  have hm : wd / 67108864 % 64 = 38 := by omega
  simp only [rawDecode, hm, decodeMajor26]
  iterate 3 rw [if_neg (by omega)]
  rw [if_pos (by omega), fld_eq t _ _ (by omega), fld_eq d _ _ (by omega), fld_eq a _ _ (by omega), fld_eq f _ _ (by omega), fld_eq x _ _ (by omega)]

theorem vclaim (d : BitVec 5) (x : BitVec 4) : Statement (.vclaim d x) := by
  intro _ hw
  have h0 := d.isLt; have h1 := x.isLt
  change decode (0x9C000000 + d.toNat * 16384 + x.toNat) = _
  generalize hx : 0x9C000000 + d.toNat * 16384 + x.toNat = wd
  refine decode_of_raw (m := 39) (by omega) (by decide) (by decide) ?_ hw
  have hm : wd / 67108864 % 64 = 39 := by omega
  simp only [rawDecode, hm, decodeMajor27]
  rw [if_pos (by omega), fld_eq d _ _ (by omega), fld_eq x _ _ (by omega)]

theorem vfence (x : BitVec 4) : Statement (.vfence x) := by
  intro _ hw
  have h0 := x.isLt
  change decode (0x9C400000 + x.toNat) = _
  generalize hx : 0x9C400000 + x.toNat = wd
  refine decode_of_raw (m := 39) (by omega) (by decide) (by decide) ?_ hw
  have hm : wd / 67108864 % 64 = 39 := by omega
  simp only [rawDecode, hm, decodeMajor27]
  iterate 1 rw [if_neg (by omega)]
  rw [if_pos (by omega), fld_eq x _ _ (by omega)]

theorem vstat (d : BitVec 5) (x : BitVec 4) : Statement (.vstat d x) := by
  intro _ hw
  have h0 := d.isLt; have h1 := x.isLt
  change decode (0x9C800000 + d.toNat * 16384 + x.toNat) = _
  generalize hx : 0x9C800000 + d.toNat * 16384 + x.toNat = wd
  refine decode_of_raw (m := 39) (by omega) (by decide) (by decide) ?_ hw
  have hm : wd / 67108864 % 64 = 39 := by omega
  simp only [rawDecode, hm, decodeMajor27]
  iterate 2 rw [if_neg (by omega)]
  rw [if_pos (by omega), fld_eq d _ _ (by omega), fld_eq x _ _ (by omega)]

theorem vpopq (d : BitVec 5) (x : BitVec 4) : Statement (.vpopq d x) := by
  intro _ hw
  have h0 := d.isLt; have h1 := x.isLt
  change decode (0x9CC00000 + d.toNat * 16384 + x.toNat) = _
  generalize hx : 0x9CC00000 + d.toNat * 16384 + x.toNat = wd
  refine decode_of_raw (m := 39) (by omega) (by decide) (by decide) ?_ hw
  have hm : wd / 67108864 % 64 = 39 := by omega
  simp only [rawDecode, hm, decodeMajor27]
  iterate 3 rw [if_neg (by omega)]
  rw [if_pos (by omega), fld_eq d _ _ (by omega), fld_eq x _ _ (by omega)]

theorem illegalInsnWord (w : BitVec 32) : Statement (.illegalInsnWord w) := fun h _ => absurd h Bool.false_ne_true

theorem coldReset  : Statement (.coldReset) := fun h _ => absurd h Bool.false_ne_true

theorem moduleReset  : Statement (.moduleReset) := fun h _ => absurd h Bool.false_ne_true

theorem tenantReset (t : BitVec 4) : Statement (.tenantReset t) := fun h _ => absurd h Bool.false_ne_true

theorem powerRemoval  : Statement (.powerRemoval) := fun h _ => absurd h Bool.false_ne_true

theorem clusterClockGate (cluster : BitVec 8) : Statement (.clusterClockGate cluster) := fun h _ => absurd h Bool.false_ne_true

theorem a1Exit (cluster : BitVec 8) : Statement (.a1Exit cluster) := fun h _ => absurd h Bool.false_ne_true

theorem sleepEntry  : Statement (.sleepEntry) := fun h _ => absurd h Bool.false_ne_true

theorem wakeExitComplete  : Statement (.wakeExitComplete) := fun h _ => absurd h Bool.false_ne_true

theorem powerLimiterInterval (watts : Nat) : Statement (.powerLimiterInterval watts) := fun h _ => absurd h Bool.false_ne_true

theorem dltolWrite (v : BitVec 32) : Statement (.dltolWrite v) := fun h _ => absurd h Bool.false_ne_true

theorem tltolWrite (t : BitVec 4) (v : BitVec 32) : Statement (.tltolWrite t v) := fun h _ => absurd h Bool.false_ne_true

theorem registerWrite (space : RegSpace) (off : Nat) (size : Nat) (v : BitVec 64) : Statement (.registerWrite space off size v) := fun h _ => absurd h Bool.false_ne_true

theorem tackBoundary  : Statement (.tackBoundary) := fun h _ => absurd h Bool.false_ne_true

theorem flitReceive (spar : BitVec 3) (peer : BitVec 6) (flit : List (BitVec 8)) : Statement (.flitReceive spar peer flit) := fun h _ => absurd h Bool.false_ne_true

theorem lockTimeout  : Statement (.lockTimeout) := fun h _ => absurd h Bool.false_ne_true

theorem referencePllLockLoss  : Statement (.referencePllLockLoss) := fun h _ => absurd h Bool.false_ne_true

theorem grandmasterRelock  : Statement (.grandmasterRelock) := fun h _ => absurd h Bool.false_ne_true

theorem packetAssign (die : BitVec 2) : Statement (.packetAssign die) := fun h _ => absurd h Bool.false_ne_true

theorem relayForward (die : BitVec 2) (idx : Nat) : Statement (.relayForward die idx) := fun h _ => absurd h Bool.false_ne_true

theorem packetReceive (p : Packet) : Statement (.packetReceive p) := fun h _ => absurd h Bool.false_ne_true

theorem endToEndTimer (idx : Nat) : Statement (.endToEndTimer idx) := fun h _ => absurd h Bool.false_ne_true

theorem beginDrain  : Statement (.beginDrain) := fun h _ => absurd h Bool.false_ne_true

theorem arm  : Statement (.arm) := fun h _ => absurd h Bool.false_ne_true

theorem abandon  : Statement (.abandon) := fun h _ => absurd h Bool.false_ne_true

theorem goDark  : Statement (.goDark) := fun h _ => absurd h Bool.false_ne_true

theorem relockStart  : Statement (.relockStart) := fun h _ => absurd h Bool.false_ne_true

theorem relockComplete  : Statement (.relockComplete) := fun h _ => absurd h Bool.false_ne_true

theorem calendarSwitch  : Statement (.calendarSwitch) := fun h _ => absurd h Bool.false_ne_true

theorem routerPacketArrive (router : BitVec 8) (flit : MeshFlit) : Statement (.routerPacketArrive router flit) := fun h _ => absurd h Bool.false_ne_true

theorem butterflyCombine (die : BitVec 2) (i : Nat) (j : Nat) : Statement (.butterflyCombine die i j) := fun h _ => absurd h Bool.false_ne_true

theorem combinedReply (die : BitVec 2) (idx : Nat) : Statement (.combinedReply die idx) := fun h _ => absurd h Bool.false_ne_true

theorem splitLoadReply (core : Nat) (ctx : Nat) (idx : Nat) (reply : Reply) : Statement (.splitLoadReply core ctx idx reply) := fun h _ => absurd h Bool.false_ne_true

theorem messageDeliver (core : Nat) : Statement (.messageDeliver core) := fun h _ => absurd h Bool.false_ne_true

theorem messageResend (core : Nat) : Statement (.messageResend core) := fun h _ => absurd h Bool.false_ne_true

theorem killReceive (idx : Nat) (unit : KillUnit) : Statement (.killReceive idx unit) := fun h _ => absurd h Bool.false_ne_true

theorem killSweepEnd (idx : Nat) (router : BitVec 8) : Statement (.killSweepEnd idx router) := fun h _ => absurd h Bool.false_ne_true

theorem purgeConfirm (idx : Nat) : Statement (.purgeConfirm idx) := fun h _ => absurd h Bool.false_ne_true

theorem submission (t : BitVec 4) (page : BitVec 4) (off : BitVec 12) (bytes : List (BitVec 8)) : Statement (.submission t page off bytes) := fun h _ => absurd h Bool.false_ne_true

theorem submissionPageWrite (t : BitVec 4) (page : BitVec 4) : Statement (.submissionPageWrite t page) := fun h _ => absurd h Bool.false_ne_true

theorem submitLaunch (t : BitVec 4) (page : BitVec 4) : Statement (.submitLaunch t page) := fun h _ => absurd h Bool.false_ne_true

theorem submitEcadd (t : BitVec 4) (page : BitVec 4) : Statement (.submitEcadd t page) := fun h _ => absurd h Bool.false_ne_true

theorem submitEcarm (t : BitVec 4) (page : BitVec 4) : Statement (.submitEcarm t page) := fun h _ => absurd h Bool.false_ne_true

theorem submitNop (t : BitVec 4) (page : BitVec 4) : Statement (.submitNop t page) := fun h _ => absurd h Bool.false_ne_true

theorem launchEnd (t : BitVec 4) (ctxid : BitVec 32) : Statement (.launchEnd t ctxid) := fun h _ => absurd h Bool.false_ne_true

theorem cqheadWrite (t : BitVec 4) (page : BitVec 4) (v : BitVec 64) : Statement (.cqheadWrite t page v) := fun h _ => absurd h Bool.false_ne_true

theorem cqcfgWrite (t : BitVec 4) (page : BitVec 4) (base : Bool) (v : BitVec 64) : Statement (.cqcfgWrite t page base v) := fun h _ => absurd h Bool.false_ne_true

theorem ecincWrite (t : BitVec 4) (j : BitVec 12) (v : BitVec 64) : Statement (.ecincWrite t j v) := fun h _ => absurd h Bool.false_ne_true

theorem vfEnable (t : BitVec 4) : Statement (.vfEnable t) := fun h _ => absurd h Bool.false_ne_true

theorem vfDisable (t : BitVec 4) : Statement (.vfDisable t) := fun h _ => absurd h Bool.false_ne_true

theorem mbregWrite (svc : BitVec 4) (ring : BitVec 2) (v : BitVec 64) : Statement (.mbregWrite svc ring v) := fun h _ => absurd h Bool.false_ne_true

theorem release (svc : BitVec 4) : Statement (.release svc) := fun h _ => absurd h Bool.false_ne_true

theorem suspend (svc : BitVec 4) : Statement (.suspend svc) := fun h _ => absurd h Bool.false_ne_true

theorem resume (svc : BitVec 4) : Statement (.resume svc) := fun h _ => absurd h Bool.false_ne_true

theorem killremote (svc : BitVec 4) : Statement (.killremote svc) := fun h _ => absurd h Bool.false_ne_true

theorem ctrreset (svc : BitVec 4) : Statement (.ctrreset svc) := fun h _ => absurd h Bool.false_ne_true

theorem fabsend (svc : BitVec 4) : Statement (.fabsend svc) := fun h _ => absurd h Bool.false_ne_true

theorem mappte (svc : BitVec 4) : Statement (.mappte svc) := fun h _ => absurd h Bool.false_ne_true

theorem frattr (svc : BitVec 4) : Statement (.frattr svc) := fun h _ => absurd h Bool.false_ne_true

theorem segload (svc : BitVec 4) : Statement (.segload svc) := fun h _ => absurd h Bool.false_ne_true

theorem quote (svc : BitVec 4) : Statement (.quote svc) := fun h _ => absurd h Bool.false_ne_true

theorem tencfg (svc : BitVec 4) : Statement (.tencfg svc) := fun h _ => absurd h Bool.false_ne_true

theorem trectWrite (t : BitVec 4) (v : BitVec 64) : Statement (.trectWrite t v) := fun h _ => absurd h Bool.false_ne_true

theorem tecrWrite (t : BitVec 4) (v : BitVec 64) : Statement (.tecrWrite t v) := fun h _ => absurd h Bool.false_ne_true

theorem tsubcfgWrite (t : BitVec 4) (v : BitVec 64) : Statement (.tsubcfgWrite t v) := fun h _ => absurd h Bool.false_ne_true

theorem testrWrite (t : BitVec 4) (v : BitVec 64) : Statement (.testrWrite t v) := fun h _ => absurd h Bool.false_ne_true

theorem tfwinWrite (t : BitVec 4) (v : BitVec 64) : Statement (.tfwinWrite t v) := fun h _ => absurd h Bool.false_ne_true

theorem claim  : Statement (.claim) := fun h _ => absurd h Bool.false_ne_true

theorem claimReceive (c : Claim) : Statement (.claimReceive c) := fun h _ => absurd h Bool.false_ne_true

theorem manifestReceive (bytes : List (BitVec 8)) : Statement (.manifestReceive bytes) := fun h _ => absurd h Bool.false_ne_true

theorem chunkReceive (src : BitVec 6) (idx : Nat) (bytes : List (BitVec 8)) : Statement (.chunkReceive src idx bytes) := fun h _ => absurd h Bool.false_ne_true

theorem heartbeat  : Statement (.heartbeat) := fun h _ => absurd h Bool.false_ne_true

theorem leaderWatchdog  : Statement (.leaderWatchdog) := fun h _ => absurd h Bool.false_ne_true

theorem launchPlace (far : Option LaunchShare) : Statement (.launchPlace far) := fun h _ => absurd h Bool.false_ne_true

theorem preemptVictim  : Statement (.preemptVictim) := fun h _ => absurd h Bool.false_ne_true

theorem prectlWrite (core : Nat) (ctx : Nat) (v : BitVec 64) : Statement (.prectlWrite core ctx v) := fun h _ => absurd h Bool.false_ne_true

theorem threadResume (core : Nat) : Statement (.threadResume core) := fun h _ => absurd h Bool.false_ne_true

theorem contRecordArrive (idx : Nat) : Statement (.contRecordArrive idx) := fun h _ => absurd h Bool.false_ne_true

theorem continuationStart (cluster : BitVec 8) : Statement (.continuationStart cluster) := fun h _ => absurd h Bool.false_ne_true

theorem vectorPassBind (octet : BitVec 9) : Statement (.vectorPassBind octet) := fun h _ => absurd h Bool.false_ne_true

theorem vectorPassComplete (core : Nat) : Statement (.vectorPassComplete core) := fun h _ => absurd h Bool.false_ne_true

theorem pcSample (core : Nat) : Statement (.pcSample core) := fun h _ => absurd h Bool.false_ne_true

theorem counterRotate (cluster : BitVec 8) : Statement (.counterRotate cluster) := fun h _ => absurd h Bool.false_ne_true

theorem smpcfgWrite (t : BitVec 4) (v : BitVec 64) : Statement (.smpcfgWrite t v) := fun h _ => absurd h Bool.false_ne_true

theorem tableWalkComplete (cluster : Nat) (idx : Nat) : Statement (.tableWalkComplete cluster idx) := fun h _ => absurd h Bool.false_ne_true

theorem faultEntryWrite (t : BitVec 4) : Statement (.faultEntryWrite t) := fun h _ => absurd h Bool.false_ne_true

theorem storeQueueDrain (core : Nat) (ctx : Nat) : Statement (.storeQueueDrain core ctx) := fun h _ => absurd h Bool.false_ne_true

theorem portLineDrain (cluster : BitVec 8) (idx : Nat) : Statement (.portLineDrain cluster idx) := fun h _ => absurd h Bool.false_ne_true

theorem versionUnitRetry (core : Nat) (ctx : Nat) : Statement (.versionUnitRetry core ctx) := fun h _ => absurd h Bool.false_ne_true

theorem remoteWaiterRetry (idx : Nat) : Statement (.remoteWaiterRetry idx) := fun h _ => absurd h Bool.false_ne_true

theorem hbmUncorrectable (pa : Nat) : Statement (.hbmUncorrectable pa) := fun h _ => absurd h Bool.false_ne_true

theorem asyncCauseTake (core : Nat) (ctx : Nat) : Statement (.asyncCauseTake core ctx) := fun h _ => absurd h Bool.false_ne_true

theorem trapMessageForward (core : Nat) : Statement (.trapMessageForward core) := fun h _ => absurd h Bool.false_ne_true

theorem trapMessageTake (core : Nat) : Statement (.trapMessageTake core) := fun h _ => absurd h Bool.false_ne_true

theorem chreplyWrite (core : Nat) (ctx : Nat) (v : BitVec 64) : Statement (.chreplyWrite core ctx v) := fun h _ => absurd h Bool.false_ne_true

theorem watchdog (core : Nat) (ctx : Nat) : Statement (.watchdog core ctx) := fun h _ => absurd h Bool.false_ne_true

theorem userInterruptTake (core : Nat) (ctx : Nat) : Statement (.userInterruptTake core ctx) := fun h _ => absurd h Bool.false_ne_true

theorem deathEvent (die : BitVec 2) : Statement (.deathEvent die) := fun h _ => absurd h Bool.false_ne_true

theorem arrivalPost  : Statement (.arrivalPost) := fun h _ => absurd h Bool.false_ne_true

theorem esthWrite (core : Nat) (ctx : Nat) (v : BitVec 64) : Statement (.esthWrite core ctx v) := fun h _ => absurd h Bool.false_ne_true

theorem matrixCommandTake (cluster : BitVec 8) : Statement (.matrixCommandTake cluster) := fun h _ => absurd h Bool.false_ne_true

theorem mmaAReadEnd (cluster : BitVec 8) : Statement (.mmaAReadEnd cluster) := fun h _ => absurd h Bool.false_ne_true

theorem matrixCommandComplete (cluster : BitVec 8) : Statement (.matrixCommandComplete cluster) := fun h _ => absurd h Bool.false_ne_true

theorem wbloadComplete (cluster : BitVec 8) : Statement (.wbloadComplete cluster) := fun h _ => absurd h Bool.false_ne_true

theorem copyCommandComplete (core : Nat) (tag : BitVec 16) (host : List Byte) : Statement (.copyCommandComplete core tag host) := fun h _ => absurd h Bool.false_ne_true

theorem gsendOpen (o : GraphOpen) : Statement (.gsendOpen o) := fun h _ => absurd h Bool.false_ne_true

theorem gsendObject (o : GraphObject) : Statement (.gsendObject o) := fun h _ => absurd h Bool.false_ne_true

theorem gsendFinish (f : GraphFinish) : Statement (.gsendFinish f) := fun h _ => absurd h Bool.false_ne_true

theorem graphWalkComplete (core : Nat) (ctx : Nat) : Statement (.graphWalkComplete core ctx) := fun h _ => absurd h Bool.false_ne_true

theorem amodReplyStore (core : Nat) (ctx : Nat) : Statement (.amodReplyStore core ctx) := fun h _ => absurd h Bool.false_ne_true

theorem prevecWrite (v : BitVec 64) : Statement (.prevecWrite v) := fun h _ => absurd h Bool.false_ne_true

theorem msixVectorUnmask (t : BitVec 4) (vec : BitVec 5) : Statement (.msixVectorUnmask t vec) := fun h _ => absurd h Bool.false_ne_true

end Sys2Proof.Laws.RoundTrip
end

