-- ==== Sys2Proof/Safety.lean ====
section
/-! DEFINITION. The terms of the claims: what an instruction may change, the invariant that every step keeps, and when a
step can stop. -/

namespace Sys2Proof.Machine

open Sys2Proof

/-! ## Frames -/

/-- Nothing changes but the issuing context and the virtual counters of its core: every other context, every other
register of every core, and everything else of the module, each byte of memory among it, is as before. -/
def OnlyMe (s t : State) : Prop :=
  t = { s with cores := t.cores }
  ∧ (∀ k, t.peek k = s.peek k)
  ∧ (∀ c x, ¬ (c = s.core ∧ x = s.ctx) → t.ctxAt c x = s.ctxAt c x)
  ∧ ∀ c, t.coreAt c = { s.coreAt c with ctxs := (t.coreAt c).ctxs, vcnt := ((s.countOn s.core 2 1).coreAt c).vcnt }

/-- An instruction of the issuing context retires: its context is `x`, at the next instruction and with no wait left,
and nothing else changes but the count of retired instructions. -/
def RetiresAs (s t : State) (x : Ctx) : Prop :=
  OnlyMe s t ∧ t.me = { x with pc := s.me.pc + 4, stall := 0, grant := none, joining := false }

/-- An instruction completes by writing `v` to register `d` and nothing else (a write to x0 is discarded). -/
def Writes (i : Instr) (s : State) (d : BitVec 5) (v : W64) : Prop :=
  ∃ t, exec i s = .next t ∧ RetiresAs s t (s.me.wr d v)

/-- An instruction completes by going on at `p`, its context otherwise `x`. -/
def JumpsAs (i : Instr) (s : State) (x : Ctx) (p : W64) : Prop :=
  ∃ t, exec i s = .next t ∧ OnlyMe s t ∧ t.me = { x with pc := p, stall := 0, grant := none, joining := false }

/-- An instruction takes an exception and has no other effect. -/
def Traps (i : Instr) (s : State) (cause : Nat) (v : W64) : Prop := exec i s = .next (s.trap cause v)

/-- An instruction waits with a stall reason: its context stays where it is and nothing else changes. -/
def Waits (i : Instr) (s : State) (reason : Nat) : Prop := exec i s = .next (s.setMe { s.me with stall := reason })

/-- How a scalar floating-point instruction ends (14 R260) with the result code and flags `r` and `n` draws taken: the
flags are ORed into STATUS.FLAGS and RNDCTR keeps the draws; with no enabled flag among them the code is written to
register `d` and the instruction completes, else FP_EXC is taken with the raised flags as TVAL and the register stays. -/
def FpEnds (i : Instr) (s : State) (d : BitVec 5) (r : Nat × Nat) (n : Nat) : Prop :=
  let x : Ctx := { s.me with rndctr := s.me.rndctr + BitVec.ofNat 64 n,
                             status := putBits s.me.status 11 5 (s.me.flags ||| r.2) }
  (r.2 &&& s.me.en = 0 → ∃ t, exec i s = .next t ∧ RetiresAs s t (x.wr d (BitVec.ofNat 64 r.1)))
  ∧ (r.2 &&& s.me.en ≠ 0 → exec i s = .next ((s.setMe x).trap 0x15 (BitVec.ofNat 64 r.2)))

/-! ## The invariant -/

/-- The invariant of the module: its memory is in canonical form (keys strictly rising, no byte 0 listed). -/
def State.Inv (s : State) : Prop := Memory.wf s.mem = true

/-- The coming turn is COLD_RESET. -/
def State.powersUp (s : State) : Bool :=
  match s.nextTurn.1.event with
  | some i => Instr.isColdReset i
  | none => false

/-- The coming step answers a next state: the module has power, or is about to get it. -/
def State.runs (s : State) : Bool := ! s.power.off || s.powersUp

/-- A run of the machine is safe for `n` steps: none of them stops. -/
def Safe (n : Nat) (s : State) : Prop := ∃ t, Host.Core.run Sys2Proof.core n s = .next t

end Sys2Proof.Machine
end

