-- ==== Sys2Proof/Certificates/Slice0/Obligations.lean ====
section
/-! DEFINITION. The statements about this model. -/

open Sys2Proof Sys2Proof.Machine

/-- 12_formats_assembly.md R230, 09_traps_reliability.md R182: reading a scalar register after a write, the registers that
a write leaves alone, the discarded write to x0, and the bank that x24 to x31 name while STATUS.UI = 1. -/
def Obligations.RegisterFile : Prop :=
  ∀ (x : Ctx) (d r : BitVec 5) (v : W64),
    (x.wr d v).rd r = (if r = 0 then 0 else if r = d then v else x.rd r)
    ∧ x.wr 0 v = x
    ∧ x.wr d v = { x with x := (x.wr d v).x, shadow := (x.wr d v).shadow }
    ∧ (x.ui = true → 24 ≤ d.toNat → (x.wr d v).x = x.x ∧ (x.wr d v).shadow = Tab.set x.shadow d.toNat v)
    ∧ (x.ui = false ∨ d.toNat < 24 → (x.wr d v).shadow = x.shadow)

/-- 14_scalar_system_instructions.md R257, ops 0 to 8 and 29: each result over the integers, and the frame. -/
def Obligations.IntegerArithmetic : Prop :=
  ∀ (s : State) (d a b : BitVec 5),
    let x := s.rd a
    let y := s.rd b
    Writes (.add d a b) s d (BitVec.ofNat 64 (x.toNat + y.toNat))
    ∧ Writes (.sub d a b) s d (BitVec.ofInt 64 (x.toInt - y.toInt))
    ∧ Writes (.mul d a b) s d (BitVec.ofNat 64 (x.toNat * y.toNat))
    ∧ Writes (.mulh d a b) s d (BitVec.ofInt 64 (x.toInt * y.toInt / 2 ^ 64))
    ∧ Writes (.mulhn d a b) s d (BitVec.ofNat 64 (x.toNat * y.toNat / 2 ^ 64))
    ∧ Writes (.div d a b) s d (if y = 0 then BitVec.allOnes 64 else BitVec.ofInt 64 (x.toInt.tdiv y.toInt))
    ∧ Writes (.divn d a b) s d (if y = 0 then BitVec.allOnes 64 else BitVec.ofNat 64 (x.toNat / y.toNat))
    ∧ Writes (.rem d a b) s d (if y = 0 then x else BitVec.ofInt 64 (x.toInt.tmod y.toInt))
    ∧ Writes (.remn d a b) s d (if y = 0 then x else BitVec.ofNat 64 (x.toNat % y.toNat))
    ∧ Writes (.adds d a b) s d (BitVec.ofInt 64 (max (-2 ^ 63) (min (2 ^ 63 - 1) (x.toInt + y.toInt))))

/-- 14_scalar_system_instructions.md R257, ops 9 to 16, 27 and 28: each result bit by bit (bit i of 64), and the frame. -/
def Obligations.IntegerLogicAndShifts : Prop :=
  ∀ (s : State) (d a b : BitVec 5) (l : BitVec 6),
    let x := s.rd a
    let y := s.rd b
    let n := y.toNat % 64
    let bits := fun (v : W64) (f : Nat → Bool) => ∀ i, i < 64 → v.getLsbD i = f i
    (∃ v, Writes (.and d a b) s d v ∧ bits v (fun i => x.getLsbD i && y.getLsbD i))
    ∧ (∃ v, Writes (.or d a b) s d v ∧ bits v (fun i => x.getLsbD i || y.getLsbD i))
    ∧ (∃ v, Writes (.xor d a b) s d v ∧ bits v (fun i => x.getLsbD i != y.getLsbD i))
    ∧ (∃ v, Writes (.andn d a b) s d v ∧ bits v (fun i => x.getLsbD i && ! y.getLsbD i))
    ∧ (∃ v, Writes (.shl d a b) s d v ∧ bits v (fun i => decide (n ≤ i) && x.getLsbD (i - n)))
    ∧ (∃ v, Writes (.shr d a b) s d v ∧ bits v (fun i => decide (i + n < 64) && x.getLsbD (i + n)))
    ∧ (∃ v, Writes (.shra d a b) s d v ∧ bits v (fun i => x.getLsbD (min (i + n) 63)))
    ∧ (∃ v, Writes (.rotl d a b) s d v ∧ bits v (fun i => x.getLsbD ((i + 64 - n) % 64)))
    ∧ (∃ v, Writes (.ext d a b l) s d v ∧ bits v (fun i => decide (i ≤ l.toNat ∧ i + n < 64) && x.getLsbD (i + n)))
    ∧ (∃ v, Writes (.ins d a b l) s d v
        ∧ bits v (fun i => if n ≤ i ∧ i ≤ n + l.toNat then x.getLsbD (i - n) else (s.rd d).getLsbD i))

/-- 14_scalar_system_instructions.md R257, ops 17 to 26: each result, the counts by what the bits are, and the frame. -/
def Obligations.IntegerComparisons : Prop :=
  ∀ (s : State) (d a b c : BitVec 5),
    let x := s.rd a
    let y := s.rd b
    Writes (.min d a b) s d (BitVec.ofInt 64 (min x.toInt y.toInt))
    ∧ Writes (.max d a b) s d (BitVec.ofInt 64 (max x.toInt y.toInt))
    ∧ Writes (.minn d a b) s d (BitVec.ofNat 64 (min x.toNat y.toNat))
    ∧ Writes (.maxn d a b) s d (BitVec.ofNat 64 (max x.toNat y.toNat))
    ∧ Writes (.slt d a b) s d (if x.toInt < y.toInt then 1 else 0)
    ∧ Writes (.sltn d a b) s d (if x.toNat < y.toNat then 1 else 0)
    ∧ Writes (.sel d a b c) s d (if s.rd c ≠ 0 then x else y)
    ∧ (∃ n, n ≤ 64 ∧ Writes (.clz d a) s d (BitVec.ofNat 64 n)
        ∧ (∀ i, 64 - n ≤ i → x.getLsbD i = false) ∧ (n < 64 → x.getLsbD (63 - n) = true))
    ∧ (∃ n, n ≤ 64 ∧ Writes (.ctz d a) s d (BitVec.ofNat 64 n)
        ∧ (∀ i, i < n → x.getLsbD i = false) ∧ (n < 64 → x.getLsbD n = true))
    ∧ Writes (.popc d a) s d (BitVec.ofNat 64 ((List.range 64).countP (fun i => x.getLsbD i)))

/-- 14_scalar_system_instructions.md R258 and 12_formats_assembly.md R236, R237: immediates sign-extended or
zero-extended as the row says, the four shifts of SHI, and the 16-bit lane that MOVW writes. -/
def Obligations.Immediates : Prop :=
  ∀ (s : State) (d a : BitVec 5) (i : BitVec 16) (n : BitVec 6) (l : BitVec 2),
    let x := s.rd a
    Writes (.addi d a i) s d (BitVec.ofInt 64 (x.toInt + i.toInt))
    ∧ Writes (.andi d a i) s d (BitVec.ofNat 64 (x.toNat &&& i.toNat))
    ∧ Writes (.ori d a i) s d (BitVec.ofNat 64 (x.toNat ||| i.toNat))
    ∧ Writes (.xori d a i) s d (BitVec.ofNat 64 (x.toNat ^^^ i.toNat))
    ∧ Writes (.shi d a 0 n) s d (BitVec.ofNat 64 (x.toNat * 2 ^ n.toNat))
    ∧ Writes (.shi d a 1 n) s d (BitVec.ofNat 64 (x.toNat / 2 ^ n.toNat))
    ∧ Writes (.shi d a 2 n) s d (BitVec.ofInt 64 (x.toInt / 2 ^ n.toNat))
    ∧ (∃ v, Writes (.shi d a 3 n) s d v ∧ ∀ j, j < 64 → v.getLsbD j = x.getLsbD ((j + 64 - n.toNat) % 64))
    ∧ Writes (.slti d a i) s d (if x.toInt < i.toInt then 1 else 0)
    ∧ Writes (.sltni d a i) s d (if x.toNat < (BitVec.ofInt 64 i.toInt).toNat then 1 else 0)
    ∧ Writes (.lit d l i) s d (BitVec.ofNat 64 (i.toNat * 2 ^ (16 * l.toNat)))
    ∧ (∃ v, Writes (.litk d l i) s d v ∧ ∀ j, j < 64 → v.getLsbD j =
        (if 16 * l.toNat ≤ j ∧ j < 16 * l.toNat + 16 then i.getLsbD (j - 16 * l.toNat) else (s.rd d).getLsbD j))

/-- 14_scalar_system_instructions.md R265, R266 and 12_formats_assembly.md R232: conditional branches, JAL and JALR, and
a target that is no multiple of 4. -/
def Obligations.BranchesAndJumps : Prop :=
  ∀ (s : State) (d a b : BitVec 5) (o : BitVec 16) (j : BitVec 21),
    let x := s.rd a
    let y := s.rd b
    let transfers := fun (i : Instr) (k : Ctx) (t : W64) =>
      (t.toNat % 4 = 0 → JumpsAs i s k t) ∧ (t.toNat % 4 ≠ 0 → Traps i s 0x03 t)
    let branches := fun (i : Instr) (c : Prop) =>
      (c → transfers i s.me (s.me.pc + BitVec.ofInt 64 (4 * o.toInt))) ∧ (¬ c → JumpsAs i s s.me (s.me.pc + 4))
    branches (.beq a b o) (x = y)
    ∧ branches (.bne a b o) (x ≠ y)
    ∧ branches (.blt a b o) (x.toInt < y.toInt)
    ∧ branches (.bge a b o) (x.toInt ≥ y.toInt)
    ∧ branches (.bltn a b o) (x.toNat < y.toNat)
    ∧ branches (.bgen a b o) (x.toNat ≥ y.toNat)
    ∧ transfers (.jal d j) (s.me.wr d (s.me.pc + 4)) (s.me.pc + BitVec.ofInt 64 (4 * j.toInt))
    ∧ transfers (.jalr d a o) (s.me.wr d (s.me.pc + 4)) (x + BitVec.ofInt 64 o.toInt)

/-- 14_scalar_system_instructions.md R259 to R261: how each scalar floating-point instruction ends. `m` is the mode after
DYN is resolved, `w` the draw of R217 that SR takes. -/
def Obligations.ScalarFloat : Prop :=
  ∀ (s : State) (d a b : BitVec 5) (r : BitVec 3) (p : BitVec 1) (c t src : BitVec 2),
    let f := if p = 0 then fp32 else fp64
    let opnd := fun (g : BitVec 5) => if p = 0 then (s.rd g).toNat % 2 ^ 32 else (s.rd g).toNat
    let m := if r.toNat = 5 then s.me.rm else r.toNat
    let w := if m = 6 then srDraw (s.jobseedOf s.core) (BitVec.ofNat 64 (s.lcoreOf s.core)) s.me.rndctr else 0
    let n := if m = 6 then 1 else 0
    (r ≠ 7 →
      FpEnds (.fadd d a b r p) s d (f.add m w (opnd a) (opnd b)) n
      ∧ FpEnds (.fsub d a b r p) s d (f.sub m w (opnd a) (opnd b)) n
      ∧ FpEnds (.fmul d a b r p) s d (f.mul m w (opnd a) (opnd b)) n
      ∧ FpEnds (.fdiv d a b r p) s d (f.div m w (opnd a) (opnd b)) n
      ∧ FpEnds (.fsqrt d a r p) s d (f.sqrt m w (opnd a)) n
      ∧ FpEnds (.ffma d a b r p) s d (f.fma m w (opnd a) (opnd b) (opnd d)) n)
    ∧ FpEnds (.fmin d a b p) s d (f.minMax true (opnd a) (opnd b)) 0
    ∧ FpEnds (.fmax d a b p) s d (f.minMax false (opnd a) (opnd b)) 0
    ∧ FpEnds (.fcmp d a b c p) s d (b2n (f.cmp c.toNat (opnd a) (opnd b)).1, (f.cmp c.toNat (opnd a) (opnd b)).2) 0
    ∧ ((Instr.fcvt d a t src r).wf = true →
        FpEnds (.fcvt d a t src r) s d (cvtTarget t.toNat m w (cvtSource src.toNat (s.rd a))) n)

/-- 14_scalar_system_instructions.md R262: LD of plain bytes. `u` is the state once pool tiles are claimed (09 R186) and
partly overlapping stores have drained (08 R154). -/
def Obligations.LoadsOfPlainBytes : Prop :=
  ∀ (s : State) (d b : BitVec 5) (z : BitVec 3) (g : BitVec 1) (o : BitVec 12) (keys : List Nat),
    (Instr.ld d b z g o).wf = true →
    let nb := 2 ^ z.toNat
    s.resolve s.core s.ctx (s.rd b + BitVec.ofInt 64 o.toInt) nb false false = .bytes keys →
    s.accessFree keys = true →
    let u := (s.claimKeys keys).settle s.core s.ctx keys
    u.tainted keys = false →
    let n := ofLeBytes (u.loadBytes s.core s.ctx keys)
    let v : W64 := if g = 1 then BitVec.ofInt 64 (BitVec.ofNat (8 * nb) n).toInt else BitVec.ofNat 64 (n % 2 ^ (8 * nb))
    (∃ t : State, exec (.ld d b z g o) s = .next t ∧ RetiresAs u t (u.me.wr d v))
    ∧ ((∀ k ∈ keys, poolOf k = none) → s.me.storeq.any (fun e => e.partOf keys) = false → u = s)

/-- 08_memory_model.md R154, R150: which byte a load returns. -/
def Obligations.LoadsSeeOwnStores : Prop :=
  ∀ (s : State) (c x k : Nat) (q r : List StoreEnt) (e : StoreEnt),
    let covers := fun (f : StoreEnt) => f.key ≤ k ∧ k < f.key + f.bytes.length
    ((s.ctxAt c x).storeq = q ++ e :: r → covers e → (∀ f ∈ r, ¬ covers f) →
      s.loadBytes c x [k] = [nth e.bytes 0 (k - e.key)])
    ∧ ((∀ f ∈ (s.ctxAt c x).storeq, ¬ covers f) →
      s.loadBytes c x [k] = [if isArray c && isHbm k then s.portByte (clusterOf c) k else s.peek k]
      ∧ ((∀ l ∈ (s.clusterAt (clusterOf c)).port, l.at? k = none) → s.loadBytes c x [k] = [s.peek k]))

/-- 14_scalar_system_instructions.md R262, 08_memory_model.md R150: ST of plain bytes at keys from `k` on. `u` is the state
once pool tiles are claimed, `w` once a full queue has drained its head. -/
def Obligations.StoresOfPlainBytes : Prop :=
  ∀ (s : State) (d b : BitVec 5) (z : BitVec 3) (o : BitVec 12) (k : Nat),
    (Instr.st d b z o).wf = true →
    let nb := 2 ^ z.toNat
    let keys := upTo k nb
    s.resolve s.core s.ctx (s.rd b + BitVec.ofInt 64 o.toInt) nb true false = .bytes keys →
    s.accessFree keys = true →
    let u := s.claimKeys keys
    let w := if u.me.storeq.length < 8 then u else u.drainOne s.core s.ctx
    let e : StoreEnt := { key := k, bytes := leBytes nb (s.rd d).toNat, hbm := decide (k < 2 ^ 52),
                          va := s.rd b + BitVec.ofInt 64 o.toInt, pc := u.me.pc }
    ∃ t : State, exec (.st d b z o) s = .next t ∧ RetiresAs w t { w.me with storeq := w.me.storeq ++ [e] }

/-- 08_memory_model.md R150, with 07 R125 (a tile that is E at the banks) and 03 R62 (a Cleat that the kill has reached):
what draining the head of a store queue, or a line of a port buffer, does to memory. -/
def Obligations.StoreQueueDrains : Prop :=
  (∀ (s : State) (c x : Nat) (e : StoreEnt) (r : List StoreEnt), s.Inv → (s.ctxAt c x).storeq = e :: r →
    ∃ t : State, exec (.storeQueueDrain c x) s = .next t ∧ (t.ctxAt c x).storeq = r
      ∧ (s.bankRefuses c e = true → (∀ a, t.peek a = s.peek a)
          ∧ (t.ctxAt c x).due = (s.ctxAt c x).due ++ [(0x0B, e.va, e.pc)])
      ∧ (s.bankRefuses c e = false → s.cleatRefuses c e = true → t = s.setCtx c x { s.ctxAt c x with storeq := r })
      ∧ ((e.hbm = false ∨ isArray c = false) → s.bankRefuses c e = false → s.cleatRefuses c e = false →
          (∀ j, j < e.bytes.length → s.cells.all (fun q => ! q.blocks (e.key + j)) = true) →
          ∀ a, t.peek a = if e.key ≤ a ∧ a < e.key + e.bytes.length then nth e.bytes 0 (a - e.key) else s.peek a)
      ∧ (e.hbm = true → isArray c = true → s.bankRefuses c e = false →
          (s.clusterAt (clusterOf c)).port.length + e.bytes.length ≤ 32 →
          t.mem = s.mem
          ∧ ∀ a, t.portByte (clusterOf c) a =
              if e.key ≤ a ∧ a < e.key + e.bytes.length then nth e.bytes 0 (a - e.key) else s.portByte (clusterOf c) a))
  ∧ (∀ (s : State) (cl : BitVec 8) (p q : List PortLine) (l : PortLine), s.Inv →
      (s.clusterAt cl.toNat).port = p ++ l :: q →
      ∃ t : State, exec (.portLineDrain cl p.length) s = .next t ∧ (t.clusterAt cl.toNat).port = p ++ q
        ∧ (∀ a, (∀ b ∈ l.bytes, a ≠ l.line * 64 + b.1) → t.peek a = s.peek a)
        ∧ ∀ (u v : List (Nat × Byte)) (b : Nat × Byte), l.bytes = u ++ b :: v → (∀ f ∈ v, f.1 ≠ b.1) →
            t.peek (l.line * 64 + b.1) = b.2)
  ∧ (∀ (s : State) (c x : Nat), (s.ctxAt c x).storeq = [] → exec (.storeQueueDrain c x) s = .next s)

/-- 03_module_fabric.md R59: the issue of a split-phase load, and the reply of a place in this module's memory or of a sync
page. -/
def Obligations.SplitPhaseLoads : Prop :=
  (∀ (s : State) (d b : BitVec 5) (z : BitVec 3) (g : BitVec 1) (o : BitVec 12) (p : Place),
    (Instr.ld d b z g o).wf = true →
    let va := s.rd b + BitVec.ofInt 64 o.toInt
    let nb := 2 ^ z.toNat
    s.resolve s.core s.ctx va nb false false = .place p →
    ((∃ k, p = .mem k) ∨ (∃ k, p = .sync k) ∨ (∃ k, p = .host k)) →
    let u := s.drainQueue s.core s.ctx
    let q : Pend := { reg := d, va := va, nb := nb, signed := g == 1, place := p, pc := s.me.pc, keep := false,
                      answer := none, got := [], ui := s.me.ui }
    if u.me.outstanding ≥ 8 ∨ u.myCore.outstanding ≥ 32 then
      exec (.ld d b z g o) s = .next (u.setMe { u.me with stall := 1 })
    else
      ∃ t : State, exec (.ld d b z g o) s = .next t
        ∧ RetiresAs (u.countOn s.core 8 1) t { u.me with pends := u.me.pends ++ [q] })
  ∧ (∀ (s : State) (c x i key : Nat) (p : Pend),
      (s.ctxAt c x).pends[i]? = some p → p.answer = none → p.keep = false → (s.ctxAt c x).live = true →
      (p.place = .mem key ∨ p.place = .sync key) → s.unread ((s.ctxAt c x).pends.take i) (upTo key p.nb) = false →
      (p.place = .mem key → ∀ e o, poolOf key = some (e, o) → (s.coreAt e).poolCheck o p.nb = none) →
      (p.place = .sync key → s.deaf (keyDie key) (s.tenOf c) (s.ctxidOf c) = false) →
      let u := if p.place = .mem key then s.claimKeys (upTo key p.nb) else s
      u.poisoned key p.nb = false →
      ∃ t : State, exec (.splitLoadReply c x i .here) s = .next t
        ∧ t = { u with cores := t.cores }
        ∧ t.ctxAt c x = { s.ctxAt c x with pends := (s.ctxAt c x).pends.eraseIdx i }.wrBank p.ui p.reg
            (extendTo p.signed p.nb (u.peekLe key p.nb % 2 ^ 64))
        ∧ ∀ e y, ¬ (e = c ∧ y = x) → t.ctxAt e y = s.ctxAt e y)

/-- 14_scalar_system_instructions.md R264, 08_memory_model.md R156, R157: `h` is the key of the word's header (CUR in bytes
0 to 3, FLOOR in bytes 4 to 7), `n` its depth; version v has slot 65,536 x (1 + v mod n) beyond the header. -/
def Obligations.VersionedWords : Prop :=
  ∀ (s : State) (d a b : BitVec 5) (f n o : Nat) (wr : Bool),
    let va := s.rd a
    let h := f * 65536 + o / 8 * 8
    let cur : W32 := BitVec.ofNat 32 (s.peekLe h 4)
    let floor : W32 := BitVec.ofNat 32 (s.peekLe (h + 4) 4)
    let v : W32 := (s.rd b).setWidth 32
    let later := fun (p q : W32) => 1 ≤ (p - q).toNat ∧ (p - q).toNat ≤ 2 ^ 31 - 1
    let slot := fun (q : W32) => h + 65536 * (1 + q.toNat % n)
    (va.toNat % 8 ≠ 0 →
      Traps (.ldv d a b) s 0x03 va ∧ Traps (.stv d a b) s 0x03 va ∧ Traps (.reclaim a b) s 0x03 va ∧ Traps (.verq d a) s 0x03 va)
    ∧ (va.toNat % 8 = 0 → (∃ keys, s.resolve s.core s.ctx va 8 wr false = .bytes keys) →
        (wr = false → Traps (.ldv d a b) s 0x05 va ∧ Traps (.verq d a) s 0x05 va)
        ∧ (wr = true → Traps (.stv d a b) s 0x05 va ∧ Traps (.reclaim a b) s 0x05 va))
    ∧ (va.toNat % 8 = 0 → s.resolve s.core s.ctx va 8 wr false = .place (.vers f n o) → s.me.grant = none →
        (wr = false → Writes (.verq d a) s d (BitVec.ofNat 64 (floor.toNat * 2 ^ 32 + cur.toNat)))
        ∧ (wr = false → ¬ later v cur → ¬ later floor v → (cur - v).toNat < n → s.poisoned (slot v) 8 = false →
            Writes (.ldv d a b) s d (BitVec.ofNat 64 (s.peekLe (slot v) 8)))
        ∧ (wr = false → ¬ later v cur → (later floor v ∨ n ≤ (cur - v).toNat) →
            exec (.ldv d a b) s = .next ((s.withdraw s.core s.ctx).trap 0x09 va))
        ∧ (wr = false → later v cur → s.me.retryAt = none → s.unitsFull h = false →
            s.waiters.any (fun w => w.remote.isNone && decide (w.core = s.core ∧ w.ctx = s.ctx)) = false →
            ∃ w : Waiter, w.kind = .readV v ∧ w.key = h ∧ w.core = s.core ∧ w.ctx = s.ctx ∧ w.since = s.now ∧
              exec (.ldv d a b) s = .next ({ s with waiters := s.waiters ++ [w] }.setMe { s.me with stall := 6 }))
        ∧ (wr = true → s.settledSystem s.core s.ctx = true →
            let u := s.performModule s.core s.ctx
            u.waiters.any (fun w => w.key == h) = false →
            let cur' : W32 := BitVec.ofNat 32 (u.peekLe h 4)
            let floor' : W32 := BitVec.ofNat 32 (u.peekLe (h + 4) 4)
            (u.Inv → u.mayCreate h (u.ctxidOf u.core) (u.groupsOf u.core u.ctx) = true →
              later floor' (cur' + 1 - BitVec.ofNat 32 n) →
              ∃ (t w : State), exec (.stv d a b) s = .next t ∧ RetiresAs w t (w.me.wr d (BitVec.ofNat 64 (cur' + 1).toNat))
                ∧ w.peekLe h 4 = (cur' + 1).toNat ∧ w.peekLe (slot (cur' + 1)) 8 = (s.rd b).toNat
                ∧ (∀ k, ¬ (h ≤ k ∧ k < h + 4) → ¬ (slot (cur' + 1) ≤ k ∧ k < slot (cur' + 1) + 8) → w.peek k = u.peek k)
                ∧ w.cores = u.cores)
            ∧ (u.Inv →
              let g := if later v (cur' + 1) then cur' + 1 else v
              ∃ (t w : State), exec (.reclaim a b) s = .next t ∧ RetiresAs w t w.me
                ∧ w.peekLe (h + 4) 4 = (if later g floor' then g else floor').toNat
                ∧ (∀ k, ¬ (h + 4 ≤ k ∧ k < h + 8) → w.peek k = u.peek k) ∧ w.cores = u.cores)))

/-- 09_traps_reliability.md R174: taking a trap. -/
def Obligations.TrapEntry : Prop :=
  ∀ (s : State) (cause : Nat) (v addr : W64) (async : Bool), cause < 256 →
    let x := s.me
    let t := s.takeTrap cause v addr async
    let vec := if cause = 0x19 then s.myCore.pvec else s.myCore.tvec
    let st := handlerStatus x.status
    let saved : Ctx := { x with tstatus := x.status, taddr := addr, tval := v,
                                tcause := BitVec.ofNat 64 (cause + (if async then 256 else 0)), status := st,
                                stall := 0, trSince := s.now, grant := none }
    (st.getLsbD 0 = true ∧ st.getLsbD 1 = false ∧ st.getLsbD 4 = false ∧ st.getLsbD 5 = false
      ∧ bitsAt st 2 2 = max (bitsAt x.status 2 2) 1
      ∧ ∀ i, i ≠ 0 → i ≠ 1 → i ≠ 2 → i ≠ 3 → i ≠ 4 → i ≠ 5 → st.getLsbD i = x.status.getLsbD i)
    ∧ (x.tr = false → vec ≠ 0 → t = s.setMe { saved with pc := vec })
    ∧ (x.tr = false → vec = 0 → t = (s.setMe saved).handlerFault cause v addr)
    ∧ (x.tr = true → t = s.handlerFault cause v addr)
    ∧ (x.tr = true → 0 < chainLen s.myCore.hchain → bitOn x.tcause 9 = false →
        t.me = { x with stopped := true, stall := 15, status := x.status ||| 1 })

/-- 09_traps_reliability.md R175, with the alignment check of 12_formats_assembly.md R232. `completes` is R175's condition
for the return: it is on the state alone, and there TRET answers a next state. -/
def Obligations.TrapReturn : Prop :=
  ∀ (s : State) (i : BitVec 15),
    let x := s.me
    let g := x.tstatus
    let bad := g.toNat / 2 ^ 21 ≠ 0 ∨ g.getLsbD 7 = true ∨ bitsAt g 2 2 = 3 ∨ g.getLsbD 0 = true
      ∨ bitsAt g 2 2 > bitsAt x.status 2 2 ∨ (bitsAt g 2 2 = 0 ∧ g.getLsbD 4 = false) ∨ bitsAt g 8 3 = 5 ∨ bitsAt g 8 3 = 7
    let completes := x.status.getLsbD 0 = true ∧ ¬ bad ∧ x.taddr.toNat % 4 = 0
    (completes → ∃ t : State, exec .tret s = .next t ∧ t.me.status = g ∧ t.me.pc = x.taddr ∧ t.me.x = x.x
      ∧ (x.heirless = false → OnlyMe s t ∧ t.me = { x with status := g, pc := x.taddr, stall := 0, grant := none })
      ∧ (x.heirless = true → t.me.heirless = false))
    ∧ (x.status.getLsbD 0 = false → Traps .tret s 0x13 0x58000040)
    ∧ (x.status.getLsbD 0 = true → bad → exec .tret s = .next (s.handlerFault 0x12 g x.pc))
    ∧ (x.status.getLsbD 0 = true → ¬ bad → x.taddr.toNat % 4 ≠ 0 → Traps .tret s 0x03 x.taddr)
    ∧ (x.status.getLsbD 0 = false → s.myCore.tvec ≠ 0 → ∃ t : State, exec (.trap i) s = .next t ∧ t.me.taddr = x.pc)

/-- 14_scalar_system_instructions.md R267, 09_traps_reliability.md R182: the software trap, the user-interrupt return and the
user-interrupt entry. -/
def Obligations.TrapsAndUserInterrupts : Prop :=
  (∀ (s : State) (i : BitVec 15), Traps (.trap i) s 0x14 (i.setWidth 64))
  ∧ (∀ (s : State) (w : BitVec 32), Traps (.illegalInsnWord w) s 0x01 (w.setWidth 64))
  ∧ (∀ (s : State),
      (s.me.ui = false → Traps .uiret s 0x01 0x58000080)
      ∧ (s.me.ui = true → s.me.uiaddr.toNat % 4 ≠ 0 → Traps .uiret s 0x03 s.me.uiaddr)
      ∧ (s.me.ui = true → s.me.uiaddr.toNat % 4 = 0 →
          JumpsAs .uiret s { s.me with uiq := s.me.uiq.tail, status := s.me.status &&& ~~~ 2 } s.me.uiaddr))
  ∧ (∀ (s : State) (c k : Nat),
      let x := s.ctxAt c k
      let enters := x.live = true ∧ x.stopped = false ∧ x.stall = 0 ∧ x.due = [] ∧ x.uie = true ∧ x.ui = false
        ∧ x.tr = false ∧ x.uivec ≠ 0 ∧ x.uiq ≠ [] ∧ x.asyncs = []
      (enters → exec (.userInterruptTake c k) s = .next ({ s with core := c, ctx := k }.setMe
          { x with uiaddr := x.pc, status := x.status ||| 2, pc := x.uivec }))
      ∧ (¬ enters → exec (.userInterruptTake c k) s = .next s))

/-- 14_scalar_system_instructions.md R268 to R271: MFS. `word` is the instruction's word, by R234's fields. -/
def Obligations.SystemRegisterReads : Prop :=
  ∀ (s : State) (d : BitVec 5) (n : BitVec 10),
    let r := n.toNat
    let x := s.me
    let k := s.myCore
    let t := s.tenantAt (s.tenOf s.core)
    let word : W64 := BitVec.ofNat 64 (0x580000C0 + d.toNat * 2 ^ 21 + r * 2 ^ 11)
    let assigned := r ≤ 0x00A ∨ (0x010 ≤ r ∧ r ≤ 0x016) ∨ r = 0x018 ∨ r = 0x019 ∨ (0x020 ≤ r ∧ r ≤ 0x024)
      ∨ (0x031 ≤ r ∧ r ≤ 0x037) ∨ (0x040 ≤ r ∧ r ≤ 0x048) ∨ (0x050 ≤ r ∧ r ≤ 0x053) ∨ (0x200 ≤ r ∧ r ≤ 0x281)
    let least := if 0x200 ≤ r then 2
      else if (0x001 ≤ r ∧ r ≤ 0x007) ∨ r = 0x021 ∨ (0x040 ≤ r ∧ r ≤ 0x053) then 1 else 0
    let tenants := (0x010 ≤ r ∧ r ≤ 0x015) ∨ (0x020 ≤ r ∧ r ≤ 0x023) ∨ (0x031 ≤ r ∧ r ≤ 0x037) ∨ r = 0x053
    let reads := fun (m : Nat) (v : W64) => r = m → Writes (.mfs d n) s d v
    (¬ assigned → Traps (.mfs d n) s 0x01 word)
    ∧ (assigned → x.pl < least → Traps (.mfs d n) s 0x02 word)
    ∧ (assigned → least ≤ x.pl → isArray s.core = false → tenants → Writes (.mfs d n) s d 0)
    ∧ (assigned → least ≤ x.pl → (tenants → isArray s.core = true) →
        reads 0x000 x.status ∧ reads 0x001 x.tstatus ∧ reads 0x002 x.taddr ∧ reads 0x003 x.tcause ∧ reads 0x004 x.tval
        ∧ reads 0x005 k.tvec ∧ reads 0x006 k.hchain ∧ reads 0x007 k.pvec ∧ reads 0x008 x.uivec ∧ reads 0x009 x.uistat
        ∧ reads 0x00A x.uiaddr ∧ reads 0x010 k.partw
        ∧ reads 0x011 (BitVec.ofNat 64 (s.lcoreOf s.core + x.dlev.toNat * 2 ^ 32)) ∧ reads 0x012 (s.jobseedOf s.core)
        ∧ reads 0x013 (x.vgrant.setWidth 64) ∧ reads 0x014 (BitVec.ofNat 64 (s.tenOf s.core))
        ∧ reads 0x015 ((s.ctxidOf s.core).setWidth 64) ∧ reads 0x016 x.rndctr ∧ reads 0x019 (x.timef.setWidth 64)
        ∧ reads 0x020 t.lmapb ∧ reads 0x021 t.ptbase ∧ reads 0x022 t.esth ∧ reads 0x023 t.estl
        ∧ reads 0x024 (s.ageus.setWidth 64) ∧ reads 0x048 0 ∧ reads 0x052 0
        ∧ reads 0x050 (BitVec.ofNat 64 (k.cxctx.toNat + k.cxsel.toNat * 2 ^ 4 + (if k.cxerr then 2 ^ 11 else 0)))
        ∧ reads 0x053 (s.clusterAt (s.core / 16)).accsv
        ∧ reads 0x280 (if s.mcerr then 1 else 0) ∧ reads 0x281 s.fwroot
        ∧ (∀ j, 1 ≤ j → j ≤ 7 → reads (0x030 + j) (k.awdAt j))
        ∧ (∀ j, j < 8 → reads (0x040 + j) (k.chmsg j))
        ∧ (∀ u, u < 16 →
            reads (0x200 + u) (s.tenantAt u).trect ∧ reads (0x210 + u) (s.tenantAt u).tecr
            ∧ reads (0x220 + u) (s.tenantAt u).tsubcfg ∧ reads (0x230 + u) (s.tenantAt u).testr
            ∧ reads (0x240 + u) (s.tenantAt u).hwbase ∧ reads (0x250 + u) (s.tenantAt u).hwsize
            ∧ reads (0x260 + u) (s.tenantAt u).ptbase ∧ reads (0x270 + u) (s.tenantAt u).tfwin)
        ∧ (r = 0x018 → ∃ u : State, exec (.mfs d n) s = .next u ∧ RetiresAs s u
            ({ x with timef := s.podFraction (dieOf s.core) }.wr d (s.podTime (dieOf s.core)))))

/-- 14_scalar_system_instructions.md R268, R269 with the field rules of 09_traps_reliability.md R170 to R172, R176, R181 and
07_cores_memory.md R127: MTS of the registers of the context and of its core. -/
def Obligations.SystemRegisterWrites : Prop :=
  ∀ (s : State) (g : BitVec 5) (n : BitVec 10),
    let r := n.toNat
    let x := s.me
    let k := s.myCore
    let v := s.rd g
    let word : W64 := BitVec.ofNat 64 (0x58000100 + g.toNat * 2 ^ 21 + r * 2 ^ 11)
    let assigned := r ≤ 0x00A ∨ (0x010 ≤ r ∧ r ≤ 0x016) ∨ r = 0x018 ∨ r = 0x019 ∨ (0x020 ≤ r ∧ r ≤ 0x024)
      ∨ (0x031 ≤ r ∧ r ≤ 0x037) ∨ (0x040 ≤ r ∧ r ≤ 0x048) ∨ (0x050 ≤ r ∧ r ≤ 0x053) ∨ (0x200 ≤ r ∧ r ≤ 0x281)
    let least := if 0x200 ≤ r then 2
      else if r = 0 ∨ (0x008 ≤ r ∧ r ≤ 0x00A) ∨ r = 0x011 ∨ r = 0x016 ∨ r = 0x022 ∨ r = 0x023 ∨ (0x031 ≤ r ∧ r ≤ 0x037) then 0
      else 1
    let becomes := fun (m : Nat) (y : Ctx) => r = m → ∃ t : State, exec (.mts g n) s = .next t ∧ RetiresAs s t y
    let low := fun (w : W64) => w &&& ~~~ 3
    (¬ assigned → Traps (.mts g n) s 0x01 word)
    ∧ (assigned → x.pl < least → Traps (.mts g n) s 0x02 word)
    ∧ (least ≤ x.pl →
        (r = 0 → ∃ (t : State) (st : W64), exec (.mts g n) s = .next t ∧ RetiresAs s t { x with status := st }
          ∧ ∀ i, i < 64 → st.getLsbD i =
              (if i = 5 ∨ (11 ≤ i ∧ i ≤ 20) ∨ (1 ≤ x.pl ∧ (i = 4 ∨ i = 6))
                  ∨ (8 ≤ i ∧ i ≤ 10 ∧ bitsAt v 8 3 ≠ 5 ∧ bitsAt v 8 3 ≠ 7) then v.getLsbD i else x.status.getLsbD i))
        ∧ becomes 0x001 { x with tstatus := v } ∧ becomes 0x002 { x with taddr := v }
        ∧ becomes 0x003 (if v.toNat % 256 < 0x1D then { x with tcause := BitVec.ofNat 64 (v.toNat % 1024) } else x)
        ∧ becomes 0x004 { x with tval := v } ∧ becomes 0x008 { x with uivec := low v }
        ∧ becomes 0x009 { x with uiovf := x.uiovf && ! v.getLsbD 15 } ∧ becomes 0x00A { x with uiaddr := v }
        ∧ becomes 0x016 { x with rndctr := v }
        ∧ (∀ m ∈ [0x007, 0x010, 0x012, 0x013, 0x014, 0x015, 0x018, 0x019, 0x040, 0x041, 0x042, 0x043, 0x044, 0x045, 0x046,
            0x047], becomes m x)
        ∧ (r = 0x005 → ∃ t : State, exec (.mts g n) s = .next t ∧ RetiresAs (s.setMyCore { k with tvec := low v }) t x)
        ∧ (r = 0x006 → ∃ (t : State) (h : W64), exec (.mts g n) s = .next t ∧ RetiresAs (s.setMyCore { k with hchain := h }) t x
            ∧ ∀ i, i < 64 → h.getLsbD i = (decide (i % 16 < 13) && v.getLsbD i))
        ∧ (isArray s.core = true → ∀ j, 1 ≤ j → j ≤ 7 → r = 0x030 + j →
            if bitsAt v 5 3 = 7 ∨ (v.getLsbD 3 = true ∧ ¬ (3 ≤ bitsAt v 0 3 ∧ bitsAt v 0 3 ≤ 6)) then
              ∃ t : State, exec (.mts g n) s = .next t ∧ RetiresAs s t x
            else ∃ t w, exec (.mts g n) s = .next t ∧ RetiresAs (s.setMyCore { k with awd := Tab.set k.awd j w }) t x
              ∧ ∀ i, i < 64 → w.getLsbD i =
                  (decide (i < 9 ∨ (16 ≤ i ∧ i < 28) ∨ (32 ≤ i ∧ i < 44)) && v.getLsbD i)))

/-- 14_scalar_system_instructions.md R272 to R277, with 10_estates.md R199 for what a HALT waits for. -/
def Obligations.ContextControl : Prop :=
  ∀ (s : State) (d a b : BitVec 5) (c : BitVec 3),
    let x := s.me
    let k := s.myCore
    let wakes := x.asyncs ≠ [] ∨ x.uiReady = true ∨ k.recvq ≠ []
      ∨ (k.inbox ≠ [] ∧ x.kind ≠ .helper ∧ x.kind ≠ .continuation)
      ∨ (isService s.core = true ∧ ∃ r, r < 2 ∧ (s.mboxAt (s.core - 4096) r).wake = true
          ∧ (s.mboxAt (s.core - 4096) r).tail ≠ (s.mboxAt (s.core - 4096) r).head)
      ∨ k.saving ≠ none
    let awaits := x.amodReply ≠ [] ∨ (s.lastAlive = true ∧ ∃ p ∈ k.ctxs, p.2.amodReply ≠ [] ∨ s.outward s.core p.1 = true)
    (wakes → ∃ t : State, exec .wfi s = .next t ∧ RetiresAs s t x)
    ∧ (¬ wakes → ∃ r, r % 16 = 15 ∧ Waits .wfi s r)
    ∧ (∃ t : State, exec .yield s = .next t ∧ RetiresAs s t { x with yielded := true })
    ∧ (isArray s.core = false → Writes (.rdctr d c) s d 0)
    ∧ (isArray s.core = true → Writes (.rdctr d c) s d (k.counterValue c.toNat))
    ∧ (isArray s.core = false → Traps .halt s 0x01 0x58000180
        ∧ Traps (.start d a b) s 0x01 (BitVec.ofNat 64 (encode (.start d a b)))
        ∧ Traps (.joinh d a) s 0x01 (BitVec.ofNat 64 (encode (.joinh d a))))
    ∧ (isArray s.core = true → x.outstanding ≠ 0 → Waits .halt s 1)
    ∧ (isArray s.core = true → x.outstanding = 0 → awaits → Waits .halt s 15)
    ∧ (isArray s.core = true → x.outstanding = 0 → ¬ awaits → ∃ t : State, exec .halt s = .next t
        ∧ (t.ctxAt s.core s.ctx).live = false ∧ (t.ctxAt s.core s.ctx).uiq = [] ∧ (t.ctxAt s.core s.ctx).asyncs = []
        ∧ t.mem = s.mem ∧ ∀ y, y ≠ s.ctx → (t.ctxAt s.core y).live = (s.ctxAt s.core y).live)
    ∧ (isArray s.core = true → x.kind ≠ .control →
        Traps (.start d a b) s 0x01 (BitVec.ofNat 64 (encode (.start d a b))))
    ∧ (isArray s.core = true → x.kind = .control → (s.rd a).toNat % 4 ≠ 0 → Traps (.start d a b) s 0x03 (s.rd a))
    ∧ (isArray s.core = true → x.kind = .control → (s.rd a).toNat % 4 = 0 →
        ((∀ n, 1 ≤ n → n ≤ 10 → (Tab.find k.ctxs n).any (fun y => y.live) = true) → Writes (.start d a b) s d 0)
        ∧ (∀ n l, 1 ≤ n → n ≤ 10 → n ≠ s.ctx → (Tab.find k.ctxs n).any (fun y => y.live) = false →
            (∀ m, 1 ≤ m → m < n → (Tab.find k.ctxs m).any (fun y => y.live) = true) → s.launchOf s.core = some l →
            ∃ t : State, exec (.start d a b) s = .next t
              ∧ t.me = { x.wr d (BitVec.ofNat 64 n) with pc := x.pc + 4, stall := 0, grant := none, joining := false }
              ∧ (t.ctxAt s.core n).live = true ∧ (t.ctxAt s.core n).kind = .helper ∧ (t.ctxAt s.core n).pc = s.rd a
              ∧ (t.ctxAt s.core n).x = [(9, s.rd b)] ∧ (t.ctxAt s.core n).status = statusStart x.pl
              ∧ (t.ctxAt s.core n).vgrant = 0 ∧ (t.ctxAt s.core n).rndctr = 0 ∧ (t.ctxAt s.core n).uivec = 0
              ∧ t.mem = s.mem ∧ ∀ y, y ≠ s.ctx → y ≠ n → t.ctxAt s.core y = s.ctxAt s.core y))
    ∧ (isArray s.core = true → x.grant = none →
        let j := (s.rd a).toNat % 16
        (j = 0 ∨ 10 < j → Writes (.joinh d a) s d 2)
        ∧ (1 ≤ j → j ≤ 10 → (s.ctxAt s.core j).live = false → Writes (.joinh d a) s d 0)
        ∧ (1 ≤ j → j ≤ 10 → (s.ctxAt s.core j).live = true →
            exec (.joinh d a) s = .next (s.setMe { x with stall := 9, joining := true })))

/-- 14_scalar_system_instructions.md R278, R279, 06_scheduling.md R107. A record "reads as" bytes, leaving a state, when
reading its words one after the other gives them whatever the reader goes on to do. -/
def Obligations.ContinuationsAndLaunches : Prop :=
  ∀ (s u : State) (d a : BitVec 5) (bytes : List Byte) (l : Launch),
    let va := s.rd a
    let readsAs := fun (n : Nat) => ∀ k, s.readRecord va n [] k = k bytes u
    (isArray s.core = false → Traps (.cont a) s 0x01 (BitVec.ofNat 64 (encode (.cont a)))
      ∧ Traps (.launch d a) s 0x01 (BitVec.ofNat 64 (encode (.launch d a))))
    ∧ (isArray s.core = true → va.toNat % 64 ≠ 0 → Traps (.cont a) s 0x03 va ∧ Traps (.launch d a) s 0x03 va)
    ∧ (isArray s.core = true → va.toNat % 64 = 0 →
        (s.me.grant ≠ none → ∃ t : State, exec (.cont a) s = .next t ∧ RetiresAs s t s.me)
        ∧ (s.me.grant = none → readsAs 8 →
            s.contFlight.any (fun r => r.remote.isNone && decide (r.core = s.core ∧ r.ctx = s.ctx)) = false →
            s.me.pends.find? (fun q => q.keep && decide (q.nb = 64)) = none →
            let entry : W64 := BitVec.ofNat 64 (recNat bytes 0 8)
            let key : W64 := BitVec.ofNat 64 (recNat bytes 8 8)
            (entry.toNat % 4 ≠ 0 → exec (.cont a) s = .next (u.trap 0x03 entry))
            ∧ (entry.toNat % 4 = 0 → u.launchOf u.core = some l → u.keyModule key = some u.modid →
                (u.modsOf l).contains u.modid = true →
                ∃ r : ContRec, r.bytes = bytes ∧ r.ctxid = l.ctxid ∧ r.ten = l.ten ∧ r.home = homeOf l (ownKey u.core key)
                  ∧ r.core = u.core ∧ r.ctx = u.ctx ∧ r.remote = none
                  ∧ exec (.cont a) s = .next ({ u.countOn u.core 0x0A 1 with contFlight := u.contFlight ++ [r] }.setMe
                      { u.me with stall := 9 })))
        ∧ (readsAs 24 →
            let ten := u.tenOf u.core
            let prio := min (recNat bytes 0 8 / 16 % 8) (bitsAt (u.tenantAt ten).tsubcfg 9 3)
            let w := u.enterLaunch ten va bytes prio none (16 + u.core) u.now
            (w.1 = 0 → u.depthFull ten = true → ∃ t : State, exec (.launch d a) s = .next t ∧ RetiresAs u t (u.me.wr d 5))
            ∧ (w.1 = 0 → u.depthFull ten = false → ∃ t : State, exec (.launch d a) s = .next t
                ∧ RetiresAs w.2.2 t (w.2.2.me.wr d (BitVec.ofNat 64 (w.2.1.toNat * 2 ^ 32))))
            ∧ (w.1 ≠ 0 → ∃ t : State, exec (.launch d a) s = .next t ∧ RetiresAs u t (u.me.wr d (BitVec.ofNat 64 w.1)))))

/-- 14_scalar_system_instructions.md R280 to R282, 03_module_fabric.md R60 to R62. -/
def Obligations.Messages : Prop :=
  (∀ (s : State) (d a : BitVec 5) (w : BitVec 1),
    let v := s.rd a
    let k := s.myCore
    let node := bitsAt v 56 8
    let c := if bitsAt v 48 8 = 0xFE then bitsAt v 36 12 else s.core
    let here := bitsAt v 32 4 = 15 ∧ bitsAt v 0 32 = 0 ∧ (node = 0 ∨ node = 64 + s.modid)
      ∧ (bitsAt v 48 8 = 0xFE ∨ (bitsAt v 48 8 = 0xFF ∧ bitsAt v 36 12 = 0))
    let m : Msg := { bytes := sliceBytes k.build 0 64, srcCore := s.core, srcMod := s.modid, remote := false }
    let o : OutMsg := { node := s.modid, core := c, msg := m, ctx := s.ctx, owner := k.thread, sent := false }
    (bitsAt v 32 4 ≠ 15 ∨ bitsAt v 0 32 ≠ 0 → Traps (.send d a) s 0x05 v)
    ∧ (here → c ≠ s.core → s.inRect (s.tenOf s.core) (c / 16) = false → Traps (.send d a) s 0x07 v)
    ∧ (here → (c = s.core ∨ s.inRect (s.tenOf s.core) (c / 16) = true) →
        (16 ≤ k.injq.length → Writes (.send d a) s d 1)
        ∧ (k.injq.length < 16 → ∃ t : State, exec (.send d a) s = .next t
            ∧ RetiresAs (s.setMyCore { k with injq := k.injq ++ [o] }) t (s.me.wr d 0)))
    ∧ Writes (.qstat d) s d k.mqstat
    ∧ (k.recvq = [] → Writes (.recv d 0 0) s d 0 ∧ Writes (.recv d 1 0) s d 0 ∧ Waits (.recv d 0 1) s 15)
    ∧ (∀ h r, k.recvq = h :: r →
        Writes (.recv d 0 w) s d (BitVec.ofNat 64 (k.rhead % 64 + h.srcCore % 4096 * 2 ^ 12 + h.srcMod % 64 * 2 ^ 24
          + (if h.remote then 2 ^ 30 else 0) + 2 ^ 63))
        ∧ (let u := s.setMyCore { k with recvq := r, rhead := (k.rhead + 1) % 64 }
           (k.overflow = [] → ∃ t : State, exec (.recv d 1 0) s = .next t ∧ RetiresAs u t (s.me.wr d (BitVec.ofNat 64 r.length)))
           ∧ ∀ o q, k.overflow = o :: q → r.length < 64 → ∃ t : State, exec (.recv d 1 0) s = .next t
               ∧ RetiresAs (u.setMyCore { u.myCore with recvq := r ++ [u.fetchMessage u.core o], overflow := q }) t
                   (s.me.wr d (BitVec.ofNat 64 r.length)))))
  ∧ (∀ (s : State) (c : Nat) (m : OutMsg) (r : List OutMsg),
      (s.coreAt c).injq = m :: r → m.sent = false → m.node = s.modid →
      let q := s.coreAt m.core
      let owner := m.owner.getD (s.tenOf c, 0, 0)
      let spilt := s.spillMessage m.core (nextSlot q.overflow) m.msg
      let moves := fun (i : Instr) =>
        (s.barred owner.1 owner.2.1 m.core = true → exec i s = .next (s.setCore c { s.coreAt c with injq := r, rejAt := none }))
        ∧ (s.barred owner.1 owner.2.1 m.core = false →
        (q.recvq.length < 64 → q.overflow = [] → ∃ t : State, exec i s = .next t
          ∧ (t.coreAt m.core).recvq = q.recvq ++ [m.msg] ∧ (t.coreAt c).injq = r ∧ t.mem = s.mem)
        ∧ ((64 ≤ q.recvq.length ∨ q.overflow ≠ []) → q.overflow.length < 1024 → ∃ t : State, exec i s = .next t
          ∧ (t.coreAt m.core).overflow = q.overflow ++ [spilt.2] ∧ (t.coreAt c).injq = r ∧ t.mem = spilt.1.mem)
        ∧ ((64 ≤ q.recvq.length ∨ q.overflow ≠ []) → 1024 ≤ q.overflow.length →
            exec i s = .next (s.setCore c { s.coreAt c with rej := true, rejAt := some s.now })))
      ((s.coreAt c).rejAt = none → moves (.messageDeliver c))
      ∧ (∀ w, (s.coreAt c).rejAt = some w → (w + 2000 ≤ s.now → moves (.messageResend c))
          ∧ (s.now < w + 2000 → exec (.messageResend c) s = .next s)))

/-- 14_scalar_system_instructions.md R283 to R288. -/
def Obligations.PrivilegedInstructions : Prop :=
  ∀ (s u : State) (d a b : BitVec 5) (m : BitVec 1) (bytes : List Byte),
    let pl := s.me.pl
    let word := fun (i : Instr) => BitVec.ofNat 64 (encode i)
    let r := s.rd b
    let ten := r.toNat / 2 ^ 32 % 16
    (∀ i ∈ [Instr.replay d a m, .tlbinv a b, .kill d a b], pl = 0 → Traps i s 0x02 (word i))
    ∧ (isArray s.core = true → Traps (.fqpop d a b) s 0x01 (word (.fqpop d a b)))
    ∧ (isArray s.core = false → pl = 0 → Traps (.fqpop d a b) s 0x02 (word (.fqpop d a b)))
    ∧ (isService s.core = false → Traps (.moncall d a) s 0x01 (word (.moncall d a)))
    ∧ (isService s.core = true → pl = 0 → Traps (.moncall d a) s 0x02 (word (.moncall d a)))
    ∧ (pl ≠ 0 →
        (s.tokenPage (s.rd a) = none → Writes (.replay d a m) s d (BitVec.allOnes 64))
        ∧ (∀ t page, s.tokenPage (s.rd a) = some (t, page) →
            (isArray s.core = true ∧ t ≠ s.tenOf s.core → Writes (.replay d a m) s d (BitVec.allOnes 64))
            ∧ ((isArray s.core = false ∨ t = s.tenOf s.core) → ∃ w : State, exec (.replay d a m) s = .next w
                ∧ RetiresAs (s.replayPage t page (m == 1)).1 w
                    ((s.replayPage t page (m == 1)).1.me.wr d (BitVec.ofNat 64 (s.replayPage t page (m == 1)).2)))))
    ∧ (pl ≠ 0 →
        ((s.rd a).toNat % 65536 ≠ 0 → Traps (.tlbinv a b) s 0x03 (s.rd a))
        ∧ ((s.rd a).toNat % 65536 = 0 → (r.toNat / 2 ^ 36 ≠ 0 ∨ (isArray s.core = true ∧ ten ≠ s.tenOf s.core)) →
            Traps (.tlbinv a b) s 0x05 r)
        ∧ ((s.rd a).toNat % 65536 = 0 → r.toNat / 2 ^ 36 = 0 → (isArray s.core = true → ten = s.tenOf s.core) →
            let w := if r.toNat % 2 ^ 32 = 0 then s.tlbInvalidate ten 0 (2 ^ 39)
              else s.tlbInvalidate ten ((s.rd a).toNat / 2 ^ 16 % 2 ^ 39) (r.toNat % 2 ^ 32)
            ∃ t : State, exec (.tlbinv a b) s = .next t ∧ RetiresAs w t w.me))
    ∧ (pl ≠ 0 →
        let victim := r.toNat % 16
        let id : W32 := BitVec.ofNat 32 (s.rd a).toNat
        ((r.toNat / 16 ≠ 0 ∨ (isArray s.core = true ∧ victim ≠ s.tenOf s.core)) → Traps (.kill d a b) s 0x05 r)
        ∧ (r.toNat / 16 = 0 → (isArray s.core = true → victim = s.tenOf s.core) →
            (s.launchBy victim id = none → Writes (.kill d a b) s d 1)
            ∧ (s.launchBy victim id ≠ none →
                let w := s.injectKill victim id s.core 0x1A false
                (w.me.live = true → ∃ t : State, exec (.kill d a b) s = .next t ∧ RetiresAs w t (w.me.wr d 0))
                ∧ (w.me.live = false → exec (.kill d a b) s = .next w))))
    ∧ (pl ≠ 0 → isArray s.core = false →
        let t := (s.rd a).toNat % 16
        let n := s.tenantAt t
        (r.toNat % 32 ≠ 0 → Traps (.fqpop d a b) s 0x03 r)
        ∧ (r.toNat % 32 = 0 → (n.fqhead = n.fqtail ∨ n.fqcfg.getLsbD 8 = false) → Writes (.fqpop d a b) s d 0)
        ∧ (∀ e q key ks, r.toNat % 32 = 0 → n.fqhead ≠ n.fqtail → n.fqcfg.getLsbD 8 = true → n.fq = e :: q →
            s.resolve s.core s.ctx r 8 true false = .bytes (key :: ks) →
            let w := (s.setTenant t { n with fqhead := n.fqhead + 1, fq := q }).drainQueue s.core s.ctx
            ∃ v : State, exec (.fqpop d a b) s = .next v
              ∧ RetiresAs (w.pokeN key (fqBytes t e)) v (w.me.wr d 1)))
    ∧ (pl ≠ 0 → isService s.core = true →
        let v := s.core - 4096
        let q := s.mboxAt v 3
        ((s.rd a).toNat % 64 ≠ 0 → s.me.grant = none → Traps (.moncall d a) s 0x03 (s.rd a))
        ∧ ((s.rd a).toNat % 64 = 0 → s.me.grant = none → (∀ k, s.readRecord (s.rd a) 8 [] k = k bytes u) →
            (q.tail - q.head).toNat < 64 →
            ∃ t : State, exec (.moncall d a) s = .next t ∧ t.me.stall = 15 ∧ t.me.pc = u.me.pc ∧ t.me.grant = some (q.tail.setWidth 64)
              ∧ t.mboxAt v 3 = { q with tail := q.tail + 1, stamps := q.stamps ++ [s.nextStamp],
                                        ents := Tab.set q.ents (q.tail.toNat % 64)
                                          (leBytes 8 (0x20 + s.core % 4096 * 2 ^ 16 + q.tail.toNat * 2 ^ 32)
                                            ++ sliceBytes bytes 8 56) })
        ∧ (∀ g, s.me.grant = some g →
            let e := sliceBytes (Tab.get q.ents [] (g.toNat % 64)) 0 64
            let status := recNat e 12 2
            (recNat e 0 8 / 256 % 2 = 0 → Waits (.moncall d a) s 15)
            ∧ (recNat e 0 8 / 256 % 2 = 1 → status = 1 →
                Traps (.moncall d a) s 0x1C (BitVec.ofNat 64 (recNat e 8 2 + recNat e 10 2 * 2 ^ 16)))
            ∧ (∀ key ks, recNat e 0 8 / 256 % 2 = 1 → status ≠ 1 →
                s.resolve s.core s.ctx (s.rd a) 8 true false = .bytes (key :: ks) →
                let w := ((s.drainQueue s.core s.ctx).pokeN (key + 12) (sliceBytes e 12 2)).pokeN (key + 48) (sliceBytes e 48 16)
                ∃ t : State, exec (.moncall d a) s = .next t ∧ RetiresAs w t (w.me.wr d (BitVec.ofNat 64 status)))))

/-- 19_graph_sync_estate_instructions.md R364 to R366, 03_module_fabric.md R62. `w` is the state once the context's earlier stores have reached memory, `now`
the new value and `ret` the value returned. -/
def Obligations.AtomicOperations : Prop :=
  (∀ (s : State) (d a b : BitVec 5) (m : BitVec 1) (o : BitVec 4) (key : Nat) (sync : Bool),
      let va := s.rd a
      let nb := if m = 1 then 4 else 8
      let to1 := s.resolve s.core s.ctx va nb true false
      let here := (sync = false ∧ (to1 = .place (.mem key) ∧ s.accessFree (upTo key nb) = true
          ∨ ∃ ks, to1 = .bytes (key :: ks) ∧ s.accessFree (key :: ks) = true))
        ∨ (sync = true ∧ to1 = .place (.sync key) ∧ s.accessFree (upTo key nb) = true ∧ s.unheard key true = false)
      let w := s.beforeAmo key nb
      let upd := fun (n : Nat) (old x c : BitVec n) =>
        if o = 0 then x else if o = 1 then old + x else if o = 2 then old &&& x else if o = 3 then old ||| x
        else if o = 4 then old ^^^ x
        else if o = 5 then (if old.toInt < x.toInt then old else x) else if o = 6 then (if old.toInt < x.toInt then x else old)
        else if o = 7 then (if old.toNat < x.toNat then old else x) else if o = 8 then (if old.toNat < x.toNat then x else old)
        else if old = c then x else old
      let fl := if m = 1 then fp32 else fp64
      let now := fun (u : State) (x c : W64) =>
        if o = 10 then (fl.add 0 0 (u.peekLe key nb) (x.toNat % 2 ^ (8 * nb))).1 % 2 ^ (8 * nb)
        else (upd (8 * nb) (BitVec.ofNat _ (u.peekLe key nb)) (x.setWidth _) (c.setWidth _)).toNat
      let ret := fun (u : State) => if m = 1 ∧ (o = 5 ∨ o = 6)
        then (BitVec.ofNat 32 (u.peekLe key nb)).signExtend 64 else BitVec.ofNat 64 (u.peekLe key nb)
      let r := s.rd d
      let replyTo := s.resolve s.core s.ctx r 8 true false
      let plain := fun (x : Res) => ∀ v, x ≠ .miss v ∧ ∀ c, x ≠ .trap c v
      ((Instr.amo d a b m o).wf = true →
        (va.toNat % nb ≠ 0 → Traps (.amo d a b m o) s 0x03 va)
        ∧ (va.toNat % nb = 0 → ∀ c v, to1 = .trap c v → Traps (.amo d a b m o) s c v)
        ∧ (va.toNat % nb = 0 → ∀ p, to1 = .place p → (∀ k, p ≠ .mem k ∧ p ≠ .sync k ∧ p ≠ .remote k) →
            Traps (.amo d a b m o) s 0x05 va)
        ∧ (va.toNat % nb = 0 → here → s.poisoned key nb = false → ¬ (sync = true ∧ o = 1) →
            ∃ t : State, exec (.amo d a b m o) s = .next t
              ∧ RetiresAs (w.pokeLe key nb (now w (s.rd b) (s.rd d))) t (w.me.wr d (ret w)))
        ∧ (va.toNat % nb = 0 → to1 = .place (.sync key) → s.accessFree (upTo key nb) = true → s.unheard key true = true →
            Waits (.amo d a b m o) s stCleat
            ∧ ((Instr.red a b m o).wf = true → ∃ t : State, exec (.red a b m o) s = .next t ∧ RetiresAs s t s.me)))
      ∧ ((Instr.red a b m o).wf = true →
        (va.toNat % nb ≠ 0 → Traps (.red a b m o) s 0x03 va)
        ∧ (va.toNat % nb = 0 → here → s.poisoned key nb = false → ¬ (sync = true ∧ o = 1) →
            ∃ t : State, exec (.red a b m o) s = .next t ∧ RetiresAs (w.pokeLe key nb (now w (s.rd b) 0)) t w.me))
      ∧ ((Instr.amod d a b m o).wf = true →
        (r.toNat % 8 ≠ 0 → Traps (.amod d a b m o) s 0x03 r)
        ∧ (r.toNat % 8 = 0 → va.toNat % nb ≠ 0 → Traps (.amod d a b m o) s 0x03 va)
        ∧ (r.toNat % 8 = 0 → va.toNat % nb = 0 → bitsAt r 56 8 ≠ 0 → bitsAt r 56 8 ≠ 0x40 + s.modid → Traps (.amod d a b m o) s 0x05 r)
        ∧ (r.toNat % 8 = 0 → (bitsAt r 56 8 = 0 ∨ bitsAt r 56 8 = 0x40 + s.modid) → plain replyTo →
            (va.toNat % nb = 0 → here → s.poisoned key nb = false → o ≠ 9 →
                ∃ t : State, exec (.amod d a b m o) s = .next t
                  ∧ RetiresAs (w.pokeLe key nb (now w (s.rd b) 0)) t
                      { w.me with amodReply := w.me.amodReply ++ [(r, ret w)] })
            ∧ (∀ (bytes : List Byte) (u : State), va.toNat % nb = 0 → here → s.poisoned key nb = false → o = 9 →
                (∀ k, s.readRecord r 1 [] k = k bytes u) →
                let y := u.beforeAmo key nb
                ∃ t : State, exec (.amod d a b m o) s = .next t
                  ∧ RetiresAs (y.pokeLe key nb (now y (u.rd b) (BitVec.ofNat 64 (ofLeBytes bytes)))) t
                      { y.me with amodReply := y.me.amodReply ++ [(r, ret y)] }))))
  ∧ (∀ (s : State) (c x key : Nat) (va v : W64) (r : List (W64 × W64)), s.Inv →
      ((s.ctxAt c x).amodReply = [] → exec (.amodReplyStore c x) s = .next s)
      ∧ ((s.ctxAt c x).amodReply = (va, v) :: r → s.resolve c x va 8 true false = .place (.mem key) →
          s.unread (s.ctxAt c x).pends (upTo key 8) = false →
          (∀ n i lc l, (s.coreAt c).thread = some (n, i, lc) → s.launchBy n i = some l → l.state ≠ .victim) →
          let u := (s.drainQueue c x).claimKeys (upTo key 8)
          ∃ t : State, exec (.amodReplyStore c x) s = .next t ∧ (t.ctxAt c x).amodReply = r
            ∧ t.peekLe key 8 = v.toNat ∧ (∀ k, ¬ (key ≤ k ∧ k < key + 8) → t.peek k = u.peek k)
            ∧ t.ctxAt c x = { u.ctxAt c x with amodReply := r }))

/-- 03_module_fabric.md R56, R57. A request's `leaves` are the contexts whose adds it carries, its `tag` the wait-buffer
entry that takes its reply. -/
def Obligations.ButterflyAdds : Prop :=
  (∀ (s : State) (d a b : BitVec 5) (m : BitVec 1) (pa : Nat),
    let nb := if m = 1 then 4 else 8
    let l := Tab.get s.bf [] (keyDie pa)
    let waits := Tab.get s.bfWait [] (keyDie pa)
    (s.rd a).toNat % nb = 0 → s.resolve s.core s.ctx (s.rd a) nb true false = .place (.sync pa) → s.accessFree (upTo pa nb) = true →
    s.unheard pa true = false → s.poisoned pa nb = false →
    (∀ v, s.me.grant = some v → Writes (.amo d a b m 1) s d v ∧ ∃ t : State, exec (.red a b m 1) s = .next t ∧ RetiresAs s t s.me)
    ∧ (∀ r : BfReq, s.me.grant = none → l.find? s.myReq = some r →
        let w := { s with bf := Tab.set s.bf (keyDie pa) (l.filter (fun q => q != r)) }.beforeAmo pa nb
        let old : W64 := BitVec.ofNat 64 (w.peekLe pa nb)
        let y := w.pokeLe pa nb ((w.peekLe pa nb + r.add.toNat) % 2 ^ (8 * nb))
        (r.tag = none → (∀ e ∈ r.leaves, e.1 = s.core ∧ e.2.1 = s.ctx) →
          (∃ t : State, exec (.amo d a b m 1) s = .next t ∧ RetiresAs y t (w.me.wr d old))
          ∧ ∃ t : State, exec (.red a b m 1) s = .next t ∧ RetiresAs y t (w.me.wr 0 old))
        ∧ (r.tag = none → ∃ t : State, exec (.red a b m 1) s = .next t ∧ t.mem = y.mem ∧ t.me.pc = w.me.pc + 4)
        ∧ (∀ g, r.tag = some g → ∃ t : State, exec (.amo d a b m 1) s = .next t ∧ t.mem = y.mem ∧ t.me.pc = w.me.pc
            ∧ Tab.get t.bfWait [] (keyDie pa)
                = (Tab.get w.bfWait [] (keyDie pa)).map (fun e => if e.tag = g then { e with reply := some old } else e)))
    ∧ (s.me.grant = none → l.find? s.myReq = none → waits.any (fun w => s.myReq w.first || s.myReq w.second) = false →
        ∀ amo : Bool, ∃ (q : BfReq) (t : State), q.leaves.map (fun e => (e.1, e.2.1)) = [(s.core, s.ctx)] ∧ q.tag = none
          ∧ q.pa = pa ∧ q.width = nb ∧ q.add = s.rd b
          ∧ q.amo = amo ∧ exec (if amo then .amo d a b m 1 else .red a b m 1) s = .next t
          ∧ Tab.get t.bf [] (keyDie pa) = l ++ [q] ∧ t.me.pc = s.me.pc ∧ t.me.stall = stCleat))
  ∧ (∀ (s : State) (die : BitVec 2) (i j : Nat) (p q : BfReq), s.Inv →
      let l := Tab.get s.bf [] die.toNat
      let w := Tab.get s.bfWait [] die.toNat
      let stage := meetStage p.port q.port
      let switch := bfSwitch stage p.port p.pa
      let full := p.amo = true ∧ 32 ≤ (w.filter (fun e => e.switch == switch)).length
      l[i]? = some p → l[j]? = some q → (p.width = 4 ∨ p.width = 8) → p.port < q.port →
      (p.combines q = true → ¬ full → ∃ (t : State) (r : BfReq), exec (.butterflyCombine die i j) s = .next t ∧ t.mem = s.mem
        ∧ Tab.get t.bf [] die.toNat = l.filter (fun e => e != p && e != q) ++ [r]
        ∧ r.pa = p.pa ∧ r.width = p.width ∧ r.amo = p.amo ∧ r.stage = stage + 1 ∧ r.leaves = p.leaves ++ q.leaves
        ∧ (s.amoAt r.pa r.width 1 r.add 0).1.mem = ((s.amoAt p.pa p.width 1 p.add 0).1.amoAt p.pa p.width 1 q.add 0).1.mem
        ∧ (p.amo = true → ∃ g, r.tag = some g ∧ (∀ e ∈ w, e.tag ≠ g)
            ∧ Tab.get t.bfWait [] die.toNat
                = w ++ [{ tag := g, switch := switch, a1 := p.add, first := p, second := q, reply := none }]))
      ∧ ((p.combines q = false ∨ full) → exec (.butterflyCombine die i j) s = .next s))
  ∧ (∀ (s : State) (die : BitVec 2) (i : Nat) (e : BfWait),
      let l := Tab.get s.bfWait [] die.toNat
      l[i]? = some e →
      (e.reply = none → exec (.combinedReply die i) s = .next s)
      ∧ ∀ v, e.reply = some v →
        let later : W64 := BitVec.ofNat 64 ((v + e.a1).toNat % 2 ^ (8 * e.first.width))
        (∀ c1 x1 o1 c2 x2 o2, e.first.tag = none → e.second.tag = none →
          e.first.leaves = [(c1, x1, o1)] → e.second.leaves = [(c2, x2, o2)] → c1 ≠ c2 →
          (s.ctxAt c1 x1).live = true → (s.ctxAt c1 x1).stall = stCleat → (s.coreAt c1).thread = some o1 →
          (s.ctxAt c2 x2).live = true → (s.ctxAt c2 x2).stall = stCleat → (s.coreAt c2).thread = some o2 →
          ∃ t : State, exec (.combinedReply die i) s = .next t ∧ t.mem = s.mem ∧ (t.ctxAt c1 x1).grant = some v
            ∧ (t.ctxAt c2 x2).grant = some later ∧ Tab.get t.bfWait [] die.toNat = l.eraseIdx i)
        ∧ (∀ g h, e.first.tag = some g → e.second.tag = some h →
            ∃ t : State, exec (.combinedReply die i) s = .next t ∧ t.mem = s.mem ∧ t.cores = s.cores
              ∧ Tab.get t.bfWait [] die.toNat = (l.eraseIdx i).map (fun f =>
                  if f.tag = h then { f with reply := some later } else if f.tag = g then { f with reply := some v } else f)))

/-- 19_graph_sync_estate_instructions.md R367: P in bytes 0 to 3, LOW in bytes 4 to 7, GEN in bytes 8 to 15 and LAST in bytes 16 to
23 of the cell. `u` is the state once the context's earlier stores have reached memory. -/
def Obligations.ReductionCells : Prop :=
  ∀ (s : State) (d a b : BitVec 5) (ty op : BitVec 2) (key : Nat),
    (Instr.redf d a b ty op).wf = true →
    let va := s.rd a
    let i := Instr.redf d a b ty op
    let to1 := s.resolve s.core s.ctx va 64 true false
    let u := s.performModule s.core s.ctx
    let p := u.peekLe key 4
    let low := u.peekLe (key + 4) 4
    let rank := s.lcoreOf s.core - low
    let cell := u.cellAt key
    let held := (Tab.find cell.contribs rank).isSome
    let r : RedCell := if held then cell
      else if cell.contribs.isEmpty then { cell with op := op.toNat, type := ty.toNat, contribs := [(rank, s.rd b)] }
      else { cell with contribs := Tab.set cell.contribs rank (s.rd b) }
    (va.toNat % 64 ≠ 0 → Traps i s 0x03 va)
    ∧ (va.toNat % 64 = 0 → (∃ k, to1 = .place (.mem k) ∧ s.accessFree (upTo k 64) = true) → Traps i s 0x05 va)
    ∧ (va.toNat % 64 = 0 → to1 = .place (.sync key) → s.accessFree (upTo key 64) = true → s.unheard key true = true →
        Waits i s stCleat)
    ∧ (va.toNat % 64 = 0 → to1 = .place (.sync key) → s.accessFree (upTo key 64) = true → s.unheard key true = false →
        (s.lcoreOf s.core < low ∨ p ≤ rank → Traps i s 0x05 va)
        ∧ (low ≤ s.lcoreOf s.core → rank < p →
            (∀ v, Tab.find cell.uncollected rank = some v → ∃ t : State, exec i s = .next t
              ∧ RetiresAs (u.setCell { cell with uncollected := Tab.drop cell.uncollected rank }) t (u.me.wr d v))
            ∧ (Tab.find cell.uncollected rank = none → r.contribs.length < p →
                exec i s = .next ((u.setCell r).setMe { u.me with stall := 15 }))
            ∧ (Tab.find cell.uncollected rank = none → p ≤ r.contribs.length → (∀ x ∈ u.waiters, x.rankAt key = none) → u.Inv →
                ∃ (t w : State), exec i s = .next t ∧ RetiresAs w t (u.me.wr d (r.result p))
                  ∧ w.peekLe (key + 8) 8 = (u.peekLe (key + 8) 8 + 1) % 2 ^ 64 ∧ w.peekLe (key + 16) 8 = (r.result p).toNat
                  ∧ (∀ k, ¬ (key + 8 ≤ k ∧ k < key + 24) → w.peek k = u.peek k)
                  ∧ (w.cellAt key).contribs = []
                  ∧ ∀ j, j < p → j ≠ rank → Tab.find (w.cellAt key).uncollected j = some (r.result p))))

/-- 19_graph_sync_estate_instructions.md R368. -/
def Obligations.Barriers : Prop :=
  ∀ (s : State) (n : BitVec 4) (a : BitVec 5),
    let k := s.myCore
    let on := bitOn k.bm n.toNat
    let up := bitOn k.arr n.toNat
    let u := s.setMyCore { k with arr := putBits k.arr n.toNat 1 1 }
    let v := s.setMyCore { k with bm := (s.rd a).setWidth 16 }
    let settles := fun (u : State) => ∀ (ten : Nat) (ctxid : W32) (lc : Nat), k.thread = some (ten, ctxid, lc) →
      ∀ (c : Nat) (lc' : Nat), (u.coreAt c).thread = some (ten, ctxid, lc') → ∀ j, j < 16 →
        bitOn ((u.checkTrees s.core).coreAt c).arr j
          = (if u.treeMissing ten ctxid j then bitOn (u.coreAt c).arr j else false)
    (on = false → (∃ t : State, exec (.arrive n) s = .next t ∧ RetiresAs s t s.me) ∧ ∃ t : State, exec (.waitb n) s = .next t ∧ RetiresAs s t s.me)
    ∧ (on = true → up = true → Waits (.arrive n) s 7 ∧ Waits (.waitb n) s 7)
    ∧ (on = true → up = false →
        (∃ t : State, exec (.arrive n) s = .next t ∧ RetiresAs (u.checkTrees s.core) t s.me)
        ∧ (∃ t : State, exec (.waitb n) s = .next t ∧ RetiresAs s t s.me) ∧ settles u)
    ∧ ((s.rd a).toNat / 2 ^ 16 ≠ 0 → Traps (.bmask a) s 0x05 (s.rd a))
    ∧ ((s.rd a).toNat / 2 ^ 16 = 0 → k.arr ≠ 0 → Waits (.bmask a) s 7)
    ∧ ((s.rd a).toNat / 2 ^ 16 = 0 → k.arr = 0 →
        (∃ t : State, exec (.bmask a) s = .next t ∧ RetiresAs (v.checkTrees s.core) t s.me) ∧ settles v)

/-- 08_memory_model.md R160 to R162. -/
def Obligations.Fences : Prop :=
  ∀ (s : State) (m : BitVec 3), (Instr.fence m).wf = true →
    let scope := if m.toNat < 4 then m.toNat else match s.launchOf s.core with
      | some l => l.scope s.me.dlev.toNat
      | none => 3
    let ready := s.me.outstanding = 0 ∧ (1 ≤ scope → s.me.amodReply = [])
      ∧ (1 ≤ scope → s.sending s.core s.ctx (decide (3 ≤ scope)) = false)
      ∧ (3 ≤ scope → s.outward s.core s.ctx = false ∧ s.copying s.core s.ctx = false)
    let others := ∀ c ∈ s.fenceCores scope, ∀ p ∈ (s.coreAt c).ctxs, p.2.live = true → s.unperformed scope c p.1 = false
    let done1 := if scope = 0 then s else if scope = 1 then s.drainQueue s.core s.ctx else s.performModule s.core s.ctx
    (∃ t : State, exec .fencel s = .next t ∧ RetiresAs s t s.me)
    ∧ (¬ ready → Waits (.fence m) s 11 ∧ Waits (.fenceh m) s 11)
    ∧ (¬ others → Waits (.fenceh m) s 11)
    ∧ (ready → (∃ t : State, exec (.fence m) s = .next t ∧ RetiresAs done1 t done1.me)
        ∧ (others → ∃ (t w : State), exec (.fenceh m) s = .next t ∧ RetiresAs w t w.me ∧ w.me.x = s.me.x
            ∧ ∀ c ∈ done1.fenceCores scope, ∀ x, (w.ctxAt c x).storeq = [])
        ∧ (1 ≤ scope → done1.me.storeq = []) ∧ done1.me.x = s.me.x)

/-- 19_graph_sync_estate_instructions.md R370, 04_host_interface.md R75, R78, R79. -/
def Obligations.EventCounters : Prop :=
  ∀ (s : State) (d a b : BitVec 5),
    let v := s.rd a
    let n := s.tenantAt (s.tenOf s.core)
    let j := v.toNat % 2 ^ 12
    let i := tecrBase n.tecr + j
    let known := s.tenOf s.core < 16 ∧ j < tecrCount n.tecr
    let act := v.toNat / 2 ^ 12 % 4
    let vec := v.toNat / 2 ^ 16 % 32
    let good := act ≠ 0 ∧ v.toNat / 2 ^ 14 % 4 = 0 ∧ v.toNat / 2 ^ 21 = 0 ∧ (act ≠ 2 → vec = 0) ∧ vec ≤ 16
    let c := s.counterAt i
    ((¬ known ∨ v.toNat / 2 ^ 12 ≠ 0) → Traps (.ecadd d a b) s 0x05 v ∧ Traps (.ecwait d a b) s 0x05 v)
    ∧ (act = 1 → (s.rd d).toNat % 64 ≠ 0 → Traps (.ectrig d a b) s 0x03 (s.rd d))
    ∧ ((act = 1 → (s.rd d).toNat % 64 = 0) → (¬ known ∨ ¬ good) → Traps (.ectrig d a b) s 0x05 v)
    ∧ (known → v.toNat / 2 ^ 12 = 0 →
        (∃ (t w : State), exec (.ecadd d a b) s = .next t ∧ RetiresAs w t (w.me.wr d c.val) ∧ (w.counterAt i).val = c.val + s.rd b)
        ∧ (∀ g, s.me.grant = some g → Writes (.ecwait d a b) s d g)
        ∧ (s.me.grant = none → (s.rd b).toNat ≤ c.val.toNat → Writes (.ecwait d a b) s d c.val)
        ∧ (s.me.grant = none → c.val.toNat < (s.rd b).toNat →
            s.waiters.any (fun w => w.remote.isNone && decide (w.core = s.core ∧ w.ctx = s.ctx)) = false →
            ∃ w : Waiter, w.kind = .counter (s.rd b) ∧ w.core = s.core ∧ w.ctx = s.ctx ∧
              exec (.ecwait d a b) s = .next ({ s with waiters := s.waiters ++ [w] }.setMe { s.me with stall := 8 })))
    ∧ (known → good →
        ((act = 1 → (s.rd d).toNat % 64 = 0) →
            ((2 ≤ c.trigs.length ∨ (act = 1 ∧ s.depthFull (s.tenOf s.core) = true)) → Writes (.ectrig d a b) s d 5)
            ∧ (c.trigs.length < 2 → (act = 1 → s.depthFull (s.tenOf s.core) = false) → c.val.toNat < (s.rd b).toNat →
                ∃ (t : State) (g : Trigger), exec (.ectrig d a b) s = .next t ∧ g.thr = s.rd b ∧ g.action = act ∧ g.ten = s.tenOf s.core
                  ∧ g.index = j ∧ g.arg = (if act = 1 then s.rd d else BitVec.ofNat 64 vec)
                  ∧ RetiresAs ({ s with trigOrder := s.trigOrder + 1 }.setCounter i { c with trigs := c.trigs ++ [g] }) t
                      (s.me.wr d 0))))

/-- 19_graph_sync_estate_instructions.md R371, R373, R377, 10_estates.md R199. `u` is the state once the context's earlier accesses have reached memory. -/
def Obligations.Locks : Prop :=
  ∀ (s : State) (d a b : BitVec 5) (home : Nat),
    let va := s.rd a
    let heir := s.rd b
    let ten := s.tenOf s.core
    let ctxid := s.ctxidOf s.core
    let group := s.groupOf s.core s.ctx
    let u := s.performModule s.core s.ctx
    let ends := fun (i : Instr) (v : W64) (w : State) => ∃ t : State, exec i s = .next t ∧ RetiresAs w t (w.me.wr d v)
    let lock := Instr.amoLock d a b
    let try1 := Instr.amoTrylock d a b
    let mayClear := s.registered = true ∨ s.me.pl ≠ 0
    let mine := fun (e : Estate) => e.ctxid = ctxid ∧ e.holder = group
    (∀ i ∈ [lock, try1, .amoUnlock d a b, .orphcl d a],
      (isArray s.core = false → Traps i s 0x01 (BitVec.ofNat 64 (encode i)))
      ∧ (isArray s.core = true → (i = .orphcl d a → mayClear) → va.toNat % 8 ≠ 0 → Traps i s 0x03 va))
    ∧ (isArray s.core = true → ¬ mayClear → Traps (.orphcl d a) s 0x02 (BitVec.ofNat 64 (encode (.orphcl d a))))
    ∧ (isArray s.core = true → va.toNat % 8 = 0 → s.resolve s.core s.ctx va 8 true false = .place (.sync home) →
        s.accessFree (upTo home 8) = true → s.me.grant = none → s.deaf (keyDie home) ten ctxid = true →
        ∀ i ∈ [lock, try1, .amoUnlock d a b], Waits i s 15)
    ∧ (isArray s.core = true → va.toNat % 8 = 0 → s.resolve s.core s.ctx va 8 true false = .place (.sync home) →
        s.accessFree (upTo home 8) = true → s.me.grant = none → s.deaf (keyDie home) ten ctxid = false →
        s.waiters.any (fun w => w.remote.isNone && decide (w.core = s.core ∧ w.ctx = s.ctx)) = false →
        (u.heirOk (keyDie home) ten heir = false → ends lock 6 u ∧ ends try1 6 u)
        ∧ (u.heirOk (keyDie home) ten heir = true →
            (u.estateAt 1 home = none →
              (u.estatesFull ten (keyDie home) = true → ends lock 3 u ∧ ends try1 3 u)
              ∧ (u.estatesFull ten (keyDie home) = false → ∃ (w : State) (e : Estate), ends lock 0 w ∧ ends try1 0 w
                  ∧ w.estateAt 1 home = some e ∧ mine e ∧ e.kind = 1 ∧ e.state = 1 ∧ e.bereaved = false ∧ e.ten = ten
                  ∧ e.heir = heir.setWidth 32 ∧ e.heirctx = BitVec.ofNat 32 (heir.toNat / 2 ^ 32)
                  ∧ e.ref = BitVec.ofNat 64 (va.toNat % 2 ^ 56) ∧ w.mem = u.mem ∧ w.cores = u.cores))
            ∧ (∀ e, u.estateAt 1 home = some e → e.state = 2 → ends lock 2 u ∧ ends try1 2 u)
            ∧ (∀ e, u.estateAt 1 home = some e → e.state ≠ 2 → mine e →
                ends lock (if e.bereaved then 1 else 0) u ∧ ends try1 (if e.bereaved then 1 else 0) u)
            ∧ (∀ e, u.estateAt 1 home = some e → e.state ≠ 2 → ¬ mine e → ends try1 4 u
                ∧ ∃ w : Waiter, w.kind = .lock ∧ w.key = home ∧ w.core = s.core ∧ w.ctx = s.ctx
                  ∧ exec lock s = .next ({ u with waiters := u.waiters ++ [w] }.setMe { u.me with stall := 15 })))
        ∧ (∀ e, u.estateAt 1 home = some e → e.state = 2 → ends (.amoUnlock d a b) 2 u)
        ∧ (∀ e, u.estateAt 1 home = some e → e.state ≠ 2 → ¬ mine e → ends (.amoUnlock d a b) 5 u)
        ∧ (u.estateAt 1 home = none → ends (.amoUnlock d a b) 5 u)
        ∧ (∀ e, u.estateAt 1 home = some e → e.state ≠ 2 → mine e → u.waiters.any (fun w => w.key == home && w.kind == .lock) = false →
            ∃ w : State, ends (.amoUnlock d a b) 0 w ∧ w.estateAt 1 home = none ∧ w.mem = u.mem ∧ w.cores = u.cores)
        ∧ (mayClear →
            (∀ e, u.estateAt 1 home = some e → e.state = 2 → u.waiters.any (fun w => w.key == home && w.kind == .lock) = false →
              ∃ w : State, ends (.orphcl d a) 0 w ∧ w.estateAt 1 home = none ∧ w.mem = u.mem ∧ w.cores = u.cores)
            ∧ ((∀ e, u.estateAt 1 home = some e → e.state ≠ 2) → ends (.orphcl d a) 5 u)))

/-- 19_graph_sync_estate_instructions.md R371, R374, R375: `home` is the header or the word's header; kind 2 is an object, 3 a
promise, 1 a lock. -/
def Obligations.HoldingsAndPromises : Prop :=
  ∀ (s : State) (d a b : BitVec 5) (k : BitVec 2) (home f n o : Nat), s.Inv → isArray s.core = true → k ≠ 0 →
    let va := s.rd a
    let heir := s.rd b
    let ten := s.tenOf s.core
    let mine := fun (e : Estate) => e.ctxid = s.ctxidOf s.core ∧ e.holder = s.groupOf s.core s.ctx
    let u := s.performModule s.core s.ctx
    let ends := fun (i : Instr) (v : W64) (w : State) => ∃ t : State, exec i s = .next t ∧ RetiresAs w t (w.me.wr d v)
    let isRef := fun (kind : Nat) =>
      s.me.grant = none ∧ s.waiters.any (fun w => w.remote.isNone && decide (w.core = s.core ∧ w.ctx = s.ctx)) = false
      ∧ s.deaf (keyDie home) ten (s.ctxidOf s.core) = false
      ∧ ((kind = 1 ∧ va.toNat % 8 = 0 ∧ s.resolve s.core s.ctx va 8 true false = .place (.sync home)
          ∧ s.accessFree (upTo home 8) = true)
        ∨ (kind = 2 ∧ va.toNat % 16 = 0 ∧ bitsAt va 56 8 = 0 ∧ poolOf home = none ∧ s.poisoned home 16 = false
            ∧ s.accessFree (upTo home 16) = true
            ∧ (s.resolve s.core s.ctx va 16 true false = .place (.mem home)
              ∨ ∃ ks, s.resolve s.core s.ctx va 16 true false = .bytes (home :: ks)))
        ∨ (kind = 3 ∧ va.toNat % 8 = 0 ∧ home = f * 65536 + o / 8 * 8
            ∧ s.resolve s.core s.ctx va 8 true false = .place (.vers f n o)))
    let flag := fun (w : State) (i : Nat) => (w.peekLe home 2).testBit i
    let made := fun (w : State) (e : Estate) (kind : Nat) => w.estateAt kind home = some e ∧ mine e ∧ e.state = 1
      ∧ e.bereaved = false ∧ e.ten = ten ∧ e.heir = heir.setWidth 32 ∧ e.heirctx = BitVec.ofNat 32 (heir.toNat / 2 ^ 32)
    (va.toNat % 16 ≠ 0 → Traps (.hold d a b) s 0x03 va)
    ∧ (va.toNat % 8 ≠ 0 → Traps (.promise d a b) s 0x05 va)
    ∧ (va.toNat % 8 = 0 → (∃ keys, s.resolve s.core s.ctx va 8 true false = .bytes keys) → Traps (.promise d a b) s 0x05 va)
    ∧ (isRef 2 →
        ((flag u 0 = true ∨ flag u 3 = true ∨ u.heirOk (keyDie home) ten heir = false) → ends (.hold d a b) 6 u)
        ∧ (flag u 0 = false → flag u 3 = false → u.heirOk (keyDie home) ten heir = true →
            ((flag u 1 = true ∨ (u.estateAt 2 home).isSome = true) → ends (.hold d a b) 4 u)
            ∧ (flag u 1 = false → u.estateAt 2 home = none →
                (u.estatesFull ten (keyDie home) = true → ends (.hold d a b) 3 u)
                ∧ (u.estatesFull ten (keyDie home) = false → ∃ (w : State) (e : Estate), ends (.hold d a b) 0 w
                    ∧ made w e 2 ∧ flag w 1 = true ∧ w.objOver home = u.objOver home + 1
                    ∧ (∀ j, j ≠ 1 → flag w j = flag u j)
                    ∧ ∀ q, ¬ (home ≤ q ∧ q < home + 2) → ¬ (home + 12 ≤ q ∧ q < home + 16) → w.peek q = u.peek q))))
    ∧ (isRef 3 →
        (u.heirOk (keyDie home) ten heir = false → ends (.promise d a b) 6 u)
        ∧ (u.heirOk (keyDie home) ten heir = true →
            ((u.estateAt 3 home).isSome = true → ends (.promise d a b) 4 u)
            ∧ (u.estateAt 3 home = none → u.estatesFull ten (keyDie home) = true → ends (.promise d a b) 3 u)
            ∧ (u.estateAt 3 home = none → u.estatesFull ten (keyDie home) = false →
                ∃ (w : State) (e : Estate), ends (.promise d a b) 0 w ∧ made w e 3 ∧ w.mem = u.mem)))
    ∧ (isRef k.toNat →
        (u.estateAt k.toNat home = none → ends (.relq d a k) 5 u ∧ ends (.heir d a b k) 5 u)
        ∧ (∀ e, u.estateAt k.toNat home = some e → k = 1 → e.state = 2 → ends (.relq d a k) 2 u ∧ ends (.heir d a b k) 2 u)
        ∧ (∀ e, u.estateAt k.toNat home = some e → ¬ (k = 1 ∧ e.state = 2) → ¬ mine e →
            ends (.relq d a k) 5 u ∧ ends (.heir d a b k) 5 u)
        ∧ (∀ e, u.estateAt k.toNat home = some e → ¬ (k = 1 ∧ e.state = 2) → mine e →
            (u.heirOk (keyDie home) ten heir = false → ends (.heir d a b k) 6 u)
            ∧ (u.heirOk (keyDie home) ten heir = true → ∃ w : State, ends (.heir d a b k) 0 w ∧ w.mem = u.mem
                ∧ w.estateAt k.toNat home = some { e with heir := heir.setWidth 32, heirctx := BitVec.ofNat 32 (heir.toNat / 2 ^ 32) })
            ∧ (∃ w : State, ends (.relq d a k) 0 w ∧ (k ≠ 1 → w.estateAt k.toNat home = none)
                ∧ (k = 2 → flag w 1 = false ∧ w.objOver home = u.objOver home + 1 ∧ ∀ j, j ≠ 1 → flag w j = flag u j))))

/-- 19_graph_sync_estate_instructions.md R376. A record "goes out" leaving a state when writing its words one after the other
succeeds, whatever the writer goes on to do. -/
def Obligations.EstateQueries : Prop :=
  ∀ (s w : State) (d a b : BitVec 5) (home : Nat), isArray s.core = true →
    let out := s.rd b
    let u := s.performModule s.core s.ctx
    let hears := fun (p : Nat × Arrival) => p.1 = s.tenOf s.core ∧ p.2.hctx = s.ctxidOf s.core ∧ p.2.hgroup = s.groupOf s.core s.ctx
    let goesOut := fun (l : List Byte) => ∀ k, u.putRecord out l k = k w
    (out.toNat % 32 ≠ 0 → Traps (.estq d a b 1) s 0x03 out ∧ Traps (.estqPop d b) s 0x03 out ∧ Traps (.estqWait d b) s 0x03 out)
    ∧ (out.toNat % 32 = 0 → (s.rd a).toNat % 8 = 0 → s.resolve s.core s.ctx (s.rd a) 8 false false = .place (.sync home) →
        s.accessFree (upTo home 8) = true →
        (u.estateAt 1 home = none → ∃ t : State, exec (.estq d a b 1) s = .next t ∧ RetiresAs u t (u.me.wr d 0))
        ∧ (∀ e, u.estateAt 1 home = some e →
            goesOut (leBytes 4 e.ctxid.toNat ++ leBytes 4 e.holder.toNat
              ++ leBytes 8 (e.ref.toNat % 2 ^ 56 + e.kind * 2 ^ 56 + e.state * 2 ^ 59 + (if e.bereaved then 2 ^ 61 else 0))
              ++ leBytes 8 e.seq.toNat ++ leBytes 4 e.heir.toNat ++ leBytes 4 e.heirctx.toNat) →
            ∃ t : State, exec (.estq d a b 1) s = .next t ∧ RetiresAs w t (w.me.wr d 1)))
    ∧ (out.toNat % 32 = 0 → (∀ p ∈ s.arrivals, ¬ hears p) → Writes (.estqPop d b) s d 0 ∧ Waits (.estqWait d b) s 15)
    ∧ (∀ l p r, out.toNat % 32 = 0 → s.arrivals = l ++ p :: r → (∀ p' ∈ l, ¬ hears p') → hears p → w.arrivals = s.arrivals →
        goesOut (leBytes 4 p.2.dseq.toNat ++ leBytes 4 p.2.dctx.toNat ++ leBytes 4 p.2.dgroup.toNat ++ leBytes 4 p.2.nrec.toNat
          ++ leBytes 4 p.2.hctx.toNat ++ leBytes 4 p.2.hgroup.toNat ++ leBytes 8 p.2.time.toNat) →
        ∀ i ∈ [Instr.estqPop d b, .estqWait d b], ∃ t : State, exec i s = .next t
          ∧ RetiresAs { w with arrivals := l ++ r } t (w.me.wr d 1))

/-- 10_estates.md R198 to R205. -/
def Obligations.Deaths : Prop :=
  (∀ (s : State) (die : BitVec 2) (e : Estate) (d : Death) (p q : List Death), s.Inv →
    s.deaths = p ++ d :: q → (∀ d' ∈ p, d'.applied.contains die.toNat = true) → d.applied.contains die.toNat = false →
    (∀ d' ∈ p ++ q, d'.dseq ≠ d.dseq) →
    (s.estatesAt die.toNat).filter (fun f => decide (f.ten = d.ten ∧ f.ctxid = d.ctxid ∧ f.holder = d.group ∧ f.state = 1)) = [e] →
    s.estateAt e.kind e.home = some e → keyDie e.home = die.toNat →
    let s0 := { s with deaths := p ++ { d with applied := die.toNat :: d.applied } :: q }
    let flag := fun (w : State) (i : Nat) => (w.peekLe e.home 2).testBit i
    ∃ (t : State) (d1 : Death), exec (.deathEvent die) s = .next t ∧ t.deaths = p ++ d1 :: q
      ∧ d1.applied = die.toNat :: d.applied ∧ d1.group = d.group ∧ d1.dseq = d.dseq
      ∧ (∀ h, s0.resolveHeir die.toNat e d = some h →
          t.estateAt e.kind e.home
            = some { e with ctxid := h.1, holder := h.2, heir := 0x10000000, heirctx := 0, bereaved := true }
          ∧ (d.got = [] → d1.got = [(h.1, h.2, 1)]) ∧ d1.heirless = d.heirless
          ∧ (e.kind = 2 → flag t 2 = true ∧ t.objOver e.home = s.objOver e.home + 1))
      ∧ (s0.resolveHeir die.toNat e d = none →
          d1.got = d.got
          ∧ (e.kind = 1 → t.estateAt 1 e.home = some { e with state := 2 } ∧ t.mem = s.mem)
          ∧ (e.kind = 2 → t.estateAt 2 e.home = none ∧ flag t 1 = false ∧ flag t 3 = true
              ∧ t.objOver e.home = s.objOver e.home + 1)
          ∧ (e.kind = 3 → t.estateAt 3 e.home = none)))
  ∧ (∀ (s : State), s.deaths = [] → exec .arrivalPost s = .next s)
  ∧ (∀ (s : State) (d : Death) (r : List Death), s.deaths = d :: r →
      ((∃ i, i < 4 ∧ d.applied.contains i = false) → exec .arrivalPost s = .next s)
      ∧ ((∀ i, i < 4 → d.applied.contains i = true) →
          let s1 := { s with deaths := r, deadGroups := s.deadGroups ++ [(d.ten, d.ctxid, d.group)] }
          ∃ t : State, exec .arrivalPost s = .next t ∧ t.deaths = r ∧ t.deadGroups = s1.deadGroups
            ∧ t.arrivals = s.arrivals.filter (fun a => ! decide (a.1 = d.ten ∧ a.2.hctx = d.ctxid ∧ a.2.hgroup = d.group))
                ++ (d.got.filter (fun g => s1.groupLive 0 d.ten g.1 g.2.1)).map (fun g => (d.ten,
                  ({ dseq := d.dseq, dctx := d.ctxid, dgroup := d.group, nrec := BitVec.ofNat 32 g.2.2,
                     hctx := g.1, hgroup := g.2.1, time := s.podTime 0 } : Arrival)))))

/-- 19_graph_sync_estate_instructions.md R359 to R361; `u` is the state once the context's earlier stores have reached memory. -/
def Obligations.ObjectInstructions : Prop :=
  ∀ (s : State) (d a b : BitVec 5) (home dk word : Nat) (runs : List (Nat × Nat)), s.Inv →
    let va := s.rd a
    let u := s.performModule s.core s.ctx
    let q := u.engMe
    let isObj := fun (wr : Bool) => va.toNat % 16 = 0 ∧ bitsAt va 56 8 = 0 ∧ poolOf home = none ∧ s.poisoned home 16 = false
      ∧ s.accessFree (upTo home 16) = true ∧ (s.resolve s.core s.ctx va 16 wr false = .place (.mem home) ∨ ∃ ks, s.resolve s.core s.ctx va 16 wr false = .bytes (home :: ks))
    let len := u.peekLe home 8 / 2 ^ 16 % 2 ^ 24
    let ovr := u.peekLe (home + 12) 4
    let i := (s.rd d).toNat
    let image := s.rd b
    let n := image.toNat / 2 ^ 16 % 2 ^ 24
    let units := (16 + 8 * n + 15) / 16
    let desc := u.runBytes [(dk, 64)]
    let base := recNat desc 0 8
    let limit := recNat desc 8 8
    let bump := recNat desc 16 8
    (isArray s.core = false → Traps (.oalloc d a b) s 0x01 (BitVec.ofNat 64 (encode (.oalloc d a b)))
      ∧ Traps (.ostp d a b) s 0x01 (BitVec.ofNat 64 (encode (.ostp d a b)))
      ∧ Traps (.gstat d a) s 0x01 (BitVec.ofNat 64 (encode (.gstat d a))))
    ∧ (isArray s.core = true →
        (va.toNat % 16 = 0 → 2 ^ 24 ≤ i → Traps (.ostp d a b) s 0x05 (s.rd d))
        ∧ (va.toNat % 16 ≠ 0 → Traps (.gstat d a) s 0x03 va ∧ Traps (.ostp d a b) s 0x03 va)
        ∧ (isObj false → u.poisoned home 16 = false →
            ∃ t : State, exec (.gstat d a) s = .next t
              ∧ RetiresAs u t (u.me.wr d (BitVec.ofNat 64 (u.peekLe home 2 + ovr * 2 ^ 32))))
        ∧ (isObj true → i < 2 ^ 24 →
            ((u.peekLe home 2).testBit 0 = true → exec (.ostp d a b) s = .next (u.trap 0x10 va))
            ∧ ((u.peekLe home 2).testBit 0 = false → len ≤ i → exec (.ostp d a b) s = .next (u.trap 0x10 va))
            ∧ ((u.peekLe home 2).testBit 0 = false → i < len →
                u.resolve u.core u.ctx (va + BitVec.ofNat 64 (16 + 8 * i)) 8 true false = .place (.mem word) →
                u.accessFree (upTo word 8) = true →
                ∃ t : State, exec (.ostp d a b) s = .next t
                  ∧ RetiresAs ((u.pokeLe word 8 (s.rd b).toNat).pokeLe (home + 12) 4 ((ovr + 1) % 2 ^ 32)) t
                      (u.me.wr d (BitVec.ofNat 64 ((ovr + 1) % 2 ^ 32))))))
    ∧ (isArray s.core = true →
        (va.toNat % 64 ≠ 0 → Traps (.oalloc d a b) s 0x03 va)
        ∧ (va.toNat % 64 = 0 → u.engKeys { q with thread := true } va 64 true false = .ok [(dk, 64)] →
            let bad := base % 4096 ≠ 0 ∨ bump % 16 ≠ 0 ∨ bump < base + 512 ∨ limit < bump
            (bad → exec (.oalloc d a b) s = .next (u.trap 0x05 va))
            ∧ (¬ bad → image.toNat % 2 ^ 16 ≠ 0 → exec (.oalloc d a b) s = .next (u.trap 0x05 image))
            ∧ (¬ bad → image.toNat % 2 ^ 16 = 0 →
                (64 ≤ units ∨ u.engWord q (BitVec.ofNat 64 (base + 8 * (units - 1))) false = .ok 0) →
                (limit < bump + 16 * units → ∃ t : State, exec (.oalloc d a b) s = .next t ∧ RetiresAs u t (u.me.wr d 0))
                ∧ (bump + 16 * units ≤ limit →
                    let w := u.descPut dk 16 (bump + 16 * units)
                    w.engKeys q (BitVec.ofNat 64 bump) (16 + 8 * n) true false = .ok runs →
                    let y := w.runWrite runs (leBytes 8 image.toNat ++ leBytes 8 0 ++ leBytes (8 * n) 0)
                    ∃ t : State, exec (.oalloc d a b) s = .next t ∧ RetiresAs y t (y.me.wr d (BitVec.ofNat 64 bump))))
            ∧ (∀ o w1 w, ¬ bad → image.toNat % 2 ^ 16 = 0 → units < 64 → o ≠ 0 →
                u.engWord q (BitVec.ofNat 64 (base + 8 * (units - 1))) false = .ok o →
                u.engWord q (o + 8) true = .ok w1 →
                let link := w1.toNat % 2 ^ 32
                let ver := (w1.toNat / 2 ^ 32 + 1) % 2 ^ 32
                u.engWrite q (BitVec.ofNat 64 (base + 8 * (units - 1)))
                  (leBytes 8 (if link = 0 then 0 else (base + 16 * link) % 2 ^ 64)) false = .ok w →
                w.engKeys q o (16 + 8 * n) true false = .ok runs →
                let y := w.runWrite runs (leBytes 8 image.toNat ++ leBytes 8 (ver * 2 ^ 32) ++ leBytes (8 * n) 0)
                ∃ t : State, exec (.oalloc d a b) s = .next t ∧ RetiresAs y t (y.me.wr d o))))

/-- 19_graph_sync_estate_instructions.md R350, R353 to R358. -/
def Obligations.GraphWalks : Prop :=
  (∀ (s : State) (d a b : BitVec 5) (v : BitVec 1) (p : Instr × Nat) (dk : Nat) (rrun : List (Nat × Nat)),
    p ∈ [(Instr.gcopy d a b v, 0), (.gsend d a b v, 1), (.gcmp d a b v, 2), (.ghash d a b v, 3), (.gfree d a b, 4)] →
    let va := s.rd a
    let root := s.rd b
    let u := s.performModule s.core s.ctx
    let desc := u.runBytes [(dk, 64)]
    let aux : W64 := BitVec.ofNat 64 (recNat desc 56 8)
    let state := recNat desc 32 8 % 16
    let w0 : GWalk :=
      { core := s.core, ctx := s.ctx, reg := d, op := p.2, v := v == 1 && p.2 != 4, root := root, desc := desc, dkey := dk,
        rrun := rrun, base := if p.2 = 1 then 0 else BitVec.ofNat 64 (recNat desc 0 8), stack := [], visited := [],
        snaps := [], skip := 0, off := 0, result := none, hash := if p.2 = 3 then hashStart else [], hashed := 0,
        torn := false, ready := false, waiting := none, part := 0, more := false, err := none }
    let s1 := (u.recWrite w0 0 w0.header).descPut dk 32 (1 + p.2 * 16)
    let z := if (s1.putWalk w0).me.stall = 2 then (s1.putWalk w0).setMe { (s1.putWalk w0).me with stall := stGraph } else s1.putWalk w0
    let nothing := root = 0 ∨ (p.2 = 2 ∧ aux = 0)
    (isArray s.core = false → Traps p.1 s 0x01 (BitVec.ofNat 64 (encode p.1)))
    ∧ (isArray s.core = true → s.walkOf s.core s.ctx = none →
        (va.toNat % 64 ≠ 0 → Traps p.1 s 0x03 va)
        ∧ (va.toNat % 64 = 0 → 4 ≤ s.quadWalks s.core → Waits p.1 s 15)
        ∧ (va.toNat % 64 = 0 → s.quadWalks s.core < 4 → u.engKeys { u.engMe with thread := true } va 64 true false = .ok [(dk, 64)] →
            (descBad desc p.2 = true → exec p.1 s = .next (u.trap 0x05 va))
            ∧ (descBad desc p.2 = false → u.engKeys u.engMe (BitVec.ofNat 64 (recNat desc 40 8)) (recNat desc 48 4) true false = .ok rrun →
                state ≠ 1 → state ≠ 4 →
                (nothing → s.Inv → winOf (dk + 32) = none → (∀ r ∈ rrun, ∀ j, j < r.2 → winOf (r.1 + j) = none) → ∃ w : State, w.peekLe (dk + 32) 8 = 2 + p.2 * 16 ∧ w.cores = u.cores ∧ w.walks = u.walks
                  ∧ (p.2 ≠ 2 → p.2 ≠ 3 → ∃ t : State, exec p.1 s = .next t ∧ RetiresAs w t (u.me.wr d 0))
                  ∧ (p.2 = 2 → ∃ t : State, exec p.1 s = .next t
                      ∧ RetiresAs w t (u.me.wr d (if root = 0 ∧ aux = 0 then 0 else 1)))
                  ∧ (p.2 = 3 → ∀ x, w.engWrite u.engMe aux
                        [0xE3, 0xB0, 0xC4, 0x42, 0x98, 0xFC, 0x1C, 0x14, 0x9A, 0xFB, 0xF4, 0xC8, 0x99, 0x6F, 0xB9, 0x24,
                         0x27, 0xAE, 0x41, 0xE4, 0x64, 0x9B, 0x93, 0x4C, 0xA4, 0x95, 0x99, 0x1B, 0x78, 0x52, 0xB8, 0x55]
                        false = .ok x →
                      ∃ t : State, exec p.1 s = .next t ∧ RetiresAs x t (x.me.wr d 0)))
                ∧ (∀ x w, ¬ nothing → p.2 ≠ 1 → z.walkInterrupted s.core s.ctx = false → x.me.stall ≠ 2 →
                    z.visit u.engMe w0 root (if p.2 = 2 then aux else 0) none = .ok (x, w) →
                    w.core = s.core → w.ctx = s.ctx → w.result = none →
                    exec p.1 s = .next ((x.putWalk { w with ready := false }).setMe { x.me with stall := stGraph }))))))
  ∧ (∀ (s : State) (c x : Nat), s.walkOf c x = none → exec (.graphWalkComplete c x) s = .next s)
  ∧ (∀ (s : State) (c x : Nat) (w : GWalk), s.Inv → s.walkOf c x = some w → w.err = none → winOf (w.dkey + 32) = none →
      (∀ r ∈ w.rrun, ∀ j, j < r.2 → winOf (r.1 + j) = none) →
      let z := s.at c x
      (w.ready = false → exec (.graphWalkComplete c x) s = .next s)
      ∧ (∀ changed, w.ready = true → w.op ≠ 3 → w.op < 5 →
          (if w.v then z.overChanged z.engMe w.visited else .ok false) = .ok changed →
          let result : W64 := if w.op = 0 then (match w.visited with
              | e :: _ => e.oth
              | [] => 0)
            else if w.op = 2 then (match w.result with
              | some v => v
              | none => 0)
            else BitVec.ofNat 64 (w.visited.length - w.skip)
          ∃ (t y : State), exec (.graphWalkComplete c x) s = .next t ∧ y.core = c ∧ y.ctx = x ∧ y.walkOf c x = none ∧ y.cores = s.cores
            ∧ y.peekLe (w.dkey + 32) 8 = (statusWord (if changed = true ∨ w.torn = true then 3 else 2) w.op 0 w.skip w.visited.length).toNat
            ∧ (w.op ≠ 1 → RetiresAs y t (y.me.wr w.reg result))))

/-- 19_graph_sync_estate_instructions.md R355: what the receiving engine does; `l` are the keys of the receive descriptor. -/
def Obligations.GraphReceivers : Prop :=
  (∀ (s : State) (o : GraphOpen) (l : List (Nat × Nat)),
    let d := localVa o.desc
    let b := s.runBytes l
    let bad := descReserved b || arenaBad b || decide (recNat b 32 8 % 16 = 1)
    ∃ t : State, exec (.gsendOpen o) s = .next t
      ∧ (d.toNat % 64 ≠ 0 → t.mem = s.mem ∧ t.grecvs = s.grecvs)
      ∧ (d.toNat % 64 = 0 → s.engKeys { ten := o.ten.toNat, pl := o.pl, core := none } d 64 true false = .ok l →
          (bad = true → t.mem = s.mem ∧ t.grecvs = s.grecvs)
          ∧ (bad = false → t.mem = (s.runWrite (subRuns l 32 8) (leBytes 8 (1 + 1 * 16))).mem
              ∧ ∃ r : GRecv, r.src = o.src ∧ r.ten = o.ten ∧ r.ctxid = o.ctxid ∧ r.desc = d
                ∧ r.base = BitVec.ofNat 64 (recNat b 16 8) ∧ r.top = r.base ∧ r.fwd = []
                ∧ t.grecvs = s.grecvs.filter (fun g => ! decide (g.ten = o.ten ∧ g.desc = d)) ++ [r])))
  ∧ (∀ (s : State) (src : BitVec 6) (ten : BitVec 4) (ctxid : W32) (desc : W64) (pl : Nat) (l : List (Nat × Nat)),
      let d := localVa desc
      let q : EngWho := { ten := ten.toNat, pl := pl, core := none }
      let isOf := fun (g : GRecv) => decide (g.src = src ∧ g.ten = ten ∧ g.ctxid = ctxid ∧ g.desc = d)
      (∀ (o : GraphObject) (k : Nat), o.src = src → o.ten = ten → o.ctxid = ctxid → o.desc = desc → o.pl = pl →
          o.classes.length = o.words.length → o.nullWeak = false → o.offset < 2 ^ 60 → o.first < 2 ^ 32 → winOf k = none →
          ∃ t : State, exec (.gsendObject o) s = .next t
            ∧ (s.grecvs.find? isOf = none → t.mem = s.mem ∧ t.grecvs = s.grecvs)
            ∧ (∀ g, s.grecvs.find? isOf = some g → s.engKeys q d 64 true false = .ok l → recNat (s.runBytes l) 32 8 % 16 = 1 →
                let va := g.base + BitVec.ofNat 64 (16 * o.offset)
                let n := 16 + 8 * o.words.length
                let stop := va.toNat + (16 + 8 * (o.first + o.words.length + o.rest) + 15) / 16 * 16
                let words := o.words.flatMap (fun v => leBytes 8 v.toNat)
                let recorded := fun (t : State) (l : List (BitVec 2)) => ∃ g1 ∈ t.grecvs, isOf g1 = true
                  ∧ Tab.find g1.fwd o.index = some (va, l) ∧ g1.base = g.base ∧ g1.top.toNat = max g.top.toNat (stop % 2 ^ 64)
                (recNat (s.runBytes l) 8 8 < stop → t.mem = s.mem ∧ t.grecvs = s.grecvs)
                ∧ (stop ≤ recNat (s.runBytes l) 8 8 → o.first = 0 → s.engKeys q va n true false = .ok [(k, n)] →
                    t.mem = memPutN s.mem k (leBytes 8 (o.word0.toNat / 2 ^ 16 * 2 ^ 16) ++ leBytes 8 0 ++ words)
                    ∧ recorded t o.classes)
                ∧ (stop ≤ recNat (s.runBytes l) 8 8 → o.first ≠ 0 →
                    s.engKeys q (va + BitVec.ofNat 64 (16 + 8 * o.first)) (8 * o.words.length) true false = .ok [(k, 8 * o.words.length)] →
                    t.mem = memPutN s.mem k words ∧ recorded t ((Tab.get g.fwd (va, []) o.index).2 ++ o.classes))))
      ∧ (∀ (f : GraphFinish) (y : State), f.src = src → f.ten = ten → f.ctxid = ctxid → f.desc = desc → f.pl = pl →
          ∃ t : State, exec (.gsendFinish f) s = .next t
            ∧ (s.grecvs.find? isOf = none → t.mem = s.mem ∧ t.grecvs = s.grecvs)
            ∧ (∀ g, s.grecvs.find? isOf = some g → s.engKeys q d 64 true false = .ok l → recNat (s.runBytes l) 32 8 % 16 = 1 →
                s.rewrite q g.fwd g.fwd = .ok y → y.grecvs = s.grecvs →
                t.mem = ((y.runWrite (subRuns l 16 8) (leBytes 8 g.top.toNat)).runWrite (subRuns l 32 8)
                  (leBytes 8 (statusWord 2 1 0 0 g.fwd.length).toNat)).mem
                ∧ t.grecvs = s.grecvs.filter (fun g => ! isOf g))))

/-- 17_matrix_ring_copy_instructions.md R319 to R323: `c` is the core that holds the ring, `r` the ring. -/
def Obligations.Rings : Prop :=
  ∀ (s : State) (h : BitVec 4) (n a : BitVec 5) (c : Nat) (r : Ring),
    let k := s.myCore
    let own := k.ringAt h.toNat
    let q := (s.coreAt (partnerOf s.core)).ringAt h.toNat
    let ringTrap := fun (i : Instr) (why hd : Nat) => Traps i s 0x0C (BitVec.ofNat 64 (why + 256 * hd))
    let uses := [Instr.hwait h n, .hwaitP h n, .advp h n, .advc h n]
    let found := (own.peer = false ∧ own.slott ≠ 0 ∧ c = s.core ∧ r = own)
      ∨ (own.peer = true ∧ q.slott ≠ 0 ∧ q.peer = false ∧ c = partnerOf s.core ∧ r = q)
    let ready := s.me.outstanding = 0 ∧ s.me.amodReply = [] ∧ s.sending s.core s.ctx false = false
    let first := (s.rd a).toNat % 256
    let tiles := upTo first n.toNat
    let v := s.rd a
    let img : Ring := { base := v.toNat % 256, slott := v.toNat / 2 ^ 8 % 32, nslot := v.toNat / 2 ^ 16 % 256, prod := 0, cons := 0,
                        fill := 0, pside := v.getLsbD 49, cside := v.getLsbD 50, peer := v.getLsbD 51 }
    let why := if v.toNat / 2 ^ 13 % 8 ≠ 0 ∨ v.toNat / 2 ^ 24 % 2 ^ 25 ≠ 0 ∨ v.toNat / 2 ^ 52 ≠ 0 then 4
      else if img.peer then (if v.toNat = 2 ^ 51 then 0 else 4)
      else if img.slott = 0 then 0
      else if img.nslot = 0 ∨ k.scratch < img.base + img.nslot * img.slott then 4
      else if img.pside = true ∧ img.cside = true then 9 else 0
    let own1 := if img.slott = 0 ∨ img.peer = true then [] else upTo img.base (img.nslot * img.slott)
    let u := s.performModule s.core s.ctx
    (∀ i ∈ [Instr.hdef h a, .hwait h n, .hwaitP h n, .hwaitT n a, .advp h n, .advc h n, .advcL n a, .hstat h a],
      isArray s.core = false → Traps i s 0x01 (BitVec.ofNat 64 (encode i)))
    ∧ (n = 0 → (∀ i ∈ [Instr.hwaitT n a, .advp h n, .advc h n, .advcL n a], Traps i s 0x01 (BitVec.ofNat 64 (encode i)))
        ∧ (isArray s.core = true → found → ∀ i ∈ [Instr.hwait h n, .hwaitP h n],
            ∃ t : State, exec i s = .next t ∧ RetiresAs s t s.me))
    ∧ (isArray s.core = true → n ≠ 0 →
        (∀ i ∈ uses, own.peer = false → own.slott = 0 → ringTrap i 1 h.toNat)
        ∧ (∀ i ∈ uses, own.peer = true → (q.slott = 0 ∨ q.peer = true) → ringTrap i 5 h.toNat)
        ∧ (∀ i ∈ uses, found → r.nslot < n.toNat → ringTrap i 2 h.toNat)
        ∧ (found → n.toNat ≤ r.nslot →
            (n.toNat ≤ r.fill → ∃ t : State, exec (.hwait h n) s = .next t ∧ RetiresAs s t s.me)
            ∧ (r.fill < n.toNat → Waits (.hwait h n) s 4)
            ∧ (n.toNat ≤ r.nslot - r.fill → ∃ t : State, exec (.hwaitP h n) s = .next t ∧ RetiresAs s t s.me)
            ∧ (r.nslot - r.fill < n.toNat → Waits (.hwaitP h n) s 5)
            ∧ (r.pside = true → ringTrap (.advp h n) 3 h.toNat)
            ∧ (r.pside = false → r.nslot - r.fill < n.toNat → Waits (.advp h n) s 5)
            ∧ (r.pside = false → n.toNat ≤ r.nslot - r.fill → ¬ ready → Waits (.advp h n) s 11)
            ∧ (r.pside = false → n.toNat ≤ r.nslot - r.fill → ready →
                ∃ (t w : State), exec (.advp h n) s = .next t ∧ RetiresAs w t w.me
                  ∧ (w.coreAt c).ringAt h.toNat = { r with prod := (r.prod + n.toNat) % r.nslot, fill := r.fill + n.toNat }
                  ∧ (r.cside = true → ∀ x ∈ r.slotsTiles r.prod n.toNat, (w.coreAt c).tileE x = true)
                  ∧ (r.cside = false → (w.coreAt c).eTiles = (s.coreAt c).eTiles))
            ∧ (r.cside = true → ringTrap (.advc h n) 3 h.toNat)
            ∧ (r.cside = false → r.fill < n.toNat → Waits (.advc h n) s 4)
            ∧ (r.cside = false → n.toNat ≤ r.fill → ¬ ready → Waits (.advc h n) s 11)
            ∧ (r.cside = false → n.toNat ≤ r.fill → ready →
                ∃ (t w : State), exec (.advc h n) s = .next t ∧ RetiresAs w t w.me
                  ∧ (w.coreAt c).ringAt h.toNat = { r with cons := (r.cons + n.toNat) % r.nslot, fill := r.fill - n.toNat }
                  ∧ (r.pside = true → ∀ x ∈ r.slotsTiles r.cons n.toNat, (w.coreAt c).tileE x = true)
                  ∧ (r.pside = false → (w.coreAt c).eTiles = (s.coreAt c).eTiles)))
        ∧ (k.windowTiles < first + n.toNat → ringTrap (.hwaitT n a) 7 0 ∧ ringTrap (.advcL n a) 7 0)
        ∧ (first < k.scratch → ringTrap (.advcL n a) 7 0)
        ∧ (first + n.toNat ≤ k.windowTiles →
            ((∀ x ∈ tiles, k.tileE x = false) → ∃ t : State, exec (.hwaitT n a) s = .next t ∧ RetiresAs s t s.me)
            ∧ ((∃ x ∈ tiles, k.tileE x = true) → Waits (.hwaitT n a) s 4)
            ∧ (k.scratch ≤ first → (∃ x ∈ tiles, k.tileE x = true) → ringTrap (.advcL n a) 8 0)
            ∧ (k.scratch ≤ first → (∀ x ∈ tiles, k.tileE x = false) → ready →
                ∃ (t w : State), exec (.advcL n a) s = .next t ∧ RetiresAs w t w.me
                  ∧ ∀ x, w.myCore.tileE x = (k.tileE x || decide (x ∈ tiles)))))
    ∧ (isArray s.core = true →
        (why ≠ 0 → ringTrap (.hdef h a) why h.toNat)
        ∧ (why = 0 → s.ringNamed s.core h = true → Waits (.hdef h a) s 15)
        ∧ (why = 0 → s.ringNamed s.core h = false → ready → (∀ x ∈ own1, u.slotHeld s.core (x * 1024) 1024 = false) →
            ∃ (t w : State), exec (.hdef h a) s = .next t ∧ RetiresAs w t w.me ∧ w.myCore.ringAt h.toNat = img
              ∧ (∀ x ∈ own1, w.myCore.tileE x = img.pside) ∧ ∀ g, g ≠ h.toNat → w.myCore.ringAt g = k.ringAt g)
        ∧ (why = 0 → s.ringNamed s.core h = false → ready → (∃ x ∈ own1, u.slotHeld s.core (x * 1024) 1024 = true) →
            ∃ t : State, exec (.hdef h a) s = .next t ∧ t.me.stall = 14 ∧ t.me.pc = s.me.pc)
        ∧ Writes (.hstat h a) s a
            (if own.peer then { own with prod := q.prod, cons := q.cons, fill := q.fill } else own).toW64)

/-- 17_matrix_ring_copy_instructions.md R334, R336, R339. A descriptor "reads as" bytes, leaving a state, when reading its words
gives them whatever the reader goes on to do. -/
def Obligations.CopyCommands : Prop :=
  (∀ (s u : State) (d a : BitVec 5) (p : Instr × Nat) (b : List Byte),
    p ∈ [(Instr.bcopy d a, 0), (.bcast d a, 1), (.deal d a, 2)] →
    let va := s.rd a
    let live := (s.myCore.copies.filter (fun m => m.state == 1)).length
    let len := recNat b 16 4
    let trn := recNat b 20 1 / 2 % 4
    let e := if trn = 3 then 4 else trn
    let aux := recNat b 40 8
    let blk := 64 * (aux % 2 ^ 12)
    let bad := 64 ≤ recNat b 20 1 ∨ recNat b 21 1 ≠ 0 ∨ recNat b 36 4 ≠ 0 ∨ recNat b 48 8 ≠ 0 ∨ recNat b 56 8 ≠ 0
      ∨ len = 0 ∨ 2 ^ 24 < len
      ∨ (trn = 0 ∧ (recNat b 24 2 ≠ 0 ∨ recNat b 26 2 ≠ 0 ∨ recNat b 28 4 ≠ 0 ∨ recNat b 32 4 ≠ 0))
      ∨ (trn ≠ 0 ∧ len ≠ recNat b 24 2 * recNat b 26 2 * e)
      ∨ (p.2 = 0 ∧ aux ≠ 0) ∨ (p.2 = 1 ∧ aux = 0)
      ∨ (p.2 = 2 ∧ (blk = 0 ∨ aux / 2 ^ 12 % 2 ^ 8 = 0 ∨ 64 < aux / 2 ^ 12 % 2 ^ 8 ∨ aux / 2 ^ 20 % 2 ^ 12 = 0
          ∨ aux / 2 ^ 32 ≠ 0 ∨ len % blk ≠ 0))
    let window := 0xFE ≤ recNat b 14 1 ∧ recNat b 12 1 % 16 ≠ 0
    (isArray s.core = false → Traps p.1 s 0x01 (BitVec.ofNat 64 (encode p.1)))
    ∧ (isArray s.core = true → va.toNat % 64 ≠ 0 → Traps p.1 s 0x03 va)
    ∧ (isArray s.core = true → va.toNat % 64 = 0 → 8 ≤ live → Waits p.1 s 15)
    ∧ (isArray s.core = true → va.toNat % 64 = 0 → live < 8 → (∀ k, s.readRecord va 8 [] k = k b u) →
        (bad → exec p.1 s = .next (u.trap 0x05 va))
        ∧ (∀ o, ¬ bad → ¬ window → u.myCore.thread = some o →
            ∃ (t : State) (m : CopyCmd) (keep : List CopyCmd), exec p.1 s = .next t
              ∧ m.tag = u.myCore.copyTag ∧ m.op = p.2 ∧ m.owner = o ∧ m.ctx = u.ctx ∧ m.desc = b ∧ m.state = 1
              ∧ m.phase = 0 ∧ m.parked = none ∧ m.out = []
              ∧ (∀ x ∈ u.myCore.copies, x.state = 1 → x ∈ keep) ∧ (∀ x ∈ keep, x ∈ u.myCore.copies)
              ∧ RetiresAs (u.setMyCore { u.myCore with copyTag := u.myCore.copyTag + 1, copies := keep ++ [m] }) t
                  (u.me.wr d (u.myCore.copyTag.setWidth 64)))))
  ∧ (∀ (s : State) (d a : BitVec 5) (sel : BitVec 3), (Instr.cstat d a sel).wf = true →
      let tag : BitVec 16 := (s.rd a).setWidth 16
      let age := (s.myCore.copyTag - tag).toNat
      (isArray s.core = false → Traps (.cstat d a sel) s 0x01 (BitVec.ofNat 64 (encode (.cstat d a sel))))
      ∧ (isArray s.core = true →
          ((age = 0 ∨ 16 < age ∨ ∀ m ∈ s.myCore.copies, m.tag ≠ tag) → Writes (.cstat d a sel) s d 0)
          ∧ (∀ (l : List CopyCmd) (m : CopyCmd) (r : List CopyCmd), s.myCore.copies = l ++ m :: r → (∀ x ∈ l, x.tag ≠ tag) → m.tag = tag → 1 ≤ age → age ≤ 16 →
              let word := BitVec.ofNat 64 (m.state + m.cause.toNat * 2 ^ 8)
              (sel = 0 → Writes (.cstat d a sel) s d word)
              ∧ (sel = 1 → m.state = 1 → Waits (.cstat d a sel) s 15)
              ∧ (sel = 1 → m.state ≠ 1 → Writes (.cstat d a sel) s d word)
              ∧ (sel = 2 → Writes (.cstat d a sel) s d (if m.state = 2 then m.scrc.setWidth 64 else 0))
              ∧ (sel = 3 → Writes (.cstat d a sel) s d (if m.state = 2 then m.dcrc.setWidth 64 else 0))
              ∧ (sel = 4 → Writes (.cstat d a sel) s d m.mask)
              ∧ (sel = 5 → m.badTiles = [] → m.farBad = false → ∃ t : State, exec (.cstat d a sel) s = .next t
                  ∧ t.mem = s.mem ∧ t.me = { s.me.wr d 0 with pc := s.me.pc + 4, stall := 0, grant := none, joining := false }))))

/-- 17_matrix_ring_copy_instructions.md R334, R335: the local transfer between plain places; R332: a source that fails. -/
def Obligations.CopyEngine : Prop :=
  (∀ (s : State) (c : Nat) (tag : BitVec 16) (host : List Byte),
    ((s.coreAt c).copies.find? (fun m => decide (m.tag = tag ∧ m.state = 1)) = none →
      exec (.copyCommandComplete c tag host) s = .next s)
    ∧ (∀ m, (s.coreAt c).copies.find? (fun m => decide (m.tag = tag ∧ m.state = 1)) = some m →
        (m.parked ≠ none ∨ (s.clusterAt (clusterOf c)).halted = true) → exec (.copyCommandComplete c tag host) s = .next s))
  ∧ (∀ (s : State) (c : Nat) (tag : BitVec 16) (host : List Byte) (m : CopyCmd), s.Inv →
      (s.coreAt c).copies.find? (fun m => decide (m.tag = tag ∧ m.state = 1)) = some m → m.parked = none →
      (s.clusterAt (clusterOf c)).halted = false → m.phase = 0 → m.out = [] → m.op = 0 → recNat m.desc 20 1 = 0 →
      let q : EngWho := { ten := m.owner.1, pl := m.pl, core := some c, ctx := m.ctx }
      let src := cSrc m.desc
      let dst := cDst m.desc
      let n := cLen m.desc
      let onePage := fun (va : W64) => bitsAt va 56 8 = 0 ∧ bitsAt va 48 8 < 0xFE ∧ va.toNat % 65536 + n ≤ 65536
      onePage src → onePage dst → 0 < n → (∀ p ∈ s.clusters, p.2.port = []) →
      (∀ ks kd, s.copyPart q m.owner src n false = .ok (.key ks) → s.copyPart q m.owner dst n true = .ok (.key kd) →
        ∃ t : State, exec (.copyCommandComplete c tag host) s = .next t
          ∧ (∀ a, t.peek a = if kd ≤ a ∧ a < kd + n then s.peek (ks + (a - kd)) else s.peek a)
          ∧ ((t.coreAt c).copies.find? (fun x => decide (x.tag = tag ∧ x.state = 1)) = none)
          ∧ ∃ x ∈ (t.coreAt c).copies, x.tag = tag ∧ x.state = 2)
      ∧ (∀ cause va, s.copyPart q m.owner src n false = .error (.trap cause va) →
          ∃ t : State, exec (.copyCommandComplete c tag host) s = .next t ∧ t.mem = s.mem
            ∧ ∃ x ∈ (t.coreAt c).copies, x.tag = tag ∧ x.state = 3 ∧ x.cause = BitVec.ofNat 8 cause))

/-- 17_matrix_ring_copy_instructions.md R326 to R331. -/
def Obligations.MatrixIssue : Prop :=
  ∀ (s : State) (h w : BitVec 4) (sl : BitVec 6) (t rnd : BitVec 3) (z v q ui : BitVec 1) (a b : BitVec 5),
    let mma := Instr.mma h w sl t z v
    let mdrain := Instr.mdrain a q t ui rnd
    let x := s.rd a
    let y := s.rd b
    let k := s.myCore
    let ring := k.ringAt h.toNat
    let word := fun (i : Instr) => BitVec.ofNat 64 (encode i)
    let rows := x.toNat / 2 ^ 6 % 64 + 1
    let draws := if (if rnd.toNat = 5 then s.me.rm else rnd.toNat) = 6 then 64 * rows else 0
    let array := isArray s.core = true
    let issue := array ∧ s.core % 2 = 1
    let fits := ring.peer = false ∧ ring.pside = false ∧ ring.cside = true
      ∧ ring.slott = (if t.toNat ≤ 2 then 12 else 13)
    let enters := fun (i : Instr) (vals : List W64) (u : State) (c : Ctx) =>
      (4 ≤ k.mqueue.length → Waits i s s.mStall)
      ∧ (∀ o, k.mqueue.length < 4 → k.thread = some o → ∃ (t : State) (m : MCmd), exec i s = .next t
          ∧ m.insn = i ∧ m.vals = vals ∧ m.owner = o ∧ m.core = s.core ∧ m.ctx = s.ctx ∧ m.parked = none
          ∧ RetiresAs (u.setMyCore { u.myCore with mqueue := k.mqueue ++ [m] }) t c)
    (∀ i ∈ [mma, .mclr, mdrain, .mmap a, .wbload a b, .mswap, .mpert a b, .mchk a, .mstat a b], i.wf = true →
      (isArray s.core = false → Traps i s 0x01 (word i)))
    ∧ (∀ i ∈ [mma, .mclr, .mmap a, .mswap, .mchk a], i.wf = true → array → s.core % 2 = 0 → Traps i s 0x0D (word i))
    ∧ (issue → mma.wf = true →
        (ring.slott = 0 → ring.peer = false → Traps mma s 0x0C (BitVec.ofNat 64 (1 + 256 * h.toNat)))
        ∧ ((ring.slott ≠ 0 ∨ ring.peer = true) → ¬ fits → Traps mma s 0x0C (BitVec.ofNat 64 (6 + 256 * h.toNat)))
        ∧ (fits → ring.nslot < w.toNat → Traps mma s 0x0C (BitVec.ofNat 64 (2 + 256 * h.toNat)))
        ∧ (fits → w.toNat ≤ ring.nslot → enters mma [] (s.countOn s.core 5 1) s.me))
    ∧ (issue → enters .mclr [] s s.me ∧ enters .mswap [] s s.me ∧ enters (.mchk a) [x] s s.me)
    ∧ (issue → (Instr.mmap a).wf = true → enters (.mmap a) [x, s.rd (a + 1), s.rd (a + 2), s.rd (a + 3)] s s.me)
    ∧ (array → mdrain.wf = true →
        ((x.toNat / 2 ^ 19 ≠ 0 ∨ 64 < x.toNat % 64 + rows) → Traps mdrain s 0x05 x)
        ∧ (x.toNat / 2 ^ 19 = 0 → x.toNat % 64 + rows ≤ 64 →
            (s.core % 2 = 0 → Traps mdrain s 0x0D (word mdrain))
            ∧ (s.core % 2 = 1 → enters mdrain [x] s { s.me with rndctr := s.me.rndctr + BitVec.ofNat 64 draws })))
    ∧ (array →
        (x.toNat % 64 ≠ 0 → Traps (.wbload a b) s 0x03 x)
        ∧ (x.toNat % 64 = 0 → y.toNat / 2 ^ 22 ≠ 0 → Traps (.wbload a b) s 0x05 y)
        ∧ (x.toNat % 64 = 0 → y.toNat / 2 ^ 22 = 0 →
            (s.core % 2 = 0 → Traps (.wbload a b) s 0x0D (word (.wbload a b)))
            ∧ (s.core % 2 = 1 → enters (.wbload a b) [x, y] s s.me)))
    ∧ (array →
        (s.me.status.getLsbD 6 = false → Traps (.mpert a b) s 0x02 (word (.mpert a b)))
        ∧ (s.me.status.getLsbD 6 = true → x.toNat / 2 ^ 56 ≠ 0 → Traps (.mpert a b) s 0x05 x)
        ∧ (s.me.status.getLsbD 6 = true → x.toNat / 2 ^ 56 = 0 → y.toNat / 2 ^ 12 ≠ 0 → Traps (.mpert a b) s 0x05 y)
        ∧ (s.me.status.getLsbD 6 = true → x.toNat / 2 ^ 56 = 0 → y.toNat / 2 ^ 12 = 0 →
            (s.core % 2 = 0 → Traps (.mpert a b) s 0x0D (word (.mpert a b)))
            ∧ (s.core % 2 = 1 → enters (.mpert a b) [x, y] s s.me)))
    ∧ (array →
        (x.toNat / 2 ^ 12 % 2 ^ 51 ≠ 0 → Traps (.mstat a b) s 0x05 x)
        ∧ (x.toNat / 2 ^ 12 % 2 ^ 51 = 0 →
            (s.core % 2 = 0 → Traps (.mstat a b) s 0x0D (word (.mstat a b)))
            ∧ (s.core % 2 = 1 → s.mBusy s.core = true → Waits (.mstat a b) s 15)
            ∧ (s.core % 2 = 1 → s.mBusy s.core = false →
                let item := x.toNat % 2 ^ 12
                let e := Tab.get (s.clusterAt (clusterOf s.core)).slots WSlot.reset (item - 0x100)
                (0x100 ≤ item → item < 0x140 → Writes (.mstat a b) s b
                  (BitVec.ofNat 64 (e.line + e.nline * 2 ^ 13 + e.ceil * 2 ^ 22 + e.type * 2 ^ 24 + e.state * 2 ^ 27)))
                ∧ (item ≠ 0 → (item < 0x100 ∨ 0x140 ≤ item) → Writes (.mstat a b) s b 0))))

/-- 17_matrix_ring_copy_instructions.md R327, R329. -/
def Obligations.MatrixEngine : Prop :=
  (∀ (s : State) (cl : BitVec 8) (r : MRun), (s.clusterAt cl.toNat).run = some r →
    let k := s.clusterAt cl.toNat
    let b := k.bank r.bank
    let o := (r.cmd.owner.1, r.cmd.owner.2.1)
    let val := fun (n : Nat) => nth r.cmd.vals 0 n
    exec (.matrixCommandTake cl) s = .next s
    ∧ (b.holder = some o → r.bank < 2 → ∃ t : State, exec (.matrixCommandComplete cl) s = .next t
        ∧ (r.cmd.insn = .mclr → (t.clusterAt cl.toNat).run = none
            ∧ (t.clusterAt cl.toNat).bank r.bank = { b with elems := [] } ∧ t.mem = s.mem)
        ∧ (∀ a, r.cmd.insn = .mmap a → (t.clusterAt cl.toNat).run = none
            ∧ (∀ e, e < 64 → Tab.get ((t.clusterAt cl.toNat).bank r.bank).map 0 e
                = (val (e / 16)).toNat / 2 ^ (4 * (e % 16)) % 16)
            ∧ ((t.clusterAt cl.toNat).bank r.bank).elems = b.elems)
        ∧ (r.cmd.insn = .mswap → (k.bank (1 - r.bank)).holder = some o →
            (t.clusterAt cl.toNat).activeOf o = some (1 - r.bank) ∧ (t.clusterAt cl.toNat).bank0 = k.bank0
            ∧ (t.clusterAt cl.toNat).bank1 = k.bank1)
        ∧ (∀ a c, r.cmd.insn = .mpert a c →
            (t.clusterAt cl.toNat).pert = some (val 0, (val 1).toNat % 64, (val 1).toNat / 64 % 64))
        ∧ (∀ a, r.cmd.insn = .mchk a → (∀ i, i < 2 → (k.bank i).holder = some o → ((t.clusterAt cl.toNat).bank i).count = 0)
            ∧ (t.clusterAt cl.toNat).chkN = (if (val 0).toNat % 65536 = 0 then 0 else max 16 ((val 0).toNat % 65536)))
        ∧ (∀ h w sl ty z v opA, r.cmd.insn = .mma h w sl ty z v → r.opA = some opA → r.pert = none → r.errs = [] →
            let slot := Tab.get k.slots WSlot.reset sl.toNat
            s.poisoned (weightKey cl.toNat (64 * slot.line)) (64 * slot.nline) = false →
            let rowA := fun (i : Nat) => operandRow ty.toNat (opA.take 12288) (opA.drop 12288) i
            let colB := fun (j : Nat) => operandRow ty.toNat (k.slotData slot) slot.scales j
            (t.clusterAt cl.toNat).run = none ∧ t.mem = s.mem
            ∧ ∀ i j, i < 64 → j < 64 →
                let sum := (dotSum { } (rowA i).1 (colB j).1).value
                let old := if z = 1 then 0 else (Tab.get b.elems 0 (64 * i + j)).toNat
                (Tab.get ((t.clusterAt cl.toNat).bank r.bank).elems 0 (64 * i + j))
                  = BitVec.ofNat 64 (accumulate old sum.1 sum.2).1)))
  ∧ (∀ (s : State) (cl : BitVec 8) (r : MRun) (h w : BitVec 4) (sl : BitVec 6) (ty : BitVec 3) (z adv : BitVec 1) (k : Core),
      (s.clusterAt cl.toNat).run = some r → r.cmd.insn = .mma h w sl ty z adv → r.opA = none →
      (s.coreAt r.cmd.core).thread = some r.cmd.owner → k = s.coreAt r.cmd.core →
      let ring := k.ringAt h.toNat
      let tiles := ring.slotTiles ring.cons
      let key := poolKey r.cmd.core (1024 * (ring.base + ring.cons * ring.slott))
      (k.engineOk tiles = true → (∀ x ∈ tiles, Tab.get k.holders .free x = .running) → s.poisoned key (1024 * ring.slott) = false →
        ∃ t : State, exec (.mmaAReadEnd cl) s = .next t ∧ t.mem = s.mem
          ∧ (t.clusterAt cl.toNat).run = some { r with opA := some (s.peekN key (1024 * ring.slott)) }
          ∧ ∀ x, (t.coreAt r.cmd.core).tileE x = (k.tileE x && ! (adv == 1 && decide (x ∈ tiles))))
      ∧ (k.engineOk tiles = false → ∃ t : State, exec (.mmaAReadEnd cl) s = .next t ∧ (t.clusterAt cl.toNat).run = none ∧ t.mem = s.mem))
  ∧ (∀ (s : State) (cl : BitVec 8) (c i : Nat) (m : MCmd) (q : List MCmd),
      let k := s.clusterAt cl.toNat
      let o := (m.owner.1, m.owner.2.1)
      k.run = none → k.wbload = none → k.halted = false → k.gatedAt = none → clusterOf c = cl.toNat →
      (s.coreAt c).mqueue = m :: q → (∀ d, clusterOf d = cl.toNat → d ≠ c → (s.coreAt d).mqueue = []) →
      m.insn = .mclr → k.activeOf o = some i → k.reload = [] →
      ∃ t : State, exec (.matrixCommandTake cl) s = .next t ∧ (t.coreAt c).mqueue = q ∧ t.mem = s.mem
        ∧ ∃ r, (t.clusterAt cl.toNat).run = some r ∧ r.cmd = m ∧ r.bank = i)
  ∧ (∀ (s : State) (cl : BitVec 8) (m : MCmd), (s.clusterAt cl.toNat).wbload = some m → m.parked = none →
      let k := s.clusterAt cl.toNat
      let x := nth m.vals 0 1
      let slot := x.toNat % 64
      let line := x.toNat / 2 ^ 8 % 2 ^ 13
      let q : EngWho := { ten := m.owner.1, pl := m.pl, core := some m.core, ctx := m.ctx }
      (∀ raw st, s.readStream q (nth m.vals 0 0) = .ok (raw, st) →
        let nl := st.records.length / 64
        let fits := st.ceild ≤ x.toNat / 64 % 4 ∧ nl ≤ 511 ∧ line + nl ≤ 8192
          ∧ ∀ p ∈ k.slots, p.1 ≠ slot → p.2.state ≠ 0 → ¬ (line < p.2.line + p.2.nline ∧ p.2.line < line + nl)
        (fits → ∃ t : State, exec (.wbloadComplete cl) s = .next t ∧ t.mem = s.mem ∧ (t.clusterAt cl.toNat).wbload = none
          ∧ Tab.get (t.clusterAt cl.toNat).slots WSlot.reset slot
            = { line := line, nline := nl, ceil := x.toNat / 64 % 4, type := st.type, state := 2, scales := st.scales })
        ∧ (¬ fits → ∃ t : State, exec (.wbloadComplete cl) s = .next t ∧ t.mem = s.mem ∧ (t.clusterAt cl.toNat).wbload = none
          ∧ (Tab.get (t.clusterAt cl.toNat).slots WSlot.reset slot).state = 3))
      ∧ (∀ cause va, s.readStream q (nth m.vals 0 0) = .error (.trap cause va) →
          ∃ t : State, exec (.wbloadComplete cl) s = .next t ∧ t.mem = s.mem ∧ (t.clusterAt cl.toNat).wbload = none
            ∧ (Tab.get (t.clusterAt cl.toNat).slots WSlot.reset slot).state = 3))

/-- 16_vector_instructions.md R295, R296, R299, 06_scheduling.md R110. A row of the table is an instruction with the vector
registers it names, the control bits it may set, whether its mode comes from the control word, and its x result. -/
def Obligations.VectorIssue : Prop :=
  ∀ (s : State) (t : BitVec 3) (d a b : BitVec 5) (x : BitVec 4) (k e f : BitVec 3) (j i1 : BitVec 1) (op : BitVec 2) (fn : BitVec 4),
    let q := s.myCore
    let v1 := s.rd (pairLo x)
    let v2 := s.rd (pairHi x)
    let g := s.me.vgrant.toNat
    let word := fun (i : Instr) => BitVec.ofNat 64 (encode i)
    let three := fun (i : Instr) (ctl : Nat) (rm : Bool) => (i, [a, b, d], ctl, rm, (none : Option (BitVec 5)))
    let two := fun (i : Instr) (ctl : Nat) (rm : Bool) => (i, [a, d], ctl, rm, (none : Option (BitVec 5)))
    let rows : List (Instr × List (BitVec 5) × Nat × Bool × Option (BitVec 5)) :=
      [three (.vaddF t d a b x) 0xFF true, three (.vsubF t d a b x) 0xFF true, three (.vmulF t d a b x) 0xFF true,
       three (.vfma t d a b x) 0xFF true, three (.vminF t d a b x) 0x0F false, three (.vmaxF t d a b x) 0x0F false,
       three (.vdiv t d a b x) 0xFF true, two (.vsqrt t d a x) 0x7F true, two (.vabsF t d a x) 0x0F false,
       three (.vaddI t d a b x) 0x8F false, three (.vsubI t d a b x) 0x8F false, three (.vmulI t d a b x) 0x8F false,
       three (.vmulh t d a b x) 0x0F false, three (.vminI t d a b x) 0x0F false, three (.vmaxI t d a b x) 0x0F false,
       two (.vabsI t d a x) 0x8F false, three (.vand t d a b x) 0x0F false, three (.vor t d a b x) 0x0F false,
       three (.vxor t d a b x) 0x0F false, three (.vshl t d a b x) 0x0F false, three (.vshr t d a b x) 0x0F false,
       three (.vshra t d a b x) 0x0F false, (.vcmpeq t j k a b x, [a, b], 0x0F, false, none),
       (.vcmpne t j k a b x, [a, b], 0x0F, false, none), (.vcmplt t j k a b x, [a, b], 0x0F, false, none),
       (.vcmple t j k a b x, [a, b], 0x0F, false, none), three (.vsel t d a b x) 0x07 false,
       (.vbcast t d x, [d], 0x0F, false, none), three (.vperm t d a b x) 0x0F false, two (.vslide t d a x) 0x0F false,
       (.vidx t d x, [d], 0x0F, false, none),
       two (.vred t d a j op x) (if j = 1 ∧ (op = 0 ∨ op = 3) then 0xF7 else 0x77) true,
       two (.vcvt t d a j i1 e x) 0xFF true, three (.vqnt t d a b x) 0x1F0 true, three (.vdqnt t d a b x) 0 false,
       two (.vsfu t d a fn x) 0xFF true]
    let masks : List (Instr × List (BitVec 5) × Nat × Bool × Option (BitVec 5)) :=
      [(.kand k e f x, [], 2 ^ 64 - 1, false, none), (.kor k e f x, [], 2 ^ 64 - 1, false, none),
       (.kxor k e f x, [], 2 ^ 64 - 1, false, none), (.knot k e x, [], 2 ^ 64 - 1, false, none),
       (.kpopc d e x, [], 2 ^ 64 - 1, false, some d)]
    let memory := [(Instr.vld t d x, [d]), (.vst t d x, [d]), (.vlds t d x, [d]), (.vsts t d x, [d]), (.vgath t d b x, [b, d]),
      (.vscat t d b x, [b, d])]
    let lacks := fun (l : List (BitVec 5)) (r : Nat) => q.nvr ≤ r ∧ (∃ v ∈ l, v.toNat = r)
      ∧ ∀ v ∈ l, v.toNat < r → v.toNat < q.nvr
    let present := fun (l : List (BitVec 5)) => ∀ v ∈ l, v.toNat < q.nvr
    let u := s.countOn s.core 3 1
    let moving := ∀ m ∈ q.vq, m.passes ≠ 0
    (∀ p ∈ rows ++ masks ++ [((.vmovx t d a x : Instr), [a], 0xFF, false, some d)], p.1.wf = true →
      let mode := if p.2.2.2.1 then (if v1.toNat / 16 % 8 = 5 then s.me.rm else v1.toNat / 16 % 8) else 0
      let isRed := p.1 = .vred t d a j op x
      let okWord := Nat.land v1.toNat (2 ^ 64 - 1 - p.2.2.1) = 0 ∧ (p.2.2.2.1 = true → v1.toNat / 16 % 8 ≠ 7)
      (isArray s.core = false → Traps p.1 s 0x01 (word p.1))
      ∧ (isArray s.core = true →
          (∀ r, r < 32 → lacks p.2.1 r → Traps p.1 s 0x0A (BitVec.ofNat 64 r))
          ∧ (present p.2.1 → ¬ okWord → Traps p.1 s 0x01 (word p.1))
          ∧ (present p.2.1 → okWord → 16 ≤ q.vq.length → Waits p.1 s 3)
          ∧ (present p.2.1 → okWord → q.vq.length < 16 → 16 ≤ g → moving →
              ∃ (w : State) (m : VCmd), exec p.1 s = .next w ∧ m.insn = p.1 ∧ m.ctx = s.ctx ∧ m.v1 = v1 ∧ m.v2 = v2
                ∧ m.grant = g ∧ m.rm = mode ∧ m.base = s.me.rndctr ∧ m.bound = 0 ∧ m.done = 0 ∧ m.parked = none
                ∧ RetiresAs (u.setMyCore { u.myCore with vq := q.vq ++ [m] }) w
                    { s.me with
                      rndctr := s.me.rndctr + (if mode = 6 ∧ ¬ isRed then BitVec.ofNat 64 g else 0),
                      pends := s.me.pends ++ (match p.2.2.2.2 with
                        | some r => [{ reg := r, va := 0, nb := 8, signed := false, place := .vec, pc := s.me.pc, keep := false,
                                       answer := none, got := [], ui := s.me.ui }]
                        | none => []) })))
    ∧ (∀ p ∈ memory, p.1.wf = true →
        let free := s.me.grant = none ∧ s.vWaiting = none
        (isArray s.core = false → Traps p.1 s 0x01 (word p.1))
        ∧ (isArray s.core = true →
            (s.me.grant ≠ none → ∃ w : State, exec p.1 s = .next w ∧ RetiresAs s w s.me)
            ∧ (∀ r, r < 32 → free → lacks p.2 r → Traps p.1 s 0x0A (BitVec.ofNat 64 r))
            ∧ (free → present p.2 → v2.toNat / 2 ^ 51 ≠ 0 → Traps p.1 s 0x01 (word p.1))
            ∧ (free → present p.2 → v2.toNat / 2 ^ 51 = 0 → q.vq.length < 16 → 16 ≤ g → moving →
                ∃ (w : State) (m : VCmd), exec p.1 s = .next w ∧ m.insn = p.1 ∧ m.ctx = s.ctx ∧ m.v1 = v1 ∧ m.v2 = v2
                  ∧ m.grant = g ∧ m.bound = 0 ∧ m.done = 0 ∧ w.myCore.vq = q.vq ++ [m] ∧ w.me.pc = s.me.pc
                  ∧ w.me.stall = stVec ∧ w.me.x = s.me.x ∧ w.mem = s.mem)))

/-- 06_scheduling.md R112, 16_vector_instructions.md R315 to R317. -/
def Obligations.VectorControl : Prop :=
  ∀ (s : State) (d : BitVec 5) (x : BitVec 4), (Instr.vclaim d x).wf = true → (Instr.vfence x).wf = true →
    (Instr.vpopq d x).wf = true → (Instr.vstat d x).wf = true →
    let k := s.myCore
    let q := (s.rd (pairLo x)).toNat
    let vwt := fun (c : Nat) => match s.launchOf c with
      | some l => recNat l.record 0 8 / 256 % 16
      | none => 0
    let granted := fun (c : Nat) => (s.coreAt c).ctxs.any (fun p => p.2.live && decide (p.2.vgrant ≠ 0))
    let w := ((upTo (s.core / 8 * 8) 8).filter (fun c => decide (c = s.core) || granted c)).foldl (fun n c => n + vwt c) 0
    let g := if q = 0 then 0 else min ((min q 256 + 15) / 16 * 16) (16 * max 1 (16 * vwt s.core / w))
    let u := s.countOn s.core 3 1
    let oc := s.octetAt (octetOf s.core)
    let mine := fun (l : List (Nat × Nat)) => (l.filter (fun r => decide (r.1 = s.core ∧ r.2 = s.ctx))).length
    let resv := if k.pops s.ctx < mine oc.resv then oc.resv else oc.resv ++ [(s.core, s.ctx)]
    (∀ i ∈ [Instr.vclaim d x, .vstat d x, .vfence x, .vpopq d x], isArray s.core = false →
      Traps i s 0x01 (BitVec.ofNat 64 (encode i)))
    ∧ (isArray s.core = true →
        (∃ t : State, exec (.vclaim d x) s = .next t
          ∧ RetiresAs u t ({ s.me with vgrant := BitVec.ofNat 9 g }.wr d (BitVec.ofNat 64 g)))
        ∧ (∃ t : State, exec (.vstat d x) s = .next t ∧ RetiresAs u t (s.me.wr d (BitVec.ofNat 64
            (k.vq.length + (if k.vq.any (fun m => decide (m.ctx = s.ctx)) then 32 else 0) + 2 ^ 8 * k.vBound
              + 2 ^ 16 * s.me.vgrant.toNat))))
        ∧ (s.me.grant ≠ none → ∃ t : State, exec (.vfence x) s = .next t ∧ RetiresAs s t s.me)
        ∧ (s.me.grant = none → k.vq = [] → ∃ t : State, exec (.vfence x) s = .next t ∧ RetiresAs u t s.me)
        ∧ (s.me.grant = none → s.vWaiting = none → 0 < k.vq.length → k.vq.length < 16 → (∀ m ∈ k.vq, m.passes ≠ 0) →
            ∃ (t : State) (m : VCmd), exec (.vfence x) s = .next t ∧ m.insn = .vfence x ∧ m.ctx = s.ctx ∧ t.myCore.vq = k.vq ++ [m]
              ∧ t.me.pc = s.me.pc ∧ t.me.stall = 15 ∧ t.mem = s.mem)
        ∧ (k.nvr ≤ d.toNat → Traps (.vpopq d x) s 0x0A (BitVec.ofNat 64 d.toNat))
        ∧ (d.toNat < k.nvr →
            let row := lastResv s.core s.ctx resv 0 0
            let y := s.setOctet (octetOf s.core) { oc with resv := resv }
            (oc.accq.length ≤ row → exec (.vpopq d x) s = .next (y.setMe { y.me with stall := 15 }))
            ∧ (row < oc.accq.length → k.vq.length < 16 → (∀ m ∈ k.vq, m.passes ≠ 0) →
                ∃ (t : State) (m : VCmd), exec (.vpopq d x) s = .next t ∧ m.insn = .vpopq d x ∧ m.ctx = s.ctx ∧ t.myCore.vq = k.vq ++ [m]
                  ∧ t.me.pc = s.me.pc + 4 ∧ t.me.stall = 0 ∧ (t.octetAt (octetOf s.core)).resv = resv ∧ t.mem = s.mem)))

/-- 16_vector_instructions.md R293, R297, R299 to R302, R304, R308, R311, R314. A row of the table is an instruction with the
width of its sources and of its destination and the value of element i when it is on. -/
def Obligations.VectorArithmetic : Prop :=
  ∀ (s : State) (c : Nat) (m : VCmd) (r : List VCmd) (p : Instr × Nat × Nat × (Nat → Nat)) (t : BitVec 3) (d a b : BitVec 5)
    (x : BitVec 4) (j i1 : BitVec 1) (e1 : BitVec 3) (fn : BitVec 4), s.Inv →
    (s.coreAt c).vq = m :: r → m.done + 1 = m.passes → m.done < m.bound → m.parked = none → m.grant ≤ 256 →
    (∀ n ∈ (s.coreAt c).vTiles m, Tab.get (s.coreAt c).holders .free n = .running) → (s.coreAt c).nvr ≤ 32 →
    p.1.wf = true → m.insn = p.1 → (∀ n ∈ r, n.passes ≠ 0) →
    (∀ v ∈ [d, a, b], v.toNat < (s.coreAt c).nvr) →
    let w := match t.toNat % 3 with
      | 0 => 32 | 1 => 16 | _ => 8
    let wf := fmtBits t.toNat
    let ea := fun (e i : Nat) => s.vGet c a e i
    let eb := fun (e i : Nat) => s.vGet c b e i
    let int := fun (n : Nat) => if t.toNat < 3 then (BitVec.ofNat w n).toInt else (n : Int)
    let lo : Int := if t.toNat < 3 then -(2 ^ (w - 1)) else 0
    let hi : Int := if t.toNat < 3 then 2 ^ (w - 1) - 1 else 2 ^ w - 1
    let code := fun (v : Int) => ((if bitOn m.v1 7 then max lo (min hi v) else v) % 2 ^ w).toNat
    let mode := m.rm
    let draw := fun (i : Nat) => if m.rm = 6 then srDraw (s.jobseedOf c) (BitVec.ofNat 64 (s.lcoreOf c)) (m.base + BitVec.ofNat 64 i) else 0
    let sat := bitOn m.v1 7
    let fl := fun (q : Nat × Nat) => if sat = true ∧ q.2.testBit 2 = true
      then q.1 / (fmtOf t.toNat).signBit % 2 * (fmtOf t.toNat).signBit + (fmtOf t.toNat).maxCode else q.1
    let two := fun (i : Instr) (f : Nat → Nat → Nat) => (i, w, w, fun n => f (ea w n) (eb w n))
    let flt := fun (i : Instr) (f : Nat → Nat → Nat → Nat × Nat) => (i, wf, wf, fun n => fl (f n (ea wf n) (eb wf n)))
    let on := fun (i : Nat) => ((s.ctxAt c m.ctx).krd (bitsAt m.v1 0 3)).getLsbD i
    p ∈ [two (.vaddI t d a b x) (fun y z => code (int y + int z)), two (.vsubI t d a b x) (fun y z => code (int y - int z)),
         two (.vmulI t d a b x) (fun y z => code (int y * int z)),
         two (.vmulh t d a b x) (fun y z => (int y * int z / 2 ^ w % 2 ^ w).toNat),
         two (.vminI t d a b x) (fun y z => if int y ≤ int z then y else z),
         two (.vmaxI t d a b x) (fun y z => if int y ≤ int z then z else y),
         two (.vabsI t d a x) (fun y _ => code (if int y < 0 then -(int y) else int y)),
         two (.vand t d a b x) Nat.land, two (.vor t d a b x) Nat.lor, two (.vxor t d a b x) Nat.xor,
         two (.vshl t d a b x) (fun y z => y * 2 ^ (z % w) % 2 ^ w), two (.vshr t d a b x) (fun y z => y / 2 ^ (z % w)),
         two (.vshra t d a b x) (fun y z => ((BitVec.ofNat w y).sshiftRight (z % w)).toNat),
         two (.vperm t d a b x) (fun _ z => if z < m.grant then ea w z else 0),
         (.vsel t d a b x, w, w, fun n => if on n then ea w n else eb w n),
         (.vbcast t d x, w, w, fun _ => m.v2.toNat % 2 ^ w), (.vidx t d x, w, w, fun n => n % 2 ^ w),
         (.vslide t d a x, w, w, fun n => if 0 ≤ (n : Int) + m.v2.toInt ∧ (n : Int) + m.v2.toInt < m.grant
           then ea w ((n : Int) + m.v2.toInt).toNat else 0),
         flt (.vaddF t d a b x) (fun n y z => (fmtOf t.toNat).add mode (draw n) y z),
         flt (.vsubF t d a b x) (fun n y z => (fmtOf t.toNat).sub mode (draw n) y z),
         flt (.vmulF t d a b x) (fun n y z => (fmtOf t.toNat).mul mode (draw n) y z),
         flt (.vfma t d a b x) (fun n y z => (fmtOf t.toNat).fma mode (draw n) y z (s.vGet c d wf n)),
         flt (.vdiv t d a b x) (fun n y z => (fmtOf t.toNat).div mode (draw n) y z),
         flt (.vsqrt t d a x) (fun n y _ => (fmtOf t.toNat).sqrt mode (draw n) y),
         flt (.vsfu t d a fn x) (fun n y _ => (fmtOf t.toNat).sfu fn.toNat mode (draw n) false y),
         (.vminF t d a b x, wf, wf, fun n => ((fmtOf t.toNat).minMax true (ea wf n) (eb wf n)).1),
         (.vmaxF t d a b x, wf, wf, fun n => ((fmtOf t.toNat).minMax false (ea wf n) (eb wf n)).1),
         (.vabsF t d a x, wf, wf, fun n => ea wf n % 2 ^ (wf - 1)),
         (.vcvt t d a j i1 e1 x, (if i1 = 1 then (match e1.toNat % 3 with
             | 0 => 32 | 1 => 16 | _ => 8) else fmtBits e1.toNat), (if j = 1 then w else wf),
           fun n =>
             let src := if i1 = 1 then ofInt (decide (e1.toNat < 3)) (match e1.toNat % 3 with
                 | 0 => 32 | 1 => 16 | _ => 8) (ea (match e1.toNat % 3 with
                 | 0 => 32 | 1 => 16 | _ => 8) n)
               else (fmtOf e1.toNat).decode (ea (fmtBits e1.toNat) n)
             if j = 1 then (toInt (decide (t.toNat < 3)) w mode (draw n) src).1
             else ((fmtOf t.toNat).encode mode (draw n) sat src).1)] →
    ∃ y : State, exec (.vectorPassComplete c) s = .next y ∧ (y.coreAt c).vq = r
      ∧ (∀ i, i < 8192 / p.2.2.1 →
          y.vGet c d p.2.2.1 i = if m.grant ≤ i then s.vGet c d p.2.2.1 i
            else if on i = true ∨ p.1 = .vsel t d a b x then p.2.2.2 i else if bitOn m.v1 3 then 0 else s.vGet c d p.2.2.1 i)
      ∧ ∀ k, ¬ (poolKey c ((s.coreAt c).vregAt d.toNat) ≤ k ∧ k < poolKey c ((s.coreAt c).vregAt d.toNat) + 1024) →
          y.peek k = s.peek k

/-- 16_vector_instructions.md R303, R304, R309, R310, R312, R313. -/
def Obligations.VectorMasksAndReductions : Prop :=
  ∀ (s : State) (c : Nat) (m : VCmd) (r : List VCmd) (t : BitVec 3) (d a b : BitVec 5) (x : BitVec 4) (k p q : BitVec 3)
    (j : BitVec 1) (op : BitVec 2), s.Inv →
    (s.coreAt c).vq = m :: r → m.done + 1 = m.passes → m.done < m.bound → m.parked = none → m.grant ≤ 256 →
    (∀ n ∈ (s.coreAt c).vTiles m, Tab.get (s.coreAt c).holders .free n = .running) → (s.coreAt c).nvr ≤ 32 →
    (∀ n ∈ r, n.passes ≠ 0) → (∀ v ∈ [d, a, b], v.toNat < (s.coreAt c).nvr) → m.insn.wf = true →
    let z := s.ctxAt c m.ctx
    let w := match t.toNat % 3 with
      | 0 => 32 | 1 => 16 | _ => 8
    let e := if j = 1 then w else fmtBits t.toNat
    let on := fun (i : Nat) => (z.krd (bitsAt m.v1 0 3)).getLsbD i
    let int := fun (n : Nat) => if t.toNat < 3 then (BitVec.ofNat w n).toInt else (n : Int)
    let av := fun (i : Nat) => s.vGet c a e i
    let bv := fun (i : Nat) => s.vGet c b e i
    let fmt := fmtOf t.toNat
    let cmps : List (Instr × (Nat → Bool)) :=
      [(.vcmpeq t j k a b x, fun i => if j = 1 then decide (int (av i) = int (bv i)) else (fmt.cmp 0 (av i) (bv i)).1),
       (.vcmpne t j k a b x, fun i => if j = 1 then decide (int (av i) ≠ int (bv i)) else ! (fmt.cmp 0 (av i) (bv i)).1),
       (.vcmplt t j k a b x, fun i => if j = 1 then decide (int (av i) < int (bv i)) else (fmt.cmp 1 (av i) (bv i)).1),
       (.vcmple t j k a b x, fun i => if j = 1 then decide (int (av i) ≤ int (bv i)) else (fmt.cmp 2 (av i) (bv i)).1)]
    let logic : List (Instr × (Nat → Bool)) :=
      [(.kand k p q x, fun i => (z.krd p.toNat).getLsbD i && (z.krd q.toNat).getLsbD i),
       (.kor k p q x, fun i => (z.krd p.toNat).getLsbD i || (z.krd q.toNat).getLsbD i),
       (.kxor k p q x, fun i => xor ((z.krd p.toNat).getLsbD i) ((z.krd q.toNat).getLsbD i)),
       (.knot k p x, fun i => ! (z.krd p.toNat).getLsbD i)]
    let draw := fun (i : Nat) => if m.rm = 6 then srDraw (s.jobseedOf c) (BitVec.ofNat 64 (s.lcoreOf c)) (m.base + BitVec.ofNat 64 i) else 0
    let vals := fun (i : Nat) =>
      (upTo (i / 32 * 32) (min 32 (m.grant - i / 32 * 32))).map (fun n => fp32.decode (s.vGet c a 32 n))
    let sc := fun (i : Nat) => if bitOn m.v1 8 then s.vGet c b 8 (i / 32) else selectScale (vals i) t.toNat
    let div := fun (i : Nat) (v : Machine.Num) => if sc i = 0xFF then Machine.Num.fin false 0 0 else v.scale (127 - (sc i : Int))
    m.insn ∈ cmps.map (fun g => g.1) ++ logic.map (fun g => g.1)
      ++ [.kpopc d p x, .vmovx t d a x, .vred t d a j op x, .vqnt t d a b x, .vdqnt t d a b x] →
    ∃ y : State, exec (.vectorPassComplete c) s = .next y ∧ (y.coreAt c).vq = r
      ∧ (∀ g ∈ cmps, m.insn = g.1 → y.mem = s.mem ∧ (k ≠ 0 → ∀ i, i < 256 →
          ((y.ctxAt c m.ctx).krd k.toNat).getLsbD i = if m.grant ≤ i then (z.krd k.toNat).getLsbD i
            else if on i then g.2 i else if bitOn m.v1 3 then false else (z.krd k.toNat).getLsbD i))
      ∧ (∀ g ∈ logic, m.insn = g.1 → y.mem = s.mem ∧ (k ≠ 0 → ∀ i, i < 256 →
          ((y.ctxAt c m.ctx).krd k.toNat).getLsbD i = if m.grant ≤ i then (z.krd k.toNat).getLsbD i else g.2 i))
      ∧ (∀ l n u, z.pends = l ++ n :: u → (∀ g ∈ l, g.place ≠ .vec) → n.place = .vec → n.keep = false → n.nb = 8 →
          (m.insn = .kpopc d p x → y.ctxAt c m.ctx = { z with pends := l ++ u }.wrBank n.ui n.reg
            (BitVec.ofNat 64 ((upTo 0 m.grant).filter (fun i => (z.krd p.toNat).getLsbD i)).length))
          ∧ (m.insn = .vmovx t d a x → y.ctxAt c m.ctx = { z with pends := l ++ u }.wrBank n.ui n.reg
              (if m.v1.toNat % 256 < m.grant then BitVec.ofInt 64 (int (s.vGet c a w (m.v1.toNat % 256))) else 0)))
      ∧ (m.insn = .vred t d a j op x → j = 1 → bitOn m.v1 7 = false →
          let ident : Int := if op = 0 then 0 else if op = 3 then 1
            else if op = 1 then (if t.toNat < 3 then 2 ^ (w - 1) - 1 else 2 ^ w - 1) else (if t.toNat < 3 then -(2 ^ (w - 1)) else 0)
          let vals := (upTo 0 m.grant).map (fun i => if on i then int (av i) else ident)
          y.vGet c d w 0 = ((if op = 0 then vals.foldl (· + ·) 0 else if op = 3 then vals.foldl (· * ·) 1
            else if op = 1 then vals.foldl min ident else vals.foldl max ident) % 2 ^ w).toNat)
      ∧ (m.insn = .vred t d a j op x → j = 0 →
          let mode := if m.rm = 6 then 0 else m.rm
          let ident := if op = 0 then fmt.signBit else if op = 1 then fmt.infCode else if op = 2 then fmt.signBit + fmt.infCode
            else fmt.bias * 2 ^ fmt.fb
          let comb := fun (u v : Nat) => if op = 0 then fmt.add mode 0 u v else if op = 1 then fmt.minMax true u v
            else if op = 2 then fmt.minMax false u v else fmt.mul mode 0 u v
          y.vGet c d (fmtBits t.toNat) 0
            = (nth (pairTree comb 9 ((upTo 0 m.grant).map (fun i => if on i then av i else ident)) 0).1 0 0) % 2 ^ fmtBits t.toNat)
      ∧ (m.insn = .vqnt t d a b x → d ≠ b → ∀ i, i < m.grant →
          y.vGet c b 8 (i / 32) = sc i % 256
          ∧ (t ≠ 6 → y.vGet c d (fmtBits t.toNat) i = (if sc i = 0xFF then 0
              else (fmt.encode m.rm (draw i) (bitOn m.v1 7) (div i (fp32.decode (s.vGet c a 32 i)))).1) % 2 ^ fmtBits t.toNat)
          ∧ (t = 6 → ∀ n, n < 16 → y.vGet c d 8 (16 * (i / 32) + n)
              = (nth (iqEncode m.rm (bitOn m.v1 7) (fun h => draw (i / 32 * 32 + h))
                  ((upTo 0 32).map (fun h => div i (nth (vals i) (.fin false 0 0) h)))).1 0 n).toNat))
      ∧ (m.insn = .vdqnt t d a b x → ∀ i, i < m.grant →
          let iq := (upTo 0 (min 32 (m.grant - i / 32 * 32))).foldl
            (iqDecStep ((upTo (16 * (i / 32)) 16).map (fun n => BitVec.ofNat 8 (s.vGet c a 8 n)))) ([], -1, 0, [])
          let v := if t = 6 then nth iq.2.2.2.reverse (.fin false 0 0) (i % 32)
            else fmt.decode (s.vGet c a (fmtBits t.toNat) i)
          y.vGet c d 32 i = (scaleValue v (s.vGet c b 8 (i / 32))).1 % 2 ^ 32)

/-- 06_scheduling.md R111, 16_vector_instructions.md R305 to R307: `ky i` is the key of element i's bytes, `u` the state once
the context's scalar stores have drained. -/
def Obligations.VectorPasses : Prop :=
  (∀ (s : State) (o : BitVec 9) (c i : Nat) (m : VCmd),
    let bound := fun (c : Nat) => (s.coreAt c).vq.foldl (fun n m => n + (m.bound - m.done)) 0
    let busy := (upTo (o.toNat * 8) 8).foldl (fun n c => n + bound c) 0
    (16 ≤ busy → exec (.vectorPassBind o) s = .next s)
    ∧ (busy < 16 → c / 8 = o.toNat → (s.coreAt c).vNext = some (i, m) → s.vwtOf c ≠ 0 →
        (∀ e, e / 8 = o.toNat → e ≠ c → (s.coreAt e).vNext = none) →
        ∃ t : State, exec (.vectorPassBind o) s = .next t ∧ t.mem = s.mem
          ∧ (t.coreAt c).vq = (s.coreAt c).vq.set i { m with bound := m.bound + 1 }
          ∧ ∀ e, e ≠ c → (t.coreAt e).vq = (s.coreAt e).vq))
  ∧ (∀ (s : State) (c : Nat) (m : VCmd) (r : List VCmd) (t : BitVec 3) (d b : BitVec 5) (x : BitVec 4) (ky : Nat → Nat), s.Inv →
      isArray c = true → (s.coreAt c).vq = m :: r → m.done < m.bound → m.parked = none → (s.coreAt c).nvr ≤ 32 → s.poison = [] →
      m.insn ∈ [Instr.vld t d x, .vst t d x, .vlds t d x, .vsts t d x, .vgath t d b x, .vscat t d b x] → m.insn.wf = true →
      (∀ v ∈ [d, b], v.toNat < (s.coreAt c).nvr) → m.done < 16 →
      (∀ n ∈ (s.coreAt c).vTiles m, Tab.get (s.coreAt c).holders .free n = .running) → (∀ n ∈ r, n.passes ≠ 0) →
      let e := match t.toNat with
        | 0 => 32 | 1 => 16 | _ => 8
      let nb := e / 8
      let load := m.insn = .vld t d x ∨ m.insn = .vlds t d x ∨ m.insn = .vgath t d b x
      let stride : W64 := (m.v2.setWidth 48).signExtend 64
      let adr := fun (i : Nat) =>
        if m.insn = .vld t d x ∨ m.insn = .vst t d x then m.v1 + BitVec.ofNat 64 (i * nb)
        else if m.insn = .vlds t d x ∨ m.insn = .vsts t d x then m.v1 + BitVec.ofNat 64 i * stride
        else m.v1 + (BitVec.ofNat 32 (s.vGet c b 32 i)).signExtend 64
      let els := (upTo (16 * m.done) 16).filter (fun i => ((s.ctxAt c m.ctx).krd (bitsAt m.v2 48 3)).getLsbD i)
      let u := s.drainQueue c m.ctx
      let last := m.passes ≤ m.done + 1
      (∀ l i q cause va, els = l ++ i :: q →
        (∀ n ∈ l, s.vPlace c m.ctx (adr n) nb (decide (¬ load)) = .ok [(0, .key (ky n))]) →
        s.vPlace c m.ctx (adr i) nb (decide (¬ load)) = .trap cause va →
        ∃ y : State, exec (.vectorPassComplete c) s = .next y ∧ y.mem = s.mem ∧ (y.coreAt c).vq = r
          ∧ (y.ctxAt c m.ctx).due = (s.ctxAt c m.ctx).due ++ [(BitVec.ofNat 8 cause, va, (s.ctxAt c m.ctx).pc)])
      ∧ ((∀ n ∈ els, s.vPlace c m.ctx (adr n) nb (decide (¬ load)) = .ok [(0, .key (ky n))]) →
          (∀ n ∈ els, ∀ h, h < nb → poolOf (ky n + h) = none) →
          (∀ n ∈ els, s.unread (s.ctxAt c m.ctx).pends (upTo (ky n) nb) = false) →
          ∃ y : State, exec (.vectorPassComplete c) s = .next y
            ∧ (last → (y.coreAt c).vq = r ∧ (y.ctxAt c m.ctx).grant = some 0)
            ∧ (¬ last → (y.coreAt c).vq = { m with done := m.done + 1 } :: r)
            ∧ (load → ∀ i, 16 * m.done ≤ i → i < 16 * m.done + 16 →
                y.vGet c d e i = if i ∈ els then ofLeBytes ((upTo (ky i) nb).map (u.seen c)) else u.vGet c d e i)
            ∧ (¬ load → (∀ i ∈ els, ∀ n ∈ els, i < n → ky i + nb ≤ ky n ∨ ky n + nb ≤ ky i) →
                (∀ i ∈ els, isHbm (ky i) = false) → (∀ g ∈ s.cells, ∀ i ∈ els, ∀ h, h < nb → g.blocks (ky i + h) = false) →
                (∀ i ∈ els, ∀ h, h < nb → y.peek (ky i + h) = BitVec.ofNat 8 (u.vGet c d e i / 2 ^ (8 * h)))
                ∧ ∀ k, (∀ i ∈ els, ¬ (ky i ≤ k ∧ k < ky i + nb)) → y.peek k = u.peek k)))

/-- 01_package_power.md R12 to R17, R19; 05_boot_trust.md R90. What memory holds after a cold reset where boot wrote nothing is the
model's choice (log 3). -/
def Obligations.PowerAndResets : Prop :=
  ∀ (s : State) (v : BitVec 32) (n : BitVec 4) (cl : BitVec 8) (watts : Nat),
    let p := s.power
    let exitTime := fun (a : Nat) => if a = 2 then 40000 else if a = 3 then 400000 else if a = 4 then 10000000 else 0
    let a := p.entering.getD p.cur
    let below := fun (u : State) (x : Nat) => u.power.dltol.toNat < x
      ∨ ∃ t, t < 16 ∧ (u.tenantAt t).vf = true ∧ (u.tenantAt t).tltol.toNat < x
    let tolerated := fun (i : Instr) (u : State) =>
      (2 ≤ a ∧ p.waking = none → exec i s = .next { u with
        power := { u.power with dwell := s.now, entering := none, waking := some (s.now + exitTime a) } })
      ∧ (¬ (2 ≤ a ∧ p.waking = none) → exec i s = .next { u with power := { u.power with dwell := s.now } })
    let c := cl.toNat
    let k := s.clusterAt c
    let idle := fun (c : Nat) => (∀ i, i / 16 = c → (∀ q ∈ (s.coreAt i).ctxs, q.2.live = false) ∧ (s.coreAt i).vq = [] ∧ (s.coreAt i).mqueue = []
      ∧ ∀ m ∈ (s.coreAt i).copies, m.state ≠ 1)
      ∧ (s.clusterAt c).run = none ∧ (s.clusterAt c).wbload = none
    let pod := bitsAt s.fabric.fpod 8 3 ≠ 0
    let target := fun (a : Nat) => (a = 4 ∧ ¬ below s 5000 ∧ ¬ pod) ∨ (a = 3 ∧ ¬ below s 200 ∧ (below s 5000 ∨ pod))
      ∨ (a = 2 ∧ ¬ below s 20 ∧ below s 200)
    let quiet := fun (a : Nat) => (∀ i, i < 256 → idle i ∧ ∃ t, (s.clusterAt i).gatedAt = some t ∧ max t p.dwell + exitTime a ≤ s.now)
      ∧ (∀ t, t < 16 → ∀ q ∈ (s.tenantAt t).pages, q.2.queue = []) ∧ (∀ l ∈ s.launches, l.state = .suspended)
      ∧ s.fabric.unacked = [] ∧ (∀ q ∈ s.fabric.sendq, q.2 = []) ∧ s.fabric.staged = [] ∧ (∀ r ∈ s.fabric.rx, r.2.held = [])
      ∧ s.parkedRemote = [] ∧ ∀ w ∈ s.waiters, w.remote = none
    let n0 := s.free
    let fails := fun (t : State) (old : Nat → Byte) (step : Nat) (code : Byte) =>
      t.boot.boot = 2 ∧ t.boot.fstep = step ∧ t.boot.fcode = code ∧ t.cores = [] ∧ ∀ k, t.peek k = old k
    let fresh := fun (t : State) (old : Nat → Byte) =>
      t.now = s.now ∧ t.turns = s.turns ∧ (∀ d, d < 4 → t.podTime d = 0) ∧ t.tenants = [] ∧ t.clusters = [] ∧ t.octets = []
      ∧ t.counters = [] ∧ t.launches = [] ∧ t.kills = [] ∧ t.estates = [] ∧ t.mbox = [] ∧ t.waiters = [] ∧ t.power = Power.reset
      ∧ (∀ i, i < 4096 → t.coreAt i = Core.reset)
      ∧ (Config.pllLocks n0 = false → fails t old 0 0x81)
      ∧ (Config.pllLocks n0 = true → Config.flash n0 0 = none → fails t old 1 0x80)
      ∧ (Config.pllLocks n0 = true → Config.flash n0 0 ≠ none → (∃ i, i < 8 ∧ Config.stackTrains n0 i = false) → fails t old 0 0x82)
      ∧ (Config.pllLocks n0 = true → Config.flash n0 0 ≠ none → (∀ i, i < 8 → Config.stackTrains n0 i = true) →
          (Config.opticsLock n0 = false → fails t old 0 0x83)
          ∧ (Config.opticsLock n0 = true →
              (t.boot.boot = 2 ∧ t.cores = [] ∧ (t.boot.fstep = 2 ∨ t.boot.fstep = 4))
              ∨ (t.boot.boot = 3
                ∧ (∀ i, i < 16 → t.ctxAt (4096 + i) 0
                    = { Ctx.reset with live := true, kind := .service, pc := Config.firmwareEntry i, status := 20 })
                ∧ t.ctxAt 0x1010 0
                    = { Ctx.reset with live := true, kind := .monitor, pc := Config.firmwareEntry 16, status := 24 })))
    tolerated (.dltolWrite v) { s with power := { p with dltol := v.setWidth 24 } }
    ∧ tolerated (.tltolWrite n v) (s.setTenant n.toNat { s.tenantAt n.toNat with tltol := v.setWidth 24 })
    ∧ (idle c → k.gatedAt = none → k.busyAt + 64 ≤ s.now →
        exec (.clusterClockGate cl) s = .next (s.setCluster c { k with gatedAt := some s.now }))
    ∧ (¬ idle c ∨ k.gatedAt ≠ none ∨ s.now < k.busyAt + 64 → exec (.clusterClockGate cl) s = .next s)
    ∧ (¬ idle c → k.gatedAt ≠ none → exec (.a1Exit cl) s = .next (s.setCluster c { k with gatedAt := none }))
    ∧ (idle c ∨ k.gatedAt = none → exec (.a1Exit cl) s = .next s)
    ∧ (∀ b, p.entering = some b →
        exec .sleepEntry s = .next { s with power := { p with entering := none, cur := b, dwell := s.now } })
    ∧ (∀ b, p.entering = none → p.waking = none → target b → p.cur < b → quiet b →
        exec .sleepEntry s = .next { s with power := { p with entering := some b } })
    ∧ (p.entering = none → (p.waking ≠ none ∨ ∀ b, target b → ¬ (p.cur < b ∧ quiet b)) → exec .sleepEntry s = .next s)
    ∧ (p.waking ≠ none → exec .wakeExitComplete s
        = .next { s with power := { p with cur := 0, waking := none, entering := none, dwell := s.now } })
    ∧ (p.waking = none → exec .wakeExitComplete s = .next s)
    ∧ exec (.powerLimiterInterval watts) s = .next { s with power := { p with lim := decide (p.plim < watts) } }
    ∧ exec .powerRemoval s = .next { s with power := { p with off := true } }
    ∧ (p.off = false → exec .coldReset s = .next s)
    ∧ (s.Inv → p.off = true → ∃ t : State, exec .coldReset s = .next t ∧ fresh t (fun k => if k < 2 ^ 64 then 0 else s.peek k))
    ∧ (s.Inv → ∃ t : State, exec .moduleReset s = .next t ∧ fresh t s.peek)

/-- 01_package_power.md R19; 04_host_interface.md R65, R68, R69, R72, R75; 05_boot_trust.md R89; 09_traps_reliability.md R185. -/
def Obligations.VirtualFunctions : Prop :=
  ∀ (s : State) (n g : BitVec 4) (vec : BitVec 5) (j : BitVec 12) (v : BitVec 64),
    let t := n.toNat
    let ten := s.tenantAt t
    let p := ten.pageAt g.toNat
    let base := bitsAt ten.tecr 0 12
    let count := bitsAt ten.tecr 16 13
    let reset := fun (i : Instr) (vf : Bool) => ∃ w : State, exec i s = .next w
      ∧ (w.tenantAt t).tltol = 0xFFFFFF ∧ (w.tenantAt t).terr = 0 ∧ (w.tenantAt t).pages = [] ∧ (w.tenantAt t).msix = []
      ∧ (w.tenantAt t).attest = .reset ∧ (w.tenantAt t).vf = vf ∧ (∀ u, u ≠ t → w.tenantAt u = s.tenantAt u)
      ∧ (∀ i, base ≤ i → i < base + count → w.counterAt i = Counter.reset)
      ∧ (∀ i, ¬ (base ≤ i ∧ i < base + count) → w.counterAt i = s.counterAt i)
      ∧ (∀ l ∈ s.launches, l.ten ≠ t → l ∈ w.launches)
      ∧ (∀ l ∈ w.launches, l.ten = t → ¬ (l.state = .queued ∧ l.placedAt = none))
      ∧ (∀ l ∈ s.launches, l.ten = t → ¬ (l.state = .queued ∧ l.placedAt = none) → ∃ k ∈ w.kills, k.ten = t ∧ k.ctxid = l.ctxid)
      ∧ w.mem = s.mem
    let errs := fun (i : Instr) (bit : Nat) => ∃ w : State, exec i s = .next w ∧ (w.tenantAt t).terr.getLsbD bit = true
      ∧ (∀ b, b ≠ bit → (w.tenantAt t).terr.getLsbD b = ten.terr.getLsbD b) ∧ (w.tenantAt t).pages = ten.pages
      ∧ w.counters = s.counters ∧ w.mem = s.mem
    let page := fun (i : Instr) (q : Page) => ∃ w : State, exec i s = .next w ∧ (w.tenantAt t).pageAt g.toNat = q
      ∧ (∀ h, h ≠ g.toNat → (w.tenantAt t).pageAt h = ten.pageAt h) ∧ (w.tenantAt t).terr = ten.terr ∧ w.mem = s.mem
    let low : W32 := v.setWidth 32
    let past := fun (x y : W32) => 1 ≤ (x - y).toNat ∧ (x - y).toNat < 2 ^ 31
    let size := v.toNat % 16
    let e := ten.msixAt vec.toNat
    (ten.vf = true → exec (.vfEnable n) s = .next s ∧ reset (.tenantReset n) true ∧ reset (.vfDisable n) false)
    ∧ (ten.vf = false → exec (.tenantReset n) s = .next s ∧ exec (.vfDisable n) s = .next s ∧ exec (.ecincWrite n j v) s = .next s
        ∧ exec (.cqheadWrite n g v) s = .next s ∧ (∀ b, exec (.cqcfgWrite n g b v) s = .next s)
        ∧ exec (.submissionPageWrite n g) s = .next s ∧ exec (.msixVectorUnmask n vec) s = .next s
        ∧ ∃ w : State, exec (.vfEnable n) s = .next w ∧ (w.tenantAt t).vf = true ∧ (∀ u, u ≠ t → w.tenantAt u = s.tenantAt u)
          ∧ (s.prevec = 0 → w.tenantAt t = { ten with vf := true, attest := .reset } ∧ w.mem = s.mem)
          ∧ (s.prevec ≠ 0 → ∃ b, (w.tenantAt t).attest = Attest.reset.extend b))
    ∧ (ten.vf = true →
        (count ≤ j.toNat → errs (.ecincWrite n j v) 2)
        ∧ (j.toNat < count → (s.counterAt (base + j.toNat)).trigs = [] → (∀ w ∈ s.waiters, w.key ≠ counterKey (base + j.toNat)) →
            ∃ w : State, exec (.ecincWrite n j v) s = .next w
              ∧ (w.counterAt (base + j.toNat)).val = (s.counterAt (base + j.toNat)).val + v
              ∧ (∀ i, i ≠ base + j.toNat → w.counterAt i = s.counterAt i) ∧ w.mem = s.mem)
        ∧ (past low p.cqtail → errs (.cqheadWrite n g v) 1)
        ∧ (¬ past low p.cqtail → page (.cqheadWrite n g v) { p with
            cqhead := low, out := if past low p.cqhead then p.out - min (low - p.cqhead).toNat p.out else p.out })
        ∧ (∀ b, p.out ≠ 0 → errs (.cqcfgWrite n g b v) 1)
        ∧ (p.out = 0 → page (.cqcfgWrite n g true v) { p with cqbase := BitVec.ofNat 64 (v.toNat / 4096 * 4096) })
        ∧ (p.out = 0 → (size < 4 ∨ 12 < size) → errs (.cqcfgWrite n g false v) 1)
        ∧ (p.out = 0 → 4 ≤ size → size ≤ 12 → page (.cqcfgWrite n g false v) { p with cqcfg := BitVec.ofNat 64 (v.toNat % 32) })
        ∧ errs (.submissionPageWrite n g) 0
        ∧ (17 ≤ vec.toNat → exec (.msixVectorUnmask n vec) s = .next s)
        ∧ (vec.toNat < 17 → ∃ w : State, exec (.msixVectorUnmask n vec) s = .next w ∧ ((w.tenantAt t).msixAt vec.toNat).masked = false
            ∧ ((w.tenantAt t).msixAt vec.toNat).pending = false ∧ w.mem = s.mem
            ∧ w.msixOut = s.msixOut ++ (if e.pending then [(t, vec.toNat, e.addr, e.data)] else [])))

/-- 01_package_power.md R15; 03_module_fabric.md R54; 04_host_interface.md R67, R81; 06_scheduling.md R116; 07_cores_memory.md R142,
R146; 09_traps_reliability.md R178, R183, R185; 10_estates.md R194, R206. -/
def Obligations.RegisterWrites : Prop :=
  (∀ (s : State) (n : BitVec 4) (v : BitVec 64),
    let t := n.toNat
    let ten := s.tenantAt t
    let b := fun (i k : Nat) => v.toNat / 2 ^ i % 2 ^ k
    let others := fun (f : Tenant → Prop) => ∃ u, u < 16 ∧ u ≠ t ∧ f (s.tenantAt u)
    let meets := fun (a n b m : Nat) => 0 < n ∧ 0 < m ∧ a < b + m ∧ b < a + n
    let sets := fun (i : Instr) (bad : Prop) (new : Tenant) =>
      (bad → exec i s = .next { s with mcerr := true }) ∧ (¬ bad → exec i s = .next (s.setTenant t new))
    let rect : W64 := BitVec.ofNat 64 (b 0 17)
    let badRect := (b 16 1 = 1 ∧ others (fun u => rectOverlap rect u.trect = true)) ∨ b 8 4 < b 0 4 ∨ b 12 4 < b 4 4
      ∨ (bitsAt ten.trect 16 1 = 1 ∧ b 0 16 ≠ bitsAt ten.trect 0 16)
    let gives := bitsAt ten.trect 16 1 = 1 ∧ b 16 1 = 0 ∧ s.tenantLive t = true
    (badRect → exec (.trectWrite n v) s = .next { s with mcerr := true })
    ∧ (¬ badRect → ¬ gives → exec (.trectWrite n v) s = .next (s.setTenant t { ten with trect := rect, trectNew := none }))
    ∧ (¬ badRect → gives → ∃ w : State, exec (.trectWrite n v) s = .next w ∧ (w.tenantAt t).trect = ten.trect
        ∧ (w.tenantAt t).trectNew = some rect ∧ w.mem = s.mem)
    ∧ sets (.tecrWrite n v)
        (4096 < b 0 12 + b 16 13 ∨ others (fun u => meets (b 0 12) (b 16 13) (bitsAt u.tecr 0 12) (bitsAt u.tecr 16 13))
          ∨ s.tenantLive t = true)
        { ten with tecr := BitVec.ofNat 64 (b 0 12 + b 16 13 * 2 ^ 16) }
    ∧ sets (.tsubcfgWrite n v) (256 < b 0 9 ∨ 16 < b 16 5) { ten with tsubcfg := BitVec.ofNat 64 (b 0 13 + b 16 5 * 2 ^ 16) }
    ∧ sets (.testrWrite n v)
        (256 < b 0 8 + b 8 9 ∨ others (fun u => meets (b 0 8) (b 8 9) (bitsAt u.testr 0 8) (bitsAt u.testr 8 9))
          ∨ ∃ d ∈ s.estates, ∃ e ∈ d.2, e.ten = t)
        { ten with testr := BitVec.ofNat 64 (b 0 17) }
    ∧ sets (.tfwinWrite n v)
        (2 ^ 20 < b 0 20 + b 20 20 ∨ others (fun u => winOverlap (BitVec.ofNat 64 (b 0 48)) u.tfwin = true)
          ∨ (b 40 1 = 1 ∧ meets (b 0 20) (b 20 20) 0 4096)
          ∨ (∃ l ∈ s.leaves (s.rootOf t), ∃ f ∈ mappedFrames l.2.1 l.2.2,
              inWindow (BitVec.ofNat 64 (b 0 48)) f = false))
        { ten with tfwin := BitVec.ofNat 64 (b 0 48) }
    ∧ (let bad := (b 0 5 ≠ 0 ∧ (b 0 5 < 10 ∨ 20 < b 0 5)) ∨ b 5 5 < 16 ∨ 30 < b 5 5
       let w := s.setTenant t { ten with smpcfg := BitVec.ofNat 64 (b 0 10), wcount := 0, drops := 0 }
       (bad → exec (.smpcfgWrite n v) s = .next s)
       ∧ (¬ bad → (w.tenWrite t ten.smpbase (List.replicate 64 0) = none → exec (.smpcfgWrite n v) s = .next w)
           ∧ ∀ y, w.tenWrite t ten.smpbase (List.replicate 64 0) = some y → exec (.smpcfgWrite n v) s = .next y))
    ∧ (let w : W64 := BitVec.ofNat 64 (v.toNat / 4 * 4)
       (w = s.prevec → exec (.prevecWrite v) s = .next s)
       ∧ (w ≠ s.prevec → ∃ y : State, exec (.prevecWrite v) s = .next y ∧ y.prevec = w
           ∧ ∀ u, u < 16 → ((s.tenantAt u).vf = false → y.tenantAt u = s.tenantAt u)
             ∧ ((s.tenantAt u).vf = true → w ≠ 0 → ∃ e, (y.tenantAt u).attest = (s.tenantAt u).attest.extend e)))
    ∧ (∀ e r, ten.fqWait = e :: r → bitOn ten.fqcfg 8 = true → (ten.fqtail - ten.fqhead).toNat < 2 ^ bitsAt ten.fqcfg 0 4 →
        ∃ w : State, exec (.faultEntryWrite n) s = .next w ∧ (w.tenantAt t).fqtail = ten.fqtail + 1 ∧ (w.tenantAt t).fqWait = r
          ∧ (w.tenantAt t).fq = ten.fq ++ [{ e with seq := ten.fqtail }] ∧ (w.tenantAt t).fqhead = ten.fqhead
          ∧ (∀ u, u ≠ t → w.tenantAt u = s.tenantAt u) ∧ w.cores = s.cores)
    ∧ (ten.fqWait = [] ∨ bitOn ten.fqcfg 8 = false ∨ 2 ^ bitsAt ten.fqcfg 0 4 ≤ (ten.fqtail - ten.fqhead).toNat →
        exec (.faultEntryWrite n) s = .next s)
    ∧ (ten.vf = true → ∃ w : State, exec (.registerWrite (.vf0 n) 0x200 4 v) s = .next w ∧ w.mem = s.mem
        ∧ ∀ i, i < 4 → (w.tenantAt t).terr.getLsbD i = (ten.terr.getLsbD i && ! v.getLsbD i))
    ∧ (ten.vf = false → ∀ o k, exec (.registerWrite (.vf0 n) o k v) s = .next s ∧ exec (.registerWrite (.vf2 n) o k v) s = .next s)
    ∧ (∃ w : State, exec (.registerWrite .pf 0x1000 4 v) s = .next w ∧ w.power.dltol = v.setWidth 24)
    ∧ (∃ w : State, exec (.registerWrite .pf 0x1004 4 v) s = .next w ∧ w.power.plim = min (max (b 16 12) 1000) 3200))
  ∧ (∀ (s : State) (svc : BitVec 4) (r : BitVec 2) (v : BitVec 64) (t : BitVec 4) (j : BitVec 12),
      let m := s.mboxAt svc.toNat r.toNat
      let tail : BitVec 16 := if r.toNat < 2 then m.tail else v.setWidth 16
      let head : BitVec 16 := if r.toNat < 2 then BitVec.ofNat 16 (v.toNat / 2 ^ 16) else m.head
      let k := min m.held.length (64 - (tail - head).toNat)
      (64 < (tail - head).toNat → exec (.mbregWrite svc r v) s = .next s)
      ∧ ((tail - head).toNat ≤ 64 → ∃ w : State, exec (.mbregWrite svc r v) s = .next w
          ∧ (let y := w.mboxAt svc.toNat r.toNat
             y.head = head ∧ y.tail = tail + BitVec.ofNat 16 k ∧ y.wake = v.getLsbD 32 ∧ y.held = m.held.drop k
             ∧ (∀ i, i < k → Tab.get y.ents [] ((tail.toNat + i) % 64) = nth m.held [] i)
             ∧ (k = 0 → y.ents = m.ents)) ∧ w.mem = s.mem ∧ w.cores = s.cores)
      ∧ exec (.registerWrite (.control (4096 + svc.toNat)) (0x14000 + 8 * r.toNat) 8 v) s = exec (.mbregWrite svc r v) s
      ∧ exec (.registerWrite (.control (4096 + svc.toNat)) 0x3000 8 v) s = exec (.prevecWrite v) s
      ∧ exec (.registerWrite (.control (4096 + svc.toNat)) (0x200008 + 4096 * t.toNat) 8 v) s = exec (.smpcfgWrite t v) s
      ∧ exec (.registerWrite (.vf2 t) (0x10008 + 16 * j.toNat) 8 v) s = exec (.ecincWrite t j v) s
      ∧ (∀ c o z, c < 4096 → exec (.registerWrite (.control c) o z v) s = .next s))
  ∧ (∀ (s : State) (c x : Nat) (v : BitVec 64),
      let k := s.coreAt c
      let may := (s.ctxAt c x).live = true ∧ 1 ≤ (s.ctxAt c x).pl
      (¬ may → exec (.chreplyWrite c x v) s = .next s ∧ exec (.prectlWrite c x v) s = .next s)
      ∧ (k.inbox = [] → exec (.chreplyWrite c x v) s = .next s)
      ∧ (∀ m r, may → k.inbox = m :: r →
          let o := s.ctxAt m.origin m.octx
          (v.toNat % 4 = 0 → m.ten < 16 → ∃ w : State, exec (.chreplyWrite c x v) s = .next w
            ∧ ∃ q ∈ w.kills, q.ten = m.ten ∧ q.ctxid = m.ctxid)
          ∧ (v.toNat % 4 = 1 → o.stopped = true → ∃ w : State, exec (.chreplyWrite c x v) s = .next w
              ∧ w.ctxAt m.origin m.octx = { o with pc := (s.coreAt m.origin).tvec, stopped := false, stall := 0,
                                                   status := o.status ||| 1, trSince := s.now })
          ∧ (2 ≤ v.toNat % 4 → exec (.chreplyWrite c x v) s = .next s))
      ∧ ((s.ctxAt c x).live = false → exec (.esthWrite c x v) s = .next s)
      ∧ (∀ t i l, (s.ctxAt c x).live = true → k.thread = some (t, i, l) →
          ((s.ctxAt c x).kind ≠ .control → exec (.esthWrite c x v) s = .next s)
          ∧ ((s.ctxAt c x).kind = .control → v.getLsbD 48 = true → exec (.esthWrite c x v) s = .next (s.setTenant t
              { s.tenantAt t with esth := BitVec.ofNat 64 (c + i.toNat * 2 ^ 16 + 2 ^ 48), esthLcore := l, esthCtx := x }))
          ∧ ((s.ctxAt c x).kind = .control → v.getLsbD 48 = false → exec (.esthWrite c x v) s = .next ((s.setTenant t
              { s.tenantAt t with esth := (s.tenantAt t).esth &&& ~~~ (BitVec.ofNat 64 (2 ^ 48)) }).flushReports t)))
      ∧ (may → k.saving = none → exec (.prectlWrite c x v) s = .next (s.setCore c { k with cxerr := true }))
      ∧ (∀ z h, may → k.saving = some (z, h) → h ≠ x → exec (.prectlWrite c x v) s = .next (s.setCore c { k with cxerr := true }))
      ∧ (∀ z, may → k.saving = some (z, x) → v.getLsbD 0 = false → exec (.prectlWrite c x v) s = .next s)
      ∧ (∀ t i l, may → k.saving = some (1, x) → v.getLsbD 0 = true → k.thread = some (t, i, l) →
          ∃ w : State, exec (.prectlWrite c x v) s = .next w ∧ (w.coreAt c).saving = none ∧ (w.coreAt c).thread = k.thread)
      ∧ (∀ t i l, may → k.saving = some (0, x) → v.getLsbD 0 = true → k.thread = some (t, i, l) → k.atRest x = true →
          ∃ w : State, exec (.prectlWrite c x v) s = .next w ∧ (w.coreAt c).saving = none ∧ (w.coreAt c).thread = none
            ∧ (w.coreAt c).ctxs = []))

/-- 04_host_interface.md R69 to R73, R79; 06_scheduling.md R102. -/
def Obligations.Submissions : Prop :=
  ∀ (s : State) (n g : BitVec 4) (off : BitVec 12) (bytes : List (BitVec 8)) (b : Subm) (q : List Subm) (since : Nat), s.Inv →
    let t := n.toNat
    let ten := s.tenantAt t
    let p := ten.pageAt g.toNat
    let page := fun (w : State) => (w.tenantAt t).pageAt g.toNat
    let store := Instr.submission n g off bytes
    let valid := bytes.length = 128 ∧ off = 0 ∧ ten.vf = true ∧ g.toNat < bitsAt ten.tsubcfg 16 5 ∧ bitOn p.cqcfg 4 = true
    let full := bitOn ten.tsubcfg 12 = true ∨ p.out = 2 ^ bitsAt p.cqcfg 0 4 ∨ s.depthFull t = true
    let w1 := b.word 3
    let index := bitsAt w1 0 12
    let base := bitsAt ten.tecr 0 12
    let owns := index < bitsAt ten.tecr 16 13
    let ctr := s.counterAt (base + index)
    let left := fun (w : State) => (page w).queue = q ∧ (page w).running = p.running.filter (fun r => r.seq != b.seq)
    let completes := fun (i : Instr) (st : Nat) (eff : State → Prop) => ∃ w : State, exec i s = .next w ∧ left w ∧ eff w
      ∧ (b.flag 8 = false → (page w).out = p.out - 1 ∧ (page w).cqtail = p.cqtail ∧ w.mem = s.mem)
      ∧ (b.flag 8 = true → (page w).out = p.out ∧ (page w).cqtail = p.cqtail + 1
          ∧ (let size := 2 ^ bitsAt p.cqcfg 0 4
             let a := hostKey ((p.cqbase.toNat + 32 * (p.cqtail.toNat % size)) % 2 ^ 64)
             w.peekLe a 8 = (b.word 1).toNat ∧ w.peekLe (a + 8) 4 = st ∧ w.peekLe (a + 12) 4 = 0
             ∧ w.peekLe (a + 16) 8 = (s.podTime 0).toNat ∧ w.peekLe (a + 24) 4 = b.seq.toNat
             ∧ w.peekLe (a + 28) 4 = (1 - p.cqtail.toNat / size % 2) * 2 ^ 31
             ∧ ∀ k, ¬ (a ≤ k ∧ k < a + 32) → w.peek k = s.peek k))
    let head := p.queue = b :: q ∧ p.since = some since ∧ s.awake = true ∧ s.chosenHead = some (t, g.toNat)
    let owned := b.flag 10 = true → b.gidx < bitsAt ten.tecr 16 13
    let go := fun (kind : Nat) => head ∧ b.malformed = false ∧ b.kind = kind ∧ owned
    let kinds : List (Nat × Instr) := [(1, .submitLaunch n g), (2, .submitEcadd n g), (3, .submitEcarm n g), (4, .submitNop n g)]
    let same := fun (w : State) => w.counters = s.counters ∧ w.launches = s.launches
    (¬ valid → ∃ w : State, exec store s = .next w ∧ w.tenants = s.tenants ∧ w.mem = s.mem)
    ∧ (valid → full → ∃ w : State, exec store s = .next w ∧ page w = { p with retry := true } ∧ w.mem = s.mem)
    ∧ (valid → ¬ full → ∃ w : State, exec store s = .next w ∧ (page w).queue = p.queue ++ [{ bytes := bytes, seq := p.accepted }]
        ∧ (page w).accepted = p.accepted + 1 ∧ (page w).out = p.out + 1 ∧ (page w).running = p.running
        ∧ (page w).retry = p.retry ∧ w.mem = s.mem)
    ∧ (∀ e ∈ kinds, (p.queue = [] ∨ p.since = none ∨ s.awake = false ∨ s.chosenHead ≠ some (t, g.toNat)) → exec e.2 s = .next s)
    ∧ (∀ e ∈ kinds, head → b.malformed = true → completes e.2 3 same)
    ∧ (∀ e ∈ kinds, head → b.malformed = false → b.kind = e.1 → ¬ owned → completes e.2 6 same)
    ∧ (go 4 → completes (.submitNop n g) 0 same)
    ∧ (go 2 → ¬ owns → completes (.submitEcadd n g) 6 same)
    ∧ (go 2 → owns → ctr.trigs = [] → (∀ w ∈ s.waiters, w.key ≠ counterKey (base + index)) →
        completes (.submitEcadd n g) 0 (fun w => (w.counterAt (base + index)).val = ctr.val + b.word 4
          ∧ ∀ i, i ≠ base + index → w.counterAt i = s.counterAt i))
    ∧ (go 3 → ¬ owns → completes (.submitEcarm n g) 6 same)
    ∧ (go 3 → owns → 2 ≤ ctr.trigs.length → completes (.submitEcarm n g) 5 same)
    ∧ (go 3 → owns → ctr.trigs.length < 2 → s.depthFull t = false → ctr.val.toNat < (b.word 4).toNat →
        completes (.submitEcarm n g) 0 (fun w => ∃ h : Trigger, h.thr = b.word 4 ∧ h.action = bitsAt w1 12 2 ∧ h.ten = t
          ∧ (h.action = 1 → h.arg = b.word 5) ∧ (h.action = 2 → h.arg = BitVec.ofNat 64 (bitsAt w1 16 5))
          ∧ w.counterAt (base + index) = { ctr with trigs := ctr.trigs ++ [h] } ∧ w.launches = s.launches))
    ∧ (go 1 →
        let u := s.takeHead t g.toNat b
        (u.agentWords t w1 24 = none → completes (.submitLaunch n g) 3 same)
        ∧ ∀ r, u.agentWords t w1 24 = some r →
            let l : W32 → Launch := fun id =>
              { ten := t, ctxid := id, record := r.take 128 ++ sliceBytes b.bytes 64 64, recVa := w1,
                prio := min b.prio (bitsAt ten.tsubcfg 9 3),
                sub := some { page := g.toNat, tag := b.word 1, cpl := b.flag 8, int := b.flag 9, seq := b.seq },
                queue := g.toNat, state := .queued, since := since, origin := 0, placedAt := none, ended := none,
                faulted := false, held := false, saved := [], evicted := [], records := [], finished := [] }
            ((∀ id, (l id).malformed = true) → completes (.submitLaunch n g) 3 same)
            ∧ ((∀ id, (l id).malformed = false ∧ u.rejects (l id) = true) → completes (.submitLaunch n g) 4 same)
            ∧ ((∀ id, (l id).malformed = false ∧ u.rejects (l id) = false) → ∃ (w : State) (id : W32), exec (.submitLaunch n g) s = .next w
                ∧ w.launches = s.launches ++ [l id] ∧ w.nextCtx = id + 1 ∧ (page w).queue = q
                ∧ (page w).running = p.running ++ [b] ∧ w.mem = s.mem))

/-- 04_host_interface.md R82; 05_boot_trust.md R84 to R89; 07_cores_memory.md R149. STATUS 0 OK, 1 DENIED, 2 BADARG, 3 ATTR, 4 BADSIG, 5 NOMEM; tenant 16 is
the firmware. -/
def Obligations.MonitorCalls : Prop :=
  ∀ (s : State) (svc : BitVec 4), s.Inv →
    let v := svc.toNat
    let m := s.mboxAt v 3
    let slot := m.head.toNat % 64
    let e := sliceBytes (Tab.get m.ents [] slot) 0 64
    let ten := min (recNat e 10 2) 16
    let arg := fun (i : Nat) => (BitVec.ofNat 64 (recNat e (16 + 8 * i) 8) : W64)
    let calls : List (Nat × Instr) := [(1, .mappte svc), (2, .frattr svc), (3, .segload svc), (4, .quote svc), (5, .tencfg svc)]
    let legal := recNat e 0 8 / 2 ^ 9 % 2 ^ 7 = 0 ∧ recNat e 0 8 / 2 ^ 29 % 8 = 0 ∧ recNat e 14 2 = 0
      ∧ 1 ≤ recNat e 8 2 ∧ recNat e 8 2 ≤ 5 ∧ (recNat e 10 2 < 16 ∨ recNat e 10 2 = 0xFFFF)
    let ends := fun (i : Instr) (st res : Nat) (eff : State → Prop) => ∃ w : State, exec i s = .next w ∧ eff w
      ∧ (w.mboxAt v 3).head = m.head + 1 ∧ (w.mboxAt v 3).tail = m.tail
      ∧ (let f := Tab.get (w.mboxAt v 3).ents [] slot
         recNat f 0 8 / 256 % 2 = 1 ∧ recNat f 12 2 = st ∧ recNat f 48 8 = res ∧ recNat f 56 8 = 0
         ∧ recNat f 8 4 = recNat e 8 4)
    let same := fun (w : State) => w.mem = s.mem ∧ w.tenants = s.tenants ∧ w.cores = s.cores ∧ w.attr = s.attr
      ∧ w.fwAttest = s.fwAttest
    let first := m.head ≠ m.tail ∧ s.monFirst v = true
    let go := fun (f : Nat) => first ∧ recNat e 0 1 = 0x20 ∧ legal ∧ recNat e 8 2 = f
    (∀ c ∈ calls, m.head = m.tail → exec c.2 s = .next s)
    ∧ (∀ c ∈ calls, s.monFirst v = false → exec c.2 s = .next s)
    ∧ (∀ c ∈ calls, first → recNat e 0 1 ≠ 0x20 → ∃ w : State, exec c.2 s = .next w ∧ same w
        ∧ w.dieLog = s.dieLog ++ [(v / 4, e)] ∧ (w.mboxAt v 3).head = m.head + 1)
    ∧ (∀ c ∈ calls, first → recNat e 0 1 = 0x20 → ¬ legal → ends c.2 2 0 same)
    ∧ (∀ c ∈ calls, ∀ k, k ≠ c.1 → go k → exec c.2 s = .next s)
    ∧ (go 1 →
        let va := arg 0
        let pte := arg 1
        let level := (arg 2).toNat
        let size := if level = 1 then 2 ^ 29 else 65536
        let frames := if pteV pte then mappedFrames level pte else []
        let badArg := ¬ (level = 1 ∨ level = 3) ∨ va.toNat % size ≠ 0 ∨ 2 ^ 55 ≤ va.toNat
          ∨ (pteV pte = true ∧ (pteLeaf pte = false ∨ pteBad (if level = 1 then 1 else 2) (decide (ten = 16)) pte = true))
        let measured := fun (f : Nat) => bitOn (Tab.get s.attr 0 f) 6
        let denied := (∃ f ∈ frames, if ten = 16 then ∃ t, t < 16 ∧ inWindow (s.tenantAt t).tfwin f = true
            else inWindow (s.tenantAt ten).tfwin f = false)
          ∨ (ten < 16 ∧ s.handlerRange va.toNat (size / 65536) = true)
          ∨ (pteX pte = true ∧ ∃ f ∈ frames, measured f = false) ∨ (pteW pte = true ∧ ∃ f ∈ frames, measured f = true)
        let differs := ∃ f ∈ frames, s.kindDiffers pte f = true
        (badArg → ends (.mappte svc) 2 0 same)
        ∧ (¬ badArg → denied → ends (.mappte svc) 1 0 same)
        ∧ (¬ badArg → ¬ denied → differs → ends (.mappte svc) 3 0 same)
        ∧ (¬ badArg → ¬ denied → ¬ differs →
            (s.leafAbove (s.rootOf ten) va.toNat level = true → ends (.mappte svc) 2 0 same)
            ∧ (s.leafAbove (s.rootOf ten) va.toNat level = false → s.tableEntry (s.rootOf ten) va.toNat level = none →
                ends (.mappte svc) 5 0 same)
            ∧ ∀ u k, s.leafAbove (s.rootOf ten) va.toNat level = false → s.tableEntry (s.rootOf ten) va.toNat level = some (u, k) → ends (.mappte svc) 0 (u.peekLe k 8) (fun w =>
                w.peekLe k 8 = pte.toNat ∧ (∀ j, ¬ (k ≤ j ∧ j < k + 8) → w.peek j = u.peek j) ∧ w.tenants = u.tenants
                ∧ (pteV (BitVec.ofNat 64 (u.peekLe k 8)) = true → level = 3 → ∀ c, ∀ t ∈ (w.coreAt c).tlb,
                    ¬ (t.ten = ten ∧ t.level ≠ 1 ∧ t.page = va.toNat / 65536)))))
    ∧ (go 2 →
        let f := (arg 0).toNat
        let bad := 2 ^ 36 ≤ f ∨ (arg 1).toNat / 2 ^ 7 ≠ 0
        (bad → ends (.frattr svc) 2 0 same)
        ∧ (¬ bad → s.frameMapped f = true → ends (.frattr svc) 1 0 same)
        ∧ (¬ bad → s.frameMapped f = false → ends (.frattr svc) 0 0 (fun w =>
            Tab.get w.attr 0 f = BitVec.ofNat 16 ((arg 1).toNat % 64) ∧ (∀ g, g ≠ f → Tab.get w.attr 0 g = Tab.get s.attr 0 g)
            ∧ (∀ k, w.peek k = if (arg 1).toNat % 4 ≠ 0 ∧ f * 65536 ≤ k ∧ k < f * 65536 + 65536 then 0 else s.peek k)
            ∧ w.tenants = s.tenants)))
    ∧ (go 3 →
        let i := (arg 1).toNat
        let call := Instr.segload svc
        (s.tenRead ten (arg 0) 512 = none → ends call 2 0 same)
        ∧ ∀ h, s.tenRead ten (arg 0) 512 = some h →
          (s.tenRead ten (arg 0) (512 + 448 * recNat h 6 2) = none → ends call 2 0 same)
          ∧ ∀ c, s.tenRead ten (arg 0) (512 + 448 * recNat h 6 2) = some c →
            let seg := sliceBytes c (512 + 448 * i) 448
            let key := sliceBytes c 64 384
            let good := keyAccepted key (decide (ten = 16)) = true ∧ rsaVerify key (seg.take 64) (sliceBytes seg 64 384) = true
            let ok := containerOk c (recNat c 8 8) i = true
            (¬ ok → ends call 2 0 same)
            ∧ (ok → ¬ good → ends call 4 0 same)
            ∧ (ok → good → s.tenRead ten (BitVec.ofNat 64 (recNat seg 8 8)) (recNat seg 16 8) = none → ends call 4 0 same)
            ∧ ∀ bytes, ok → good → s.tenRead ten (BitVec.ofNat 64 (recNat seg 8 8)) (recNat seg 16 8) = some bytes →
              (sha256 bytes ≠ sliceBytes seg 32 32 → ends call 4 0 same)
              ∧ (sha256 bytes = sliceBytes seg 32 32 → 1024 ≤ (s.attestOf ten).log.length → ends call 5 0 same)
              ∧ (sha256 bytes = sliceBytes seg 32 32 → (s.attestOf ten).log.length < 1024 → recNat seg 0 2 ≠ 1 →
                  ends call 0 0 (fun w => w.mem = s.mem ∧ w.attestOf ten = (s.attestOf ten).extend
                    (sliceBytes seg 0 2 ++ sliceBytes seg 8 16 ++ sliceBytes seg 32 32 ++ sha256 key)))
              ∧ (sha256 bytes = sliceBytes seg 32 32 → (s.attestOf ten).log.length < 1024 → recNat seg 0 2 = 1 →
                  ends call 0 0 (fun w => ∃ x, w.attestOf ten = (s.attestOf ten).extend x)))
    ∧ (go 4 →
        let a := s.attestOf ten
        let call := Instr.quote svc
        (s.tenRead ten (arg 0) 32 = none ∨ (arg 1).toNat % 64 ≠ 0 → ends call 2 0 same)
        ∧ ∀ n, s.tenRead ten (arg 0) 32 = some n → (arg 1).toNat % 64 = 0 →
          let body := a.chain ++ sha256 n ++ leBytes 4 a.log.length ++ leBytes 2 (if ten < 16 then ten else 0xFFFF)
            ++ List.replicate 58 0
          (s.tenWrite ten (arg 1) (body ++ sliceBytes (Config.identitySign body) 0 384) = none → ends call 2 0 same)
          ∧ ∀ u, s.tenWrite ten (arg 1) (body ++ sliceBytes (Config.identitySign body) 0 384) = some u →
              ends call 0 (a.log.length % 2 ^ 64) (fun w => w.mem = u.mem ∧ w.tenants = s.tenants))
    ∧ (go 5 →
        let call := Instr.tencfg svc
        let regs : List (Nat × (State → Nat → W64 → Option State)) := [(0, State.writeTrect), (1, State.writeTecr),
          (2, State.writeTsubcfg), (3, State.writeTestr), (4, State.writeTfwin)]
        (ten = 16 ∨ 4 < (arg 0).toNat → ends call 2 0 same)
        ∧ ∀ r ∈ regs, ten < 16 → (arg 0).toNat = r.1 →
            (r.2 s ten (arg 1) = none → ends call 1 0 (fun w => same w ∧ w.mcerr = true))
            ∧ ∀ u, r.2 s ten (arg 1) = some u → ends call 0 0 (fun w => w.tenants = u.tenants ∧ w.mem = s.mem))

/-- 04_host_interface.md R82, R83. -/
def Obligations.ServiceCommands : Prop :=
  ∀ (s : State) (svc : BitVec 4),
    let v := svc.toNat
    let m := s.mboxAt v 2
    let e := sliceBytes (Tab.get m.ents [] (m.head.toNat % 64)) 0 64
    let ten := recNat e 10 2
    let arg := fun (i : Nat) => (BitVec.ofNat 64 (recNat e (16 + 8 * i) 8) : W64)
    let cmds : List (Nat × Instr) := [(1, .release svc), (2, .suspend svc), (3, .resume svc), (4, .killremote svc),
      (16, .ctrreset svc), (32, .fabsend svc)]
    let out := s.mboxAt v 0
    let kept := fun (w : State) => w.mem = s.mem ∧ w.launches = s.launches ∧ w.kills = s.kills ∧ w.cores = s.cores
      ∧ w.clusters = s.clusters ∧ w.counters = s.counters ∧ w.fabric = s.fabric
    let taken := fun (w : State) => (w.mboxAt v 2).head = m.head + 1 ∧ (w.mboxAt v 2).tail = m.tail
    let refused := fun (i : Instr) (reason : Nat) => ∃ w : State, exec i s = .next w ∧ kept w ∧ taken w
      ∧ (out.held = [] → (out.tail - out.head).toNat < 64 →
          let f := Tab.get (w.mboxAt v 0).ents [] (out.tail.toNat % 64)
          (w.mboxAt v 0).tail = out.tail + 1 ∧ recNat f 0 1 = 1 ∧ recNat f 8 1 = 9 ∧ recNat f 32 2 = recNat e 8 2
          ∧ recNat f 34 1 = reason ∧ recNat f 36 4 = recNat e 4 4)
    let go := fun (c : Nat) => m.head ≠ m.tail ∧ recNat e 0 1 = 0x10 ∧ recNat e 8 2 = c
    let id : W32 := (arg 0).setWidth 32
    (∀ c ∈ cmds, m.head = m.tail → exec c.2 s = .next s)
    ∧ (∀ c ∈ cmds, m.head ≠ m.tail → recNat e 0 1 ≠ 0x10 → ∃ w : State, exec c.2 s = .next w ∧ kept w ∧ taken w
        ∧ w.dieLog = s.dieLog ++ [(v / 4, e)])
    ∧ (∀ c ∈ cmds, ∀ k, go k → (∀ d ∈ cmds, d.1 ≠ k) → refused c.2 1)
    ∧ (∀ c ∈ cmds, ∀ d ∈ cmds, d.1 ≠ c.1 → go d.1 → exec c.2 s = .next s)
    ∧ (go 1 →
        let cl := (arg 0).toNat
        let k := s.clusterAt cl
        let wrong := k.halted = false ∨ ∃ x ∈ s.kills, x.ctxid = k.haltCtx
        (256 ≤ cl → refused (.release svc) 2)
        ∧ (cl < 256 → wrong → refused (.release svc) 3)
        ∧ (cl < 256 → ¬ wrong → ∃ w : State, exec (.release svc) s = .next w ∧ taken w
            ∧ w.clusterAt cl = { Cluster.reset with tlb := k.tlb, busyAt := s.now }
            ∧ (∀ d, d ≠ cl → w.clusterAt d = s.clusterAt d) ∧ (∀ c, c / 16 = cl → w.coreAt c = Core.reset)
            ∧ (∀ c, c / 16 ≠ cl → w.coreAt c = s.coreAt c) ∧ w.mem = s.mem))
    ∧ (go 2 → (s.launchBy ten id = none → refused (.suspend svc) 3)
        ∧ ∀ l, s.launchBy ten id = some l → (s.prevec = 0 ∨ l.state ≠ .placed → refused (.suspend svc) 3)
          ∧ (s.prevec ≠ 0 → l.state = .placed → s.dying l = true → ∃ w : State, exec (.suspend svc) s = .next w ∧ taken w
              ∧ w.launches = s.launches)
          ∧ (s.prevec ≠ 0 → l.state = .placed → s.dying l = false → ∃ (w : State) (k : Launch), exec (.suspend svc) s = .next w ∧ taken w ∧ k ∈ w.launches
              ∧ k.ten = l.ten ∧ k.ctxid = l.ctxid ∧ k.held = true ∧ (k.state = .victim ∨ k.state = .suspended)))
    ∧ (go 3 → (s.launchBy ten id = none → refused (.resume svc) 3)
        ∧ ∀ l, s.launchBy ten id = some l → (¬ (l.state = .suspended ∧ l.held = true) → refused (.resume svc) 3)
          ∧ (l.state = .suspended → l.held = true → ∃ w : State, exec (.resume svc) s = .next w ∧ taken w
              ∧ w.launches = s.launches.filter (fun k => ! decide (k.ten = l.ten ∧ k.ctxid = l.ctxid))
                ++ [{ l with state := .queued, held := false, since := s.now }]
              ∧ w.mem = s.mem ∧ w.cores = s.cores))
    ∧ (go 4 →
        let mods := (upTo 0 64).filter (fun i => bitOn (arg 1) i && i != s.modid)
        let dying := ∃ k ∈ s.kills, k.ten = ten ∧ k.ctxid = id
        let known := dying ∨ s.launchBy ten id ≠ none
        (¬ known → refused (.killremote svc) 3)
        ∧ (known → (∃ i ∈ mods, s.podN ≤ i) → refused (.killremote svc) 2)
        ∧ (known → ¬ dying → (∀ i ∈ mods, i < s.podN) → ∃ (w : State) (l : Launch), exec (.killremote svc) s = .next w
            ∧ w.launchBy ten id = some l ∧ l.ended ≠ none)
        ∧ (known → (∀ i ∈ mods, i < s.podN) → ∃ (w : State) (k : Kill), exec (.killremote svc) s = .next w
            ∧ taken w ∧ k ∈ w.kills ∧ k.ten = ten ∧ k.ctxid = id ∧ k.mods = mods ∧ w.mem = s.mem
            ∧ ∀ i ∈ mods, ∃ d, ∃ q ∈ Tab.get w.fabric.sendq [] d, q.pkt.dst = BitVec.ofNat 6 i ∧ q.pkt.body.op = .kill
              ∧ q.pkt.body.ctxid = id ∧ q.pkt.stream = 5))
    ∧ (go 16 →
        let i := (arg 0).toNat
        (4096 ≤ i → refused (.ctrreset svc) 2)
        ∧ (i < 4096 → (∃ w ∈ s.waiters, w.key = counterKey i) → refused (.ctrreset svc) 3)
        ∧ (i < 4096 → (∀ w ∈ s.waiters, w.key ≠ counterKey i) → ∃ w : State, exec (.ctrreset svc) s = .next w ∧ taken w
            ∧ w.counterAt i = { val := 0, trigs := [] } ∧ (∀ j, j ≠ i → w.counterAt j = s.counterAt j) ∧ w.mem = s.mem
            ∧ w.cores = s.cores))
    ∧ (go 32 →
        (64 ≤ (arg 0).toNat → refused (.fabsend svc) 2)
        ∧ ((arg 0).toNat < 64 → ∃ (w : State) (d : Nat) (q : Queued), exec (.fabsend svc) s = .next w ∧ taken w ∧ w.mem = s.mem ∧ w.cores = s.cores
            ∧ Tab.get w.fabric.sendq [] d = Tab.get s.fabric.sendq [] d ++ [q] ∧ q.pkt.dst = (arg 0).setWidth 6
            ∧ q.pkt.stream = 5 ∧ q.pkt.body.bytes = leBytes 8 (arg 1).toNat ++ leBytes 8 (arg 2).toNat ++ leBytes 8 (arg 3).toNat))

/-- 02_optical_fabric.md R21, R22, R24, R29, R31, R33 to R35, R43 to R45; 03_module_fabric.md R52; 08_memory_model.md R157. -/
def Obligations.FabricAndRouters : Prop :=
  (∀ (s : State) (spar : BitVec 3) (peer : BitVec 6) (flit : List Byte),
    let k := spar.toNat * 64 + peer.toNat
    let l := Tab.get s.fabric.links Link.reset k
    let word := recNat flit 0 4
    let good := flit.length = 136 ∧ (crc32c (flit.take 132)).toNat = recNat flit 132 4
    let link := fun (w : State) => Tab.get w.fabric.links Link.reset k
    let covered := fun (q : List Byte) => (BitVec.ofNat 12 (word / 2 ^ 12) - BitVec.ofNat 12 (recNat q 0 4)).toNat < 2048
    let rest := l.replay.filter (fun q => ! decide (covered q))
    let asks := l.resend = true ∨ word / 2 ^ 26 % 2 = 1
    let resent := word / 2 ^ 26 % 2 = 1 ∧ s.connected spar.toNat peer.toNat = true ∧ (s.fabric.lock = true ∨ s.fabric.boot = true)
    let inOrder := BitVec.ofNat 12 word = l.aseq + 1
    let kind := word / 2 ^ 24 % 4
    let part := if kind = 1 then [sliceBytes flit 4 128] else l.part ++ [sliceBytes flit 4 128]
    let p := packetOf (part.flatMap id)
    let after := fun (w : State) => (link w).lseq = l.lseq ∧ w.mem = s.mem ∧ w.cores = s.cores
      ∧ (¬ resent → (link w).replay = rest ∧ ((link w).resend = true ↔ asks))
      ∧ (resent → (link w).replay.length = rest.length ∧ (link w).resend = false)
    (¬ good ∨ word / 2 ^ 27 ≠ 0 → ∃ w : State, exec (.flitReceive spar peer flit) s = .next w ∧ link w = { l with nak := true }
      ∧ w.fabric.log = s.fabric.log ++ [flit] ∧ w.mem = s.mem ∧ w.cores = s.cores)
    ∧ (good → word / 2 ^ 27 = 0 → l.nak = true → l.restored flit = false → exec (.flitReceive spar peer flit) s = .next s)
    ∧ (good → word / 2 ^ 27 = 0 → l.nak = false ∨ l.restored flit = true →
        (kind = 0 ∨ kind = 3 ∨ ¬ inOrder → ∃ w : State, exec (.flitReceive spar peer flit) s = .next w ∧ after w
          ∧ (link w).aseq = l.aseq ∧ (link w).nak = false ∧ (link w).part = l.part)
        ∧ (kind = 2 ∨ kind = 1 ∧ s.awake = true → inOrder → part.length < max 1 p.len.toNat →
            ∃ w : State, exec (.flitReceive spar peer flit) s = .next w ∧ after w
              ∧ (link w).aseq = BitVec.ofNat 12 word ∧ (link w).nak = false ∧ (link w).part = part)
        ∧ (kind = 2 ∨ kind = 1 ∧ s.awake = true → inOrder → max 1 p.len.toNat ≤ part.length →
            ∃ u : State, after u ∧ (link u).aseq = BitVec.ofNat 12 word ∧ (link u).nak = false ∧ (link u).part = []
              ∧ exec (.flitReceive spar peer flit) s = .next ((u.takePacket p).answerFlit spar.toNat peer.toNat))))
  ∧ (∀ (s : State) (die : BitVec 2) (router : BitVec 8) (flit : MeshFlit) (idx : Nat) (n m c : Nat), s.calendar = (n, m, c) → 0 < c →
      let f := s.fabric
      let fab := fun (i : Instr) (g : Fabric) => exec i s = .next { s with fabric := g }
      let first := s.modid = 0 ∧ s.podN ≠ 0
      let cycle := s.cycleC * 8192
      let queue := Tab.get f.sendq [] die.toNat
      let reach := fun (p : Packet) => (upTo 0 8).filter (fun x => decide (sparOffset n c x (s.sparTack x) = Nat.xor m p.dst.toNat))
      let direct := fun (p : Packet) => nth (reach p) 0 (Tab.get f.dealt 0 p.dst.toNat % max 1 (reach p).length)
      let fits := fun (p : Packet) => reach p ≠ [] ∧ p.len.toNat ≤ s.windowFlits (direct p) ∧ p.len.toNat ≤ s.replayRoom (direct p)
      let flow := fun (p : Packet) => p.dst.toNat * 128 + p.ten.toNat * 8 + p.stream.toNat
      let timed := if f.boot then 131072 else 2 * cycle
      let leaves := fun (q : Queued) (r : List Queued) (spar : Nat) (rly : Bool) (w : State) =>
        let p := { q.pkt with seq := if q.seqd = true ∨ q.pkt.kind = 1 then q.pkt.seq else Tab.get f.nextSeq 0 (flow q.pkt), rly := rly }
        w.fabric.sent = f.sent ++ [(spar, p)] ∧ Tab.get w.fabric.sendq [] die.toNat = r
        ∧ (q.pkt.kind = 1 → w.fabric.unacked = f.unacked ∧ w.fabric.nextSeq = f.nextSeq)
        ∧ (q.pkt.kind ≠ 1 → w.fabric.unacked = f.unacked
            ++ [{ pkt := { p with rly := false }, deadline := s.now + timed, expiries := q.expiries, stopped := q.quiet }])
        ∧ (q.pkt.kind ≠ 1 → q.seqd = false → Tab.get w.fabric.nextSeq 0 (flow q.pkt) = p.seq + 1)
        ∧ w.mem = s.mem ∧ w.cores = s.cores
      let dark := f.fdarkt.toNat / 4096
      let switch := f.fswtime.toNat / 4096
      let nlog := bitsAt f.fnext 8 3
      let n1 := if nlog = 0 then 0 else 2 ^ nlog
      let id := flit.id.toNat
      let r := router.toNat
      let key := flitKey r flit.port id
      let strange := 56 ≤ id ∨ (id < 48 ∧ s.inRect (id % 16) r = false)
      let swept := id < 48 ∧ ∃ k ∈ s.kills, k.ten = id % 16 ∧ k.ctxid = flit.ctxid ∧ ∃ q ∈ k.started, q.1 = r ∧ s.now < q.2 + 16384
      (f.opened = some s.tack → f.fgrant.toNat = f.granted →
        fab .tackBoundary { f with links := Tab.mapV f.links (fun _ l => { l with resend := l.resend || ! l.replay.isEmpty }),
                                   late := f.late || (decide (f.rig = 5) && decide (switch ≤ s.tack)) })
      ∧ (f.opened ≠ some s.tack → ∃ w : State, exec .tackBoundary s = .next w ∧ w.mem = s.mem ∧ w.cores = s.cores
          ∧ w.fabric.opened = some s.tack ∧ w.fabric.granted = f.fgrant.toNat
          ∧ w.fabric.late = (f.late || (decide (f.rig = 5) && decide (switch ≤ s.tack)))
          ∧ (n ≠ 0 → f.rig < 4 → ∀ spar, spar < 8 →
              let off := sparOffset n c spar s.tack
              (off = 0 → Tab.get w.fabric.delays 0 spar = min 400 (Config.roundTrip spar s.now / 2))
              ∧ (off ≠ 0 → ∃ e ∈ w.fabric.flits, e.1 = spar ∧ e.2.1 = Nat.xor m off ∧ flitKind e.2.2 = 3)))
      ∧ (s.modid ≠ 0 → f.lastExch + 64 * cycle ≤ s.now → fab .lockTimeout { f with lock := false, good := 0 })
      ∧ (s.modid = 0 ∨ s.now < f.lastExch + 64 * cycle → exec .lockTimeout s = .next s)
      ∧ (first → fab .referencePllLockLoss { f with pllLock := false, lock := false })
      ∧ (¬ first → fab .referencePllLockLoss { f with pllLock := false })
      ∧ (f.pllLock = false → fab .grandmasterRelock { f with pllLock := true, pllSince := s.now })
      ∧ (f.pllLock = true → first → f.pllSince + 131072 ≤ s.now → fab .grandmasterRelock { f with lock := true })
      ∧ (f.pllLock = true → ¬ first ∨ s.now < f.pllSince + 131072 → exec .grandmasterRelock s = .next s)
      ∧ (queue = [] → exec (.packetAssign die) s = .next s)
      ∧ (∀ h t, queue = h :: t → f.rig = 0 → n ≤ h.pkt.dst.toNat → exec (.packetAssign die) s
          = .next (({ s with fabric := { f with sendq := Tab.set f.sendq die.toNat t } } : State).reportLost h.pkt (! h.seqd)))
      ∧ (f.rig ≠ 0 ∨ (∀ h, queue.head? = some h → h.pkt.dst.toNat < n) →
          ((∀ e ∈ queue, s.openTo e = false) → exec (.packetAssign die) s = .next s)
          ∧ (f.lock = false → f.boot = false → exec (.packetAssign die) s = .next s)
          ∧ (∀ l q t, queue = l ++ q :: t → (∀ e ∈ l, s.openTo e = false) → s.openTo q = true →
            (s.withinLimits q = false → exec (.packetAssign die) s = .next s)
            ∧ (s.withinLimits q = true → fits q.pkt → ∃ w : State, exec (.packetAssign die) s = .next w
                ∧ leaves q (l ++ t) (direct q.pkt) false w
                ∧ w.fabric.flits.length = f.flits.length + q.pkt.len.toNat
                ∧ Tab.get w.fabric.dealt 0 q.pkt.dst.toNat = Tab.get f.dealt 0 q.pkt.dst.toNat + 1)
            ∧ (s.withinLimits q = true → ¬ fits q.pkt → s.relayVia q.pkt = none → exec (.packetAssign die) s = .next s)
            ∧ (∀ p x, s.withinLimits q = true → ¬ fits q.pkt → s.relayVia q.pkt = some (p, x) →
                ∃ w : State, exec (.packetAssign die) s = .next w ∧ leaves q (l ++ t) x true w
                  ∧ Tab.get w.fabric.allow f.firstGrant (p * 4 + x / 2) = s.allowance p (x / 2) - q.pkt.len.toNat)))
      ∧ (∀ p, f.relayed[idx]? = some (die.toNat, p) →
          (p.dst.toNat < n → fits p → f.lock = true → f.rig < 4 → ∃ (w : State) (e : Nat × BitVec 12 × Nat × Nat),
            exec (.relayForward die idx) s = .next w
            ∧ w.fabric.relayed = f.relayed.eraseIdx idx ∧ w.fabric.sent = f.sent ++ [(direct p, { p with rly := false })]
            ∧ w.fabric.returns = f.returns ++ [e] ∧ e.2.2.1 = p.src.toNat * 4 + die.toNat ∧ e.2.2.2 = p.len.toNat
            ∧ w.fabric.retTotal = f.retTotal ∧ w.mem = s.mem ∧ w.cores = s.cores)
          ∧ (n ≤ p.dst.toNat ∨ ¬ fits p ∨ f.lock = false ∨ 4 ≤ f.rig → exec (.relayForward die idx) s = .next s))
      ∧ (∀ u, f.unacked[idx]? = some u →
          let d := s.dieTo u.pkt.dst.toNat
          (u.stopped = true ∨ s.now < u.deadline → exec (.endToEndTimer idx) s = .next s)
          ∧ (u.stopped = false → u.deadline ≤ s.now → u.expiries < 7 → ∃ w : State, exec (.endToEndTimer idx) s = .next w
              ∧ w.fabric.unacked = f.unacked.eraseIdx idx ∧ w.mem = s.mem
              ∧ Tab.get w.fabric.sendq [] d = { pkt := u.pkt, seqd := true, expiries := u.expiries + 1 } :: Tab.get f.sendq [] d)
          ∧ (u.stopped = false → u.deadline ≤ s.now → 7 ≤ u.expiries → ∃ w : State, exec (.endToEndTimer idx) s = .next w
              ∧ w.fabric.unacked = f.unacked.eraseIdx idx ∧ w.mem = s.mem
              ∧ (ordered u.pkt = true → Tab.get w.fabric.sendq [] d = Tab.get f.sendq [] d
                  ++ [{ pkt := { u.pkt with kind := 4, body := { } }, seqd := true, expiries := 0 }])
              ∧ ((s.mboxAt 0 0).held = [] → ((s.mboxAt 0 0).tail - (s.mboxAt 0 0).head).toNat < 64 →
                  let e := Tab.get (w.mboxAt 0 0).ents [] ((s.mboxAt 0 0).tail.toNat % 64)
                  recNat e 0 1 = 4 ∧ recNat e 8 4 = u.pkt.seq.toNat)))
      ∧ (f.rig ≠ 0 → fab .beginDrain { f with err := true })
      ∧ (f.rig = 0 → ∃ w : State, exec .beginDrain s = .next w ∧ w.fabric.rig = (if f.usedFlows = [] then 2 else 1)
          ∧ w.fabric.markers = f.usedFlows ∧ w.mem = s.mem ∧ w.cores = s.cores)
      ∧ (f.rig = 2 → dark + 6 ≤ switch → s.tack < dark → fab .arm { f with rig := 3 })
      ∧ (f.rig ≠ 2 ∨ switch < dark + 6 ∨ dark ≤ s.tack → fab .arm { f with err := true })
      ∧ (1 ≤ f.rig → f.rig ≤ 3 → fab .abandon
          { f with rig := 0, markers := [], sendq := Tab.mapV f.sendq (fun _ l => l.filter (fun e => e.seqd || e.pkt.kind != 2)) })
      ∧ (f.rig = 0 ∨ 3 < f.rig → fab .abandon { f with err := true })
      ∧ (f.rig = 3 → dark ≤ s.tack → s.tackClk = 0 → fab .goDark { f with rig := 4 })
      ∧ (f.rig ≠ 3 ∨ s.tack < dark ∨ s.tackClk ≠ 0 → exec .goDark s = .next s)
      ∧ (f.rig = 4 → dark + 1 ≤ s.tack → s.tackClk = 0 → fab .relockStart { f with rig := 5, relockAt := some (s.now + 40000) })
      ∧ (f.rig ≠ 4 ∨ s.tack < dark + 1 ∨ s.tackClk ≠ 0 → exec .relockStart s = .next s)
      ∧ (∀ t, f.relockAt = some t → f.rig = 5 → t ≤ s.now → fab .relockComplete
          { f with rig := 6, relockAt := none, delays := (upTo 0 8).map (fun i => (i, min 400 (Config.roundTrip i s.now / 2))) })
      ∧ (f.relockAt = none ∨ f.rig ≠ 5 ∨ (∃ t, f.relockAt = some t ∧ s.now < t) → exec .relockComplete s = .next s)
      ∧ (f.rig = 6 → switch ≤ s.tack → s.tackClk = 0 → ∃ w : State, exec .calendarSwitch s = .next w ∧ w.fabric.rig = 0 ∧ w.fabric.boot = false
          ∧ bitsAt w.fabric.fpod 0 6 = bitsAt f.fnext 0 6 ∧ bitsAt w.fabric.fpod 8 3 = nlog
          ∧ bitsAt w.fabric.fpod 16 16 = (bitsAt f.fpod 16 16 + 1) % 2 ^ 16 ∧ bitsAt w.fabric.fpod 32 32 = bitsAt f.fpod 32 32
          ∧ w.fabric.lock = (if bitsAt f.fnext 0 6 = 0 ∧ n1 ≠ 0 then true else f.lock)
          ∧ (∀ k, Tab.get w.fabric.allow w.fabric.firstGrant k = if k < 4 * min n1 s.podN then Tab.get f.allow f.firstGrant k else f.granted)
          ∧ w.fabric.sendq = Tab.mapV f.sendq (fun _ q => q.filter (fun e => decide (e.pkt.dst.toNat < n1))) ∧ w.mem = s.mem)
      ∧ (f.rig ≠ 6 ∨ s.tack < switch ∨ s.tackClk ≠ 0 → exec .calendarSwitch s = .next s)
      ∧ (s.flitLeaves flit = none → exec (.routerPacketArrive router flit) s = .next s)
      ∧ (∀ u, s.flitLeaves flit = some u →
          (strange → ∃ w : State, exec (.routerPacketArrive router flit) s = .next w ∧ w.routers = u.routers ∧ w.mem = s.mem
            ∧ w.dieLog = s.dieLog ++ [(r / 64, flit.bytes)])
          ∧ (¬ strange → swept ∨ 7 ≤ flit.port → exec (.routerPacketArrive router flit) s = .next u)
          ∧ (¬ strange → ¬ swept → flit.port < 7 → u.routerRoom r flit.port id = true → exec (.routerPacketArrive router flit) s
              = .next { u with routers := Tab.set u.routers key (Tab.get u.routers [] key ++ [flit]) })
          ∧ (¬ strange → ¬ swept → flit.port < 7 → u.routerRoom r flit.port id = false →
              exec (.routerPacketArrive router flit) s = .next s))
      ∧ (∀ w, s.waiters[idx]? = some w →
          (w.remote = none → exec (.remoteWaiterRetry idx) s = .next s)
          ∧ ∀ p, w.remote = some p → (s.now < w.since + 2 * cycle → exec (.remoteWaiterRetry idx) s = .next s)
            ∧ (w.since + 2 * cycle ≤ s.now → ∃ (u : State) (q : Queued), exec (.remoteWaiterRetry idx) s = .next u ∧ u.waiters = s.waiters.eraseIdx idx
                ∧ u.mem = s.mem ∧ Tab.get u.fabric.sendq [] (s.dieTo p.src.toNat) = Tab.get f.sendq [] (s.dieTo p.src.toNat) ++ [q]
                ∧ q.pkt.dst = p.src ∧ q.pkt.stream = 1 ∧ q.pkt.body.op = .retry)))
  ∧ (∀ (s : State) (core x : Nat),
      (∀ t, (s.ctxAt core x).retryAt = some t → t + 64 ≤ s.now →
        exec (.versionUnitRetry core x) s = .next (s.setCtx core x { s.ctxAt core x with retryAt := none }))
      ∧ ((s.ctxAt core x).retryAt = none ∨ (∃ t, (s.ctxAt core x).retryAt = some t ∧ s.now < t + 64) →
        exec (.versionUnitRetry core x) s = .next s))
  ∧ (∀ (s : State) (p : Packet),
      let f := s.fabric
      let key := p.src.toNat * 128 + p.ten.toNat * 8 + p.stream.toNat
      let r := Tab.get f.rx RxFlow.reset key
      let legal := p.stream.toNat < 6 ∧ p.kind.toNat ≤ 4 ∧ p.rsv = 0 ∧ (p.spec = 0 ∨ (p.kind = 1 ∧ p.spec = 1))
      let here := legal ∧ p.dst.toNat = s.ownNumber ∧ s.awake = true
      let ahead1 := (p.seq - r.base).toNat
      let waits := s.stillWaits p = true
      let parked := ∃ e ∈ s.parkedRemote, e.1.src = p.src ∧ e.1.ten = p.ten ∧ e.1.stream = p.stream ∧ e.1.seq = p.seq
      (¬ legal → ∃ w : State, exec (.packetReceive p) s = .next w ∧ w.mem = s.mem ∧ w.cores = s.cores
        ∧ w.fabric.log = f.log ++ [leBytes 16 (packetHeader p)] ∧ w.fabric.rx = f.rx)
      ∧ (legal → p.dst.toNat ≠ s.ownNumber → p.rly = true → s.holdsAsleep p = false → exec (.packetReceive p) s = .next s.wake)
      ∧ (legal → p.dst.toNat ≠ s.ownNumber → p.rly = true → s.holdsAsleep p = true → exec (.packetReceive p) s
          = .next { s with fabric := { f with relayed := f.relayed ++ [(s.dieTo p.dst.toNat, p)] } })
      ∧ (legal → p.dst.toNat ≠ s.ownNumber → p.rly = false → exec (.packetReceive p) s = .next s)
      ∧ (legal → p.dst.toNat = s.ownNumber → s.awake = false → ∃ w : State, exec (.packetReceive p) s = .next w
          ∧ w = { s with power := w.power, fabric := w.fabric }
          ∧ w.fabric = (if s.holdsAsleep p then { f with staged := f.staged ++ [(s.dieTo p.src.toNat, p)] } else f)
          ∧ (2 ≤ s.power.cur → s.power.entering = none → w.power.waking ≠ none ∧ w.power.entering = none))
      ∧ (here → p.kind ≠ 1 → ¬ parked → ¬ waits → 4096 ≤ ahead1 → ahead1 < 2 ^ 31 → exec (.packetReceive p) s = .next s)
      ∧ (here → (p.kind = 3 ∨ p.kind = 4) → ¬ parked → ¬ waits → ahead1 < 4096 → p.seq ∉ r.done → r.held = [] →
          ∃ (w : State) (q : Queued), exec (.packetReceive p) s = .next w ∧ w.mem = s.mem ∧ w.cores = s.cores
            ∧ Tab.get w.fabric.sendq [] (s.dieTo p.src.toNat) = Tab.get f.sendq [] (s.dieTo p.src.toNat) ++ [q]
            ∧ q.pkt.kind = 1 ∧ q.pkt.seq = p.seq ∧ q.pkt.dst = p.src ∧ q.pkt.stream = p.stream ∧ q.pkt.spec = 0
            ∧ (ahead1 ≠ 0 → (Tab.get w.fabric.rx RxFlow.reset key).done = p.seq :: r.done
                ∨ r.base ∈ r.done)
            ∧ (ahead1 = 0 → r.done = [] → Tab.get w.fabric.rx RxFlow.reset key = { r with base := r.base + 1 }))
      ∧ (here → p.kind = 2 ∨ p.kind = 0 ∧ (p.stream = 0 ∨ p.stream = 1 ∨ p.stream = 4 ∨ p.stream = 5) → ¬ parked → ¬ waits → 0 < ahead1 → ahead1 < 4096 →
          p.seq ∉ r.done → (∀ h ∈ r.held, h.seq ≠ p.seq) → s.heldFrom p.src.toNat < 1024 →
          exec (.packetReceive p) s = .next { s with fabric := { f with rx := Tab.set f.rx key { r with held := r.held ++ [p] } } }))

/-- 03_module_fabric.md R54, R62; 02_optical_fabric.md R37; 04_host_interface.md R73, R83; 09_traps_reliability.md R173, R177, R178,
R180, R192; 10_estates.md R198. That the cluster of the origin receives a kill when it is injected is the model's (log 30);
what die 0's send queues do to parked requests is too (log 97). -/
def Obligations.KillsAndMessages : Prop :=
  (∀ (s : State) (idx : Nat) (unit : KillUnit) (router : BitVec 8),
    (s.kills[idx]? = none → exec (.killReceive idx unit) s = .next s ∧ exec (.killSweepEnd idx router) s = .next s
      ∧ exec (.purgeConfirm idx) s = .next s)
    ∧ ∀ k, s.kills[idx]? = some k →
      let mine := fun (e : Queued) => e.pkt.ten.toNat = k.ten ∧ e.pkt.body.ctxid = k.ctxid ∧ e.pkt.kind = 0 ∧ e.pkt.stream ≠ 1
        ∧ (e.pkt.stream ≠ 5 ∨ e.pkt.body.op = .graphOpen)
      let holds := fun (c : Nat) => ∃ lc, (s.coreAt c).thread = some (k.ten, k.ctxid, lc)
      let gets := fun (j : Kill) (w : State) => w.kills = s.kills.set idx j ∧ w.mem = s.mem
      let flit := fun (q : MeshFlit) => q.id.toNat < 48 ∧ q.ten.toNat = k.ten ∧ q.ctxid = k.ctxid
      (unit ∈ k.reached ∨ s.floods k unit = false → exec (.killReceive idx unit) s = .next s)
      ∧ (unit ∉ k.reached → s.floods k unit = true →
          (∀ c, unit = .cluster c → ∃ w : State, exec (.killReceive idx unit) s = .next w
            ∧ gets { k with reached := unit :: k.reached, started := (c.toNat, s.now) :: k.started } w
            ∧ (∀ n, n < 4096 → n / 16 = c.toNat → holds n → (w.coreAt n).thread = none ∧ ∀ x, (w.ctxAt n x).live = false)
            ∧ (∀ n, n / 16 ≠ c.toNat → w.coreAt n = s.coreAt n)
            ∧ (∀ i, i / 512 = c.toNat → Tab.get w.routers [] i = (Tab.get s.routers [] i).filter (fun q => decide (¬ flit q)))
            ∧ (∀ i, i / 512 ≠ c.toNat → Tab.get w.routers [] i = Tab.get s.routers [] i))
          ∧ (∀ d, unit = .cleat d → ∃ w : State, exec (.killReceive idx unit) s = .next w
            ∧ gets { k with reached := unit :: k.reached } w ∧ w.cores = s.cores
            ∧ (d ≠ 0 → w.deaths = s.deaths)
            ∧ (∀ l, d = 0 → s.launchBy k.ten k.ctxid = some l → ∀ g, (g = BitVec.ofNat 32 (2 ^ 27) ∨
                ∃ lv ix : Nat, lv < l.nlev ∧ ix < l.countProd 0 (lv + 1) ∧ g = BitVec.ofNat 32 (lv * 2 ^ 24 + ix)) →
                (k.ten, k.ctxid, g) ∈ w.deadGroups ∨ ∃ e ∈ w.deaths, e.ten = k.ten ∧ e.ctxid = k.ctxid ∧ e.group = g))
          ∧ (∀ d, unit = .sendQueues d → ∃ w : State,
            exec (.killReceive idx unit) s = .next (if d = 0 then w.dropParked k.ten k.ctxid else w)
            ∧ gets { k with reached := unit :: k.reached } w ∧ w.cores = s.cores
            ∧ (∀ i, i ≠ d.toNat → Tab.get w.fabric.sendq [] i = Tab.get s.fabric.sendq [] i)
            ∧ (let old := Tab.get s.fabric.sendq [] d.toNat
               let new := Tab.get w.fabric.sendq [] d.toNat
               (∀ e ∈ new, ¬ mine e) ∧ (∀ e ∈ old, ¬ mine e → e ∈ new)
               ∧ (∀ e ∈ old, mine e → e.seqd = true → { e with pkt := { e.pkt with kind := 3, body := { }, len := 1 } } ∈ new)
               ∧ new.length = (old.filter (fun e => decide (¬ mine e) || e.seqd)).length)))
      ∧ (∀ q, k.started.find? (fun p => p.1 == router.toNat) = some q →
          (s.now < q.2 + 16384 ∨ router.toNat ∈ k.reported → exec (.killSweepEnd idx router) s = .next s)
          ∧ (q.2 + 16384 ≤ s.now → router.toNat ∉ k.reported → ∃ w : State, exec (.killSweepEnd idx router) s = .next w
              ∧ gets { k with reported := router.toNat :: k.reported } w ∧ w.routers = s.routers ∧ w.cores = s.cores))
      ∧ ((∀ p ∈ k.started, p.1 ≠ router.toNat) → exec (.killSweepEnd idx router) s = .next s)
      ∧ (let done := (∀ c, c < 256 → s.inRect k.ten c = true → c ∈ k.reported)
           ∧ (∀ d, .cleat d ∈ k.reached ∧ .sendQueues d ∈ k.reached) ∧ k.mods = []
         let die := dieOf k.origin
         let m := s.mboxAt (4 * die) 0
         (¬ done → exec (.purgeConfirm idx) s = .next s)
         ∧ (done → ∃ w : State, exec (.purgeConfirm idx) s = .next w ∧ w.kills = s.kills.eraseIdx idx ∧ w.mem = s.mem ∧ w.cores = s.cores
             ∧ (k.asked = none → m.held = [] → (m.tail - m.head).toNat < 64 →
                 let e := Tab.get (w.mboxAt (4 * die) 0).ents [] (m.tail.toNat % 64)
                 recNat e 0 1 = 2 ∧ recNat e 8 4 = k.ctxid.toNat ∧ recNat e 12 2 = k.ten % 65536
                 ∧ ∀ i, i < 64 → (recNat e 32 8 / 2 ^ i % 2 = 1 ↔ i = s.modid ∨ ∃ p ∈ k.started, p.1 = 256 + i))
             ∧ (∀ a, k.asked = some a → ∃ q, Tab.get w.fabric.sendq [] (s.dieTo a.toNat) = Tab.get s.fabric.sendq [] (s.dieTo a.toNat) ++ [q]
                 ∧ q.pkt.dst = a ∧ q.pkt.stream = 5 ∧ q.pkt.body.op = .killDone ∧ q.pkt.body.ctxid = k.ctxid)
             ∧ (∀ v, (s.tenantAt k.ten).trectNew = some v →
                 ((∃ j ∈ w.kills, j.ten = k.ten) → w.tenantAt k.ten = s.tenantAt k.ten)
                 ∧ ((∀ j ∈ w.kills, j.ten ≠ k.ten) → w.tenantAt k.ten = { s.tenantAt k.ten with trect := v, trectNew := none })))))
  ∧ (∀ (s : State) (t : BitVec 4) (ctxid : BitVec 32),
      (s.launchBy t.toNat ctxid = none → exec (.launchEnd t ctxid) s = .next s)
      ∧ ∀ l, s.launchBy t.toNat ctxid = some l →
        let isOf := fun (m : Launch) => m.ten = t.toNat ∧ m.ctxid = ctxid
        let ovr := (l.state = .placed ∨ l.ended ≠ none) ∧ s.launchOver l = true
        let st := if l.ended = none then 0 else if l.faulted then 1 else 2
        (¬ ovr → exec (.launchEnd t ctxid) s = .next s)
        ∧ (ovr → ∃ w : State, w.mem = s.mem ∧ (∀ m ∈ w.launches, ¬ isOf m) ∧ (∀ m ∈ s.launches, ¬ isOf m → m ∈ w.launches)
            ∧ (∀ c, s.holdsThread t.toNat ctxid c = true → (w.coreAt c).thread = none ∧ (w.coreAt c).ctxs = [])
            ∧ (∀ c, (∀ p ∈ s.cores, p.1 = c → ∀ lc, p.2.thread ≠ some (t.toNat, ctxid, lc)) → w.coreAt c = s.coreAt c)
            ∧ (l.sub = none → exec (.launchEnd t ctxid) s = .next w)
            ∧ ∀ f, l.sub = some f → ∃ cause, (st = 2 → cause = 0x1A) ∧ (∀ b, st = 1 → l.ended = some b → cause = b.toNat)
                ∧ (st = 0 → cause = 0)
                ∧ exec (.launchEnd t ctxid) s = .next (w.complete t.toNat f.page f.seq f.tag f.cpl f.int st cause ctxid)))
  ∧ (∀ (s : State) (c n : Nat),
      let k := s.coreAt c
      let x := s.ctxAt c n
      let free := fun (y : Ctx) => y.boundary = true ∧ y.tr = false ∧ y.ie = true
      let ready := fun (i : Nat) => free (s.ctxAt c i) ∧ ((s.ctxAt c i).kind = .control ∨ ∀ p ∈ k.ctxs, p.2.kind = .control → ¬ free p.2)
      let starts := fun (r : List TrapMsg) => r.take 3 ++ ((r.drop 3).take 1).map (fun q => { q with since := s.now }) ++ r.drop 4
      let place := fun (b : Byte) => if b = 0x18 then 0 else if b = 0x0E then 1 else if b = 0x0F then 2 else if b = 0x11 then 4
        else if b = 0x19 then 5 else 3
      let may := fun (a : AsyncCause) => x.tr = false ∧ (x.ie = true ∨ (a.cause = 0x19 ∧ x.pl = 0))
      let enter := fun (y : Ctx) (cause v vec : W64) => { y with
        tstatus := y.status, taddr := y.pc, tval := v, tcause := cause, status := handlerStatus y.status, trSince := s.now, pc := vec }
      (k.inbox = [] → exec (.trapMessageForward c) s = .next s ∧ exec (.trapMessageTake c) s = .next s)
      ∧ (∀ m r, k.inbox = m :: r →
          ((k.serving = true ∨ s.now < m.since + 128000) → (∀ q ∈ r.take 3, s.now < q.since + 128000) →
            exec (.trapMessageForward c) s = .next s)
          ∧ (∀ q g, k.serving = true → r = q :: g → q.since + 128000 ≤ s.now →
              exec (.trapMessageForward c) s = .next ((s.setCore c (k.popMsg 1 s.now)).forwardMsg q))
          ∧ (k.serving = false → m.since + 128000 ≤ s.now → m.hop + 1 < m.len →
              let e := chainCore m.chain (m.hop + 1)
              ∃ w : State, exec (.trapMessageForward c) s = .next w ∧ w.mem = s.mem
                ∧ (e ≠ c → (w.coreAt c).inbox = starts r
                    ∧ (w.coreAt e).inbox = (s.coreAt e).inbox ++ [{ m with hop := m.hop + 1, since := s.now }])
                ∧ (e = c → (w.coreAt c).inbox = starts r ++ [{ m with hop := m.hop + 1, since := s.now }])
                ∧ ∀ i j, w.ctxAt i j = s.ctxAt i j)
          ∧ (k.serving = false → m.since + 128000 ≤ s.now → m.len ≤ m.hop + 1 →
              exec (.trapMessageForward c) s = .next ((s.setCore c (k.popMsg 0 s.now)).chainExhausted m))
          ∧ (k.serving = true ∨ (∀ p ∈ k.ctxs, ¬ ready p.1) → exec (.trapMessageTake c) s = .next s)
          ∧ (∀ f y g, k.serving = false → k.ctxs = f ++ (n, y) :: g → (∀ p ∈ f, ¬ ready p.1) → ready n → k.tvec ≠ 0 →
              ∃ w : State, exec (.trapMessageTake c) s = .next w ∧ w.mem = s.mem ∧ (w.coreAt c).inbox = k.inbox
                ∧ w.ctxAt c n = enter x (BitVec.ofNat 64 (m.fcause.toNat + 0x300)) 0 k.tvec
                ∧ ∀ i, i ≠ n → w.ctxAt c i = s.ctxAt c i))
      ∧ ((∀ a ∈ x.asyncs, ¬ may a) ∨ x.live = false ∨ x.stopped = true ∨ x.due ≠ [] → exec (.asyncCauseTake c n) s = .next s)
      ∧ (∀ f a g, x.boundary = true → x.asyncs = f ++ a :: g → may a → (∀ b ∈ f, may b → place a.cause < place b.cause) →
          (∀ b ∈ g, may b → place a.cause ≤ place b.cause) →
          (a.cause ≠ 0x19 → (∀ b ∈ x.asyncs, may b → b.cause ≠ 0x19) → k.tvec ≠ 0 → ∃ w : State, exec (.asyncCauseTake c n) s = .next w ∧ w.mem = s.mem
            ∧ w.ctxAt c n = { enter x (BitVec.ofNat 64 (a.cause.toNat + 0x100)) a.val k.tvec with
                asyncs := f ++ g, heirless := decide (a.cause = 0x11) || x.heirless, grant := none }
            ∧ ∀ i j, ¬ (i = c ∧ j = n) → w.ctxAt i j = s.ctxAt i j)
          ∧ ((∃ b ∈ x.asyncs, may b ∧ b.cause = 0x19) → x.outstanding ≠ 0 ∨ x.grant ≠ none →
              exec (.asyncCauseTake c n) s = .next s)
          ∧ (a.cause = 0x19 → x.outstanding = 0 → x.grant = none → k.pvec ≠ 0 → ∃ w : State, exec (.asyncCauseTake c n) s = .next w ∧ w.mem = s.mem
            ∧ (let y := w.ctxAt c n
               y.pc = k.pvec ∧ y.tcause = 0x119 ∧ y.taddr = x.pc ∧ y.tval = a.val ∧ y.tstatus = x.status
               ∧ y.status = handlerStatus x.status ∧ y.asyncs = f ++ g ∧ y.x = x.x)))
      ∧ (x.live = false ∨ x.tr = false ∨ x.stopped = true ∨ k.rests n = true ∨ s.now < x.trSince + 2 ^ 20 → exec (.watchdog c n) s = .next s)
      ∧ (x.live = true → x.tr = true → x.stopped = false → k.rests n = false → x.trSince + 2 ^ 20 ≤ s.now →
          (bitOn x.tcause 9 = false → bitOn k.hchain 12 = true → ∃ (w : State) (m : TrapMsg), exec (.watchdog c n) s = .next w ∧ w.mem = s.mem
            ∧ (w.coreAt (bitsAt k.hchain 0 12)).inbox = (s.coreAt (bitsAt k.hchain 0 12)).inbox ++ [m]
            ∧ m.fcause = 0x1B ∧ m.faddr = x.pc ∧ m.origin = c ∧ m.octx = n ∧ m.hop = 0 ∧ m.taddr = x.taddr ∧ m.tval = x.tval
            ∧ (w.ctxAt c n).stopped = true ∧ (w.ctxAt c n).pc = x.pc ∧ (w.ctxAt c n).x = x.x)
          ∧ exec (.watchdog c n) s = .next ({ s with core := c, ctx := n }.handlerFault 0x1B 0 x.pc)))
  ∧ (∀ (s : State) (pa : Nat),
      let there := pa < 2 ^ 52 ∧ s.present (pa / 65536) = true
      let v := 4 * (pa / 2 ^ 37)
      let m := s.mboxAt v 0
      (¬ there → exec (.hbmUncorrectable pa) s = .next s)
      ∧ (there → ∃ w : State, exec (.hbmUncorrectable pa) s = .next w ∧ w.mem = s.mem ∧ w.cores = s.cores
          ∧ (∀ u, u ∈ w.poison ↔ u = pa / 8 ∨ u ∈ s.poison) ∧ w.aer = s.aer + 1
          ∧ (m.held = [] → (m.tail - m.head).toNat < 63 →
              let e := Tab.get (w.mboxAt v 0).ents [] (m.tail.toNat % 64)
              let f := Tab.get (w.mboxAt v 0).ents [] ((m.tail.toNat + 1) % 64)
              recNat e 0 1 = 1 ∧ recNat e 8 1 = 8 ∧ recNat e 16 8 = pa / 8 * 8 ∧ recNat e 32 1 = pa / 2 ^ 36
              ∧ recNat f 0 1 = 1 ∧ recNat f 8 1 = 1 ∧ recNat f 16 8 = pa / 8 * 8 ∧ recNat f 34 1 = 6)))

/-- 05_boot_trust.md R91 to R95. That a module which has heard no other leaves boot when it claims, and that the leader's
heartbeat says that boot has ended, is the model's reading (logs 85 and 86). -/
def Obligations.PodBoot : Prop :=
  (∀ (s : State) (c : Claim),
    let b := s.boot
    let f := s.fabric
    let own := s.ownNumber
    let cycle := s.calendar.1
    let round := max 1 b.round
    let lowest := ∀ p ∈ b.heard, p.1 < own → p.2 + 100000000 ≤ s.now
    let alone := ∀ p ∈ b.heard, p.1 ≠ own → p.2 + 100000000 ≤ s.now
    let sent := fun (w : State) (m : Nat) (op : BodyOp) (good : Body → Prop) => ∃ q ∈ Tab.get w.fabric.sendq [] (s.dieTo m),
      q.pkt.dst = BitVec.ofNat 6 m ∧ q.pkt.stream = 5 ∧ q.pkt.kind = 0 ∧ q.pkt.body.op = op ∧ good q.pkt.body
    let claims := (b.boot = 3 ∨ b.boot = 0) ∧ f.boot = true ∧ lowest ∧ ∀ l r, b.follows = some (l, r) → r < round ∨ (round = r ∧ own < l)
    let rest := fun (w : State) => w.mem = s.mem ∧ w.cores = s.cores ∧ w.boot.heard = s.boot.heard
    let leads := fun (w : State) (r : Nat) => rest w ∧ w.boot.follows = some (own, r) ∧ w.boot.leading = true
      ∧ w.boot.round = r ∧ w.boot.lastBeat = s.now ∧ w.boot.mhash = b.mhash
      ∧ w.boot.bits = [] ∧ w.boot.served = [] ∧ w.boot.lastSent = []
      ∧ ∀ m, m < cycle → m ≠ own → sent w m .claim (fun y => y.nb = r ∧ y.sel = own % 64)
    let better := ∀ l r, b.follows = some (l, r) → r < c.round ∨ (c.round = r ∧ c.num.toNat < l)
    let heardAll := ∀ m ∈ s.reached, Tab.find b.bits m ≠ none
    let full := ∀ (i : Nat) (e : List Byte), b.manifest[i]? = some e →
      (∀ m ∈ s.reached, hasChunk (Tab.get b.bits [] m) i = true) ∧ s.chunkBytes i e ≠ none
    let heard : State := { s with boot := { b with heard := Tab.set b.heard c.num.toNat s.now } }
    (¬ claims → exec .claim s = .next s)
    ∧ (claims → ∃ w : State, exec .claim s = .next w ∧ leads w round ∧ w.boot.boot = (if alone then 0 else b.boot))
    ∧ (claimVerifies c = false → exec (.claimReceive c) s = .next s)
    ∧ (claimVerifies c = true → ¬ better → exec (.claimReceive c) s = .next heard)
    ∧ (claimVerifies c = true → better → ∃ w : State, exec (.claimReceive c) s = .next w ∧ w.mem = s.mem ∧ w.cores = s.cores
        ∧ w.boot.follows = some (c.num.toNat, c.round) ∧ w.boot.leading = false ∧ w.boot.mhash = c.mhash
        ∧ w.boot.round = max b.round c.round ∧ w.boot.lastBeat = s.now ∧ w.boot.manifest = b.manifest
        ∧ w.boot.boot = (if b.boot = 0 ∧ f.boot = true then 3 else b.boot)
        ∧ sent w c.num.toNat .bitmap (fun y => y.bytes.length = (b.manifest.length + 7) / 8)
        ∧ w.boot.bits = (if b.leading then [] else b.bits)
        ∧ (b.leading = true → ∀ p ∈ b.bits, p.1 < 64 → sent w p.1 .abdicate (fun y =>
            (∀ i, Tab.find b.lastSent p.1 = some i → y.nb = 1 ∧ y.sel = i) ∧ (Tab.find b.lastSent p.1 = none → y.nb = 0))))
    ∧ (b.leading = true → b.lastBeat + 10000000 ≤ s.now → ∃ w : State, exec .heartbeat s = .next w ∧ rest w
        ∧ w.boot.lastBeat = s.now ∧ w.boot.leading = true ∧ w.boot.round = b.round ∧ w.boot.bits = b.bits
        ∧ (b.boot = 3 → heardAll → full → w.boot.boot = 0) ∧ (b.boot ≠ 3 ∨ ¬ heardAll ∨ ¬ full → w.boot.boot = b.boot)
        ∧ (¬ heardAll → w.boot.served = b.served)
        ∧ (heardAll → ∀ p ∈ b.bits, p.1 ∈ w.boot.served ∧ (p.1 ∉ b.served → p.1 < 64 →
            (b.container ≠ [] → sent w p.1 .manifest (fun _ => True))
            ∧ ∀ (i : Nat) (e l : List Byte), b.manifest[i]? = some e → hasChunk p.2 i = false → s.chunkBytes i e = some l → l ≠ [] →
                sent w p.1 .chunk (fun y => y.sel = i)))
        ∧ ∀ m, m < cycle → m ≠ own → sent w m .heartbeat (fun y => y.nb = b.round ∧ y.sel = if w.boot.boot = 0 then 1 else 0))
    ∧ (b.leading = false ∨ s.now < b.lastBeat + 10000000 → exec .heartbeat s = .next s)
    ∧ (b.leading = true ∨ b.follows = none ∨ f.boot = false ∨ s.now < b.lastBeat + 100000000 → exec .leaderWatchdog s = .next s)
    ∧ (b.leading = false → b.follows ≠ none → f.boot = true → b.lastBeat + 100000000 ≤ s.now →
        (lowest → ∃ w : State, exec .leaderWatchdog s = .next w ∧ leads w (b.round + 1))
        ∧ (¬ lowest → exec .leaderWatchdog s
            = .next { s with boot := { b with round := b.round + 1, lastBeat := s.now } })))
  ∧ (∀ (s : State) (bytes : List Byte),
      let b := s.boot
      let h := sha256 bytes
      let other := b.follows ≠ none ∧ b.leading = false ∧ h ≠ b.mhash
      (other ∨ manifestEntries bytes = none → exec (.manifestReceive bytes) s = .next s)
      ∧ ∀ l, ¬ other → manifestEntries bytes = some l → ∃ w : State, exec (.manifestReceive bytes) s = .next w ∧ w.mem = s.mem
        ∧ w.boot.mhash = h ∧ w.boot.manifest = l ∧ w.boot.manifestMod = sliceBytes bytes 64 384 ∧ w.boot.container = bytes ∧ w.boot.follows = b.follows
        ∧ (h = b.mhash → b.manifest = l → w.boot.verified = b.verified)
        ∧ (h ≠ b.mhash ∨ b.manifest ≠ l → w.boot.verified = [])
        ∧ l.length ≤ 65536
        ∧ ∀ i e, l[i]? = some e → recNat e 0 4 = i ∧ 1 ≤ recNat e 4 2 ∧ recNat e 4 2 ≤ 4 ∧ 1 ≤ recNat e 16 8
            ∧ recNat e 16 8 ≤ 2 ^ 24 ∧ recNat e 8 8 % 64 = 0 ∧ recNat e 56 8 = 0)
  ∧ (∀ (s : State) (src : BitVec 6) (idx : Nat) (bytes : List Byte),
      let b := s.boot
      let mine := b.leading = false ∧ ∃ r, b.follows = some (src.toNat, r)
      let step := exec (.chunkReceive src idx bytes) s
      (b.manifest[idx]? = none → step = .next s)
      ∧ ∀ e, b.manifest[idx]? = some e →
        let good := mine ∧ idx ∉ b.verified ∧ bytes.length = recNat e 16 8 ∧ sha256 bytes = sliceBytes e 24 32
          ∧ s.fwAttest.log.length < 1024
        let put := s.tenWrite 16 (BitVec.ofNat 64 (recNat e 8 8)) bytes
        (¬ good ∨ put = none → step = .next s)
        ∧ ∀ u, good → put = some u → ∃ w : State, step = .next w ∧ w.mem = u.mem ∧ w.cores = s.cores
          ∧ w.boot = { b with verified := idx :: b.verified }
          ∧ (∃ q ∈ Tab.get w.fabric.sendq [] (s.dieTo src.toNat), q.pkt.dst = src ∧ q.pkt.stream = 5 ∧ q.pkt.body.op = .bitmap
              ∧ q.pkt.body.bytes = w.boot.bitmap)
          ∧ ∃ r, w.fwAttest = s.fwAttest.extend r
              ∧ r = sliceBytes e 4 2 ++ sliceBytes e 8 16 ++ sliceBytes e 24 32 ++ sha256 b.manifestMod)

/-- 06_scheduling.md R101, R103 to R105, R108, R114, R118; 07_cores_memory.md R137, R143, R148; 09_traps_reliability.md R183. Which
launches are victims of a head is the model's reading (log 41). -/
def Obligations.PlacementAndWalks : Prop :=
  (∀ s : State,
    let choice := s.choose s.ranked []
    let same := fun (m : Launch) (l : Launch) => m.ten = l.ten ∧ m.ctxid = l.ctxid
    let placed := fun (l : Launch) (o : Nat) (t : List (Nat × Nat × Nat)) (w : State) =>
      (∀ m ∈ s.launches, ¬ same m l → m ∈ w.launches)
      ∧ (∃ m, w.launchBy l.ten l.ctxid = some m ∧ m.state = .placed ∧ m.origin = o ∧ m.placedAt = some s.now ∧ m.records = [] ∧ m.evicted = [])
      ∧ (∀ lc c z, (lc, s.modid, c) ∈ t → Tab.find l.saved lc = some z →
          (w.coreAt c).thread = some (l.ten, l.ctxid, lc) ∧ (w.coreAt c).saving = some (1, z.handler) ∧ (w.coreAt c).bm = z.bm
          ∧ (w.coreAt c).recvq.length = min 64 z.messages.length ∧ (w.coreAt c).overflow = z.messages.drop 64)
      ∧ (l.placedAt = none → l.saved = [] → w.mem = s.mem
          ∧ (∀ lc c, (lc, s.modid, c) ∈ t →
              (w.coreAt c).thread = some (l.ten, l.ctxid, lc) ∧ (w.coreAt c).partw = l.partw ∧ (w.coreAt c).pvec = s.prevec
              ∧ (w.coreAt c).tvec = (s.coreAt c).tvec ∧ (w.coreAt c).hchain = (s.coreAt c).hchain ∧ (w.coreAt c).recvq = []
              ∧ (let y := w.ctxAt c 0
                 y.live = true ∧ y.kind = .control ∧ y.pc = l.entry ∧ y.status = statusStart 0 ∧ y.rd 9 = l.recVa
                 ∧ (∀ i, i < 8 → y.rd (BitVec.ofNat 5 (10 + i)) = l.arg i) ∧ y.rd 1 = 0 ∧ y.rd 31 = 0 ∧ y.rndctr = 0)
              ∧ ∀ x, x ≠ 0 → (w.ctxAt c x).live = false)
          ∧ (∀ c, (∀ lc, (lc, s.modid, c) ∉ t) → w.coreAt c = s.coreAt c))
    let free := fun (l : Launch) (o : Nat) => s.originFits l o = true ∧ (∀ c ∈ s.meshHere l o, s.occupied c = false) ∧ s.layout l o ≠ none
    (s.awake = false ∨ choice = none → exec (.launchPlace none) s = .next s)
    ∧ (∀ l o, choice = some (l, o) →
        l ∈ s.launches ∧ l.state = .queued ∧ l.held = false ∧ l.ended = none ∧ free l o
        ∧ ∀ m ∈ s.launches.takeWhile (fun m => m != l), m.ten = l.ten → m.queue = l.queue → m.waiting = false)
    ∧ (∀ l o t, s.awake = true → choice = some (l, o) → s.layout l o = some t →
        ∃ w : State, exec (.launchPlace none) s = .next w ∧ placed l o t w)
    ∧ (∀ h : LaunchShare,
        let o := h.origin.toNat
        let own := s.chooseAt h s.ranked []
        (s.awake = false → exec (.launchPlace (some h)) s = .next s)
        ∧ (h.src.toNat = s.modid → own = none → exec (.launchPlace (some h)) s = .next s)
        ∧ (∀ l i, own = some (l, i) → i = o ∧ l.ctxid = h.ctxid ∧ l.ten = h.ten.toNat ∧ l ∈ s.launches ∧ l.state = .queued ∧ free l o)
        ∧ (∀ l t, s.awake = true → h.src.toNat = s.modid → own = some (l, o) → s.layout l o = some t →
            ∃ w : State, exec (.launchPlace (some h)) s = .next w ∧ placed l o t w)
        ∧ (h.src.toNat ≠ s.modid → (∀ l, s.shareLaunch h = some l → s.canShare l h.src o = false) →
            exec (.launchPlace (some h)) s = .next s)
        ∧ (∀ l t, s.awake = true → h.src.toNat ≠ s.modid → s.shareLaunch h = some l → s.canShare l h.src o = true →
            s.layout l o = some t → ∃ w : State, exec (.launchPlace (some h)) s = .next w ∧ placed l o t w))
    ∧ (let wants := fun (h : Launch) => s.overdue h = true ∧ s.victims h ≠ []
       (s.prevec = 0 ∨ (∀ h ∈ s.ranked, ¬ wants h) → exec .preemptVictim s = .next s)
       ∧ (∀ h, wants h → h.since + (8 - h.prio) * s.age ≤ s.now
           ∧ (∀ v ∈ s.victims h, v.ten = h.ten ∧ v.state = .placed ∧ s.dying v = false ∧ ∃ t, v.placedAt = some t ∧ t + 8 * s.age ≤ s.now)
           ∧ (∃ o, o < 256 ∧ s.victimsAt h o = some (s.victims h))
           ∧ ∃ v, (∃ u ∈ s.victims h, u.ctxid = v.ctxid)
             ∧ (∀ o l, o < 256 → s.victimsAt h o = some l → ∀ u ∈ l, u.before v = false)
             ∧ ∀ o l, o < 256 → s.victimsAt h o = some l → (∃ u ∈ l, u.ctxid = v.ctxid) → (s.victims h).length ≤ l.length)
       ∧ (∀ f h g, s.prevec ≠ 0 → s.ranked = f ++ h :: g → (∀ b ∈ f, ¬ wants b) → wants h →
           ∃ w : State, exec .preemptVictim s = .next w
             ∧ ((∀ c, ∀ p ∈ (s.coreAt c).ctxs, p.2.storeq = []) → w.mem = s.mem)
             ∧ ∀ v ∈ s.victims h, ∀ c, s.holdsThread v.ten v.ctxid c = true →
               (∀ n, (s.coreAt c).saver = some n → (s.ctxAt c n).live = true → (w.coreAt c).saving = some (0, n)
                 ∧ ∃ a ∈ (w.ctxAt c n).asyncs, a.cause = 0x19)
               ∧ ((s.coreAt c).saver = none → (s.coreAt c).saving = none → (∀ p ∈ (s.coreAt c).ctxs, p.2.amodReply = []) →
                   (w.coreAt c).thread = none))))
  ∧ (∀ (s : State) (c : Nat),
      let k := s.coreAt c
      (k.thread = none ∨ (∀ h, k.saving ≠ some (1, h)) → exec (.threadResume c) s = .next s)
      ∧ ∀ h t i lc, k.saving = some (1, h) → k.thread = some (t, i, lc) →
        let busy := k.anyLive = true ∨ s.enginesBusy (t, i, lc) = true
        (busy → exec (.threadResume c) s = .next s)
        ∧ (¬ busy → ∃ w : State, exec (.threadResume c) s = .next w ∧ w.mem = s.mem ∧ (w.coreAt c).saving = k.saving
            ∧ (let y := w.ctxAt c h
               y.live = true ∧ y.kind = (if h = 0 then .control else .helper) ∧ y.pc = k.pvec ∧ y.tcause = 0x119 ∧ y.tval = 1
               ∧ y.tr = true ∧ y.ie = false ∧ y.pl = 1
               ∧ y.x = (s.ctxAt c h).x
               ∧ ∀ l z f p g, s.launchBy t i = some l → Tab.find l.saved lc = some z → z.masks = f ++ (h, p) :: g →
                   (∀ q ∈ g, q.1 ≠ h) → y.k = p)))
  ∧ (∀ (s : State) (idx : Nat) (cluster : BitVec 8),
      let cl := cluster.toNat
      let q := s.clusterAt cl
      (s.contFlight[idx]? = none → exec (.contRecordArrive idx) s = .next s)
      ∧ (∀ r, s.contFlight[idx]? = some r →
          let stays := exec (.contRecordArrive idx) s = .next s
          (s.launchBy r.ten r.ctxid = none → stays)
          ∧ ∀ l, s.launchBy r.ten r.ctxid = some l →
            let home := if r.remote.isSome then homeOf l r.key else r.home
            let k := s.clusterAt home
            let e : ContEnt := { bytes := r.bytes, ctxid := r.ctxid, ten := r.ten }
            let arrives := fun (a b : List ContEnt) (w : State) => exec (.contRecordArrive idx) s = .next w
              ∧ w.contFlight = s.contFlight.eraseIdx idx ∧ w.clusterAt home = { k with contq := a, contovf := b }
              ∧ (∀ j, j ≠ home → w.clusterAt j = s.clusterAt j)
              ∧ (r.remote = none → (s.ctxAt r.core r.ctx).live = true →
                  w.ctxAt r.core r.ctx = { s.ctxAt r.core r.ctx with grant := some 0 })
            let queues := k.contq.length < 64 ∧ k.contovf = []
            (s.clustersOf l = [] → stays)
            ∧ (s.clustersOf l ≠ [] → queues → ∃ w : State, arrives (k.contq ++ [e]) k.contovf w ∧ w.mem = s.mem)
            ∧ (s.clustersOf l ≠ [] → ¬ queues → k.contovf.length < 1024 → ∃ (w : State) (n : Option Nat),
                arrives k.contq (k.contovf ++ [{ e with slot := n }]) w ∧ (n = none → w.mem = s.mem)
                ∧ ∀ j, n = some j → ∃ u, s.tenWrite l.ten (s.contovfVa l home j) r.bytes = some u ∧ w.mem = u.mem)
            ∧ (¬ queues → 1024 ≤ k.contovf.length → stays))
      ∧ (q.contq = [] → exec (.continuationStart cluster) s = .next s)
      ∧ ∀ h r, q.contq = h :: r →
        let b := h.bytes
        let i := h.ctxid
        let t := h.ten
        (s.contCore cl t i = none ∨ s.launchBy t i = none → exec (.continuationStart cluster) s = .next s)
        ∧ ∀ c l n, s.contCore cl t i = some c → s.launchBy t i = some l → (s.coreAt c).freeHelper = some n →
          c / 16 = cl ∧ s.holdsThread t i c = true ∧ 1 ≤ n ∧ n ≤ 10 ∧ (s.ctxAt c n).live = false
          ∧ (∀ d, d / 16 = cl → s.holdsThread t i d = true → (s.coreAt d).freeHelper ≠ none → (s.coreAt d).saving = none →
              (s.coreAt d).liveCount < 11 → (s.coreAt c).liveCount ≤ (s.coreAt d).liveCount)
          ∧ ∃ w : State, exec (.continuationStart cluster) s = .next w ∧ w.mem = s.mem
            ∧ (q.contovf = [] ∨ 64 ≤ r.length → (w.clusterAt cl).contq = r ∧ (w.clusterAt cl).contovf = q.contovf)
            ∧ (∀ e g, q.contovf = e :: g → r.length < 64 → ∃ y : List Byte,
                (w.clusterAt cl).contq = r ++ [{ e with bytes := y, slot := none }] ∧ (w.clusterAt cl).contovf = g
                ∧ (e.slot = none → y = e.bytes)
                ∧ ∀ j z, e.slot = some j → s.tenRead l.ten (s.contovfVa l cl j) 64 = some z → y = z)
            ∧ (let y := w.ctxAt c n
               y.live = true ∧ y.kind = .continuation ∧ y.pc = BitVec.ofNat 64 (recNat b 0 8) ∧ y.status = statusStart 0
               ∧ y.dlev = BitVec.ofNat 3 (l.nlev - 1) ∧ y.rd 1 = 0 ∧ y.rd 8 = 0
               ∧ ∀ j, j < 7 → y.rd (BitVec.ofNat 5 (9 + j)) = BitVec.ofNat 64 (recNat b (8 + 8 * j) 8))
            ∧ ∀ d x, ¬ (d = c ∧ x = n) → w.ctxAt d x = s.ctxAt d x)
  ∧ (∀ (s : State) (core : Nat) (cluster : BitVec 8),
      let k := s.coreAt core
      let cl := cluster.toNat
      let l := s.liveCores cl
      (k.thread = none → exec (.pcSample core) s = .next s)
      ∧ (∀ t i lc, k.thread = some (t, i, lc) →
          let n := s.tenantAt t
          let period := n.smpcfg.toNat % 32
          let slots := (2 ^ (n.smpcfg.toNat / 32 % 32) - 64) / 32
          let put := s.tenantStore t (n.smpbase + BitVec.ofNat 64 (64 + 32 * (n.wcount % slots))) (s.sampleRecord core)
          let now := period ≠ 0 ∧ k.anyLive = true ∧ s.samples core period = true
          (¬ now → exec (.pcSample core) s = .next s)
          ∧ (now → put = none → exec (.pcSample core) s = .next ((s.setTenant t { n with drops := n.drops + 1 }).sampleHeader t))
          ∧ (∀ u, now → put = some u →
              exec (.pcSample core) s = .next ((u.setTenant t { n with wcount := n.wcount + 1 }).sampleHeader t)))
      ∧ (l.length ≤ 2 ∨ s.now < (s.clusterAt cl).rotAt + 128000 → exec (.counterRotate cluster) s = .next s)
      ∧ (2 < l.length → (s.clusterAt cl).rotAt + 128000 ≤ s.now → ∃ w : State, exec (.counterRotate cluster) s = .next w
          ∧ w.mem = s.mem ∧ w.cores = s.cores ∧ (w.clusterAt cl).rotAt = s.now ∧ (∀ j, j ≠ cl → w.clusterAt j = s.clusterAt j)
          ∧ ∀ i c, (holders l (s.clusterAt cl).rot)[1]? = some c → l[i]? = some c →
              l[(i + 1) % l.length]? = some (w.clusterAt cl).rot))
  ∧ (∀ (s : State) (cluster idx : Nat),
      let k := s.clusterAt cluster
      (k.walks[idx]? = none → exec (.tableWalkComplete cluster idx) s = .next s)
      ∧ (∀ r, k.walks[idx]? = some r → r.finished = true → exec (.tableWalkComplete cluster idx) s = .next s)
      ∧ ∀ r, k.walks[idx]? = some r → r.finished = false → idx < 16 → k.walks.filter r.joins = [r] →
        let x := s.ctxAt r.core r.ctx
        let res := s.walk r.ten r.va r.pl (bitOn r.bits 1) (bitOn r.bits 2)
        let misaligned := r.mis = true ∧ s.strictLeaf r.ten r.va = true
        ∃ w : State, exec (.tableWalkComplete cluster idx) s = .next w
          ∧ (∀ t, res = .leaf t → isArray r.core = true → r.eng = true ∨ ¬ misaligned → t ∈ (w.clusterAt (clusterOf r.core)).tlb)
          ∧ (r.eng = true → bitOn r.bits 2 = false → w.mem = s.mem ∧ w.cores = s.cores
              ∧ ((∀ t, res ≠ .leaf t) → { r with finished := true } ∈ (w.clusterAt cluster).walks))
          ∧ (r.eng = false → misaligned → w.mem = s.mem ∧ w.ctxAt r.core r.ctx = { x with due := x.due ++ [(0x03, r.va, x.pc)], stall := 0 })
          ∧ (r.eng = false → ¬ misaligned → match res with
            | .leaf t => w.mem = s.mem ∧ w.ctxAt r.core r.ctx = { x with stall := 0 } ∧ t ∈ (w.coreAt r.core).tlb
            | .fail cause => w.mem = s.mem
                ∧ w.ctxAt r.core r.ctx = { x with due := x.due ++ [(BitVec.ofNat 8 cause, r.va, x.pc)], stall := 0 }
            | .park _ => (w.ctxAt r.core r.ctx).stall = 10 ∧ (w.ctxAt r.core r.ctx).pc = x.pc
                ∧ ∃ p, (w.ctxAt r.core r.ctx).parked = some p ∧ p.ten = r.ten ∧ p.va = r.va ∧ p.page = r.va.toNat / 65536 % 2 ^ 39))

/-- 12_formats_assembly.md R232, R233; 06_scheduling.md R106; 07_cores_memory.md R120, R387; 09_traps_reliability.md R189;
04_host_interface.md R65. `u` is the state at the turn of the
context, its time passed; `v` what the fetch leaves. That turns are listed in the state is the model's (log 1), and so is
that an instruction which waits has been checked when it first issued (log 128). -/
def Obligations.StepRunsDecoded : Prop :=
  ∀ s : State,
    let t := s.nextTurn.1
    let s1 := s.nextTurn.2.pass t.dt
    let s2 : State := { s1 with core := t.core, ctx := t.ctx }
    let u := if (Tab.find s2.cores t.core).isSome then s2.setMyCore { s2.myCore with turn := t.ctx } else s2
    let calm := t.read = none ∧ (t.upset = none ∨ t.upset = some .checker)
    let comes := t.event = none ∧ calm ∧ s.power.off = false ∧ ¬ (u.core = monitorCore ∧ u.boot.boot = 1) ∧ u.still = false
      ∧ (u.me.yielded = false ∨ u.othersReady = false) ∧ u.takeFirst = none ∧ u.heldBack = none
    let issues := comes ∧ t.upset = none
    let holding := fun (v : State) (w : W32) => v.setMe { v.me with ir := some w, yielded := false }
    (∀ i, t.event = some i → Instr.isEvent i = true → s.power.off = false → calm → step s = exec i s1.attend)
    ∧ (t.event = some .coldReset → s.power.off = true → step s = exec .coldReset s1)
    ∧ (∀ r, t.read = some r → s.power.off = false → step s = .next (s1.hostRead r))
    ∧ (∀ a d, t.read = none → t.upset = some (.sram a d) → s.power.off = false → step s = .next (s1.sramError a d))
    ∧ (∀ a b c d, t.read = none → t.upset = some (.sum a b c d) → s.power.off = false → step s = .next (s1.sumError a b c d))
    ∧ (∀ w v i, issues → u.me.stall = 0 → (u.setMe { u.me with ir := none }).fetch = .word w v → decode w.toNat = .ok i →
        (holding v w).me.scoreboardWaits i = false → step s = exec i (holding v w))
    ∧ (∀ w v e, issues → u.me.stall = 0 → (u.setMe { u.me with ir := none }).fetch = .word w v → decode w.toNat = .error e →
        (holding v w).me.scoreboardWaits (.illegalInsnWord w) = false → step s = exec (.illegalInsnWord w) (holding v w))
    ∧ (∀ w i, issues → u.me.ir = some w → u.me.stall ≠ 0 → u.me.stall ≠ 10 → decode w.toNat = .ok i →
        (holding u w).me.scoreboardWaits i = false → step s = exec i (holding u w))
    ∧ (∀ w v, comes → t.upset = some .checker → u.me.stall = 0 → (u.setMe { u.me with ir := none }).fetch = .word w v →
        (holding v w).me.stall = 0 → (holding v w).me.scoreboardWaits (insnOf w) = false →
        step s = .next (((holding v w).countOn (holding v w).core 0x0B 1).setMe
          { ((holding v w).countOn (holding v w).core 0x0B 1).me with stall := 12 }))
    ∧ (∀ w, comes → t.upset = some .checker → u.me.ir = some w → u.me.stall = 12 →
        (holding u w).me.scoreboardWaits (insnOf w) = false → step s = .next ((holding u w).trap 0x17 (w.setWidth 64)))
    ∧ (s.power.off = true → t.event ≠ some .coldReset → step s = .fault .poweredOff)

/-- 12_formats_assembly.md R232, R234; 13_opcode_map.md R251, R252: bits [31:26] are the major, [25:21] rd, [20:16] ra, [15:11] rb,
[10:6] op. -/
def Obligations.DecodeWords : Prop :=
  decode 0x04642DC6 = .ok (.sel 3 4 5 6)
  ∧ decode 0x18640085 = .ok (.shi 3 4 2 5)
  ∧ decode 0x28A63801 = .ok (.fadd 5 6 7 0 1)
  ∧ decode 0x34A63840 = .ok (.stv 5 6 7)
  ∧ decode 0x58009000 = .ok (.trap 0x12)
  ∧ decode 0x5CA63800 = .ok (.start 5 6 7)
  ∧ decode 0x60A63801 = .ok (.amo 5 6 7 0 1)
  ∧ decode 0x64A63882 = .ok (.heir 5 6 7 2)
  ∧ decode 0x68A60000 = .ok (.send 5 6)
  ∧ decode 0x70820080 = .ok (.advp 2 1)
  ∧ decode 0x74A60000 = .ok (.bcopy 5 6)
  ∧ decode 0x7CA60001 = .ok (.replay 5 6 1)
  ∧ decode 0x00000000 = .error .majorZero
  ∧ decode 0xA0000000 = .error .majorReserved

/-- 12_formats_assembly.md R232 to R235; 13_opcode_map.md R251, R252, R254. -/
def Obligations.EncodeAndDecodeAgree : Prop :=
  (∀ i, Sys2Proof.Laws.RoundTrip.Statement i)
  ∧ ∀ w i, w < 2 ^ 32 → decode w = .ok i → i.wf = true ∧ encode i = w

/-- 07_cores_memory.md R122, R131, R141. That memory which nothing has written reads 0 is the model's choice (log 3). -/
def Obligations.StepsKeepMemoryForm : Prop :=
  ∀ s t : State, s.Inv → step s = .next t → t.Inv

/-- 01_package_power.md R14, R15; 02_optical_fabric.md R42; 04_host_interface.md R66, R72, R75; 05_boot_trust.md R91;
06_scheduling.md R103; 07_cores_memory.md R126, R145; 09_traps_reliability.md R171, R187. -/
def Obligations.ResetState : Prop :=
  let s := State.reset
  s.Inv ∧ s.power.off = false ∧ s.power.cur = 0 ∧ s.power.plim = 3200 ∧ s.power.dltol = 1
  ∧ s.fabric.boot = true ∧ s.fabric.fgrant = 9362 ∧ s.fabric.fpod = 0 ∧ s.fabric.rig = 0 ∧ s.boot.boot = 1 ∧ s.ageus = 100
  ∧ (∀ n g, (s.tenantAt n).vf = false ∧ (s.tenantAt n).tltol = 0xFFFFFF ∧ (s.tenantAt n).terr = 0
      ∧ bitsAt (s.tenantAt n).smpcfg 5 5 = 16 ∧ bitsAt (s.tenantAt n).hwt 0 4 = 1 ∧ bitsAt (s.tenantAt n).fqcfg 0 4 = 8
      ∧ bitsAt ((s.tenantAt n).pageAt g).cqcfg 0 4 = 4)
  ∧ (∀ i, (s.counterAt i).val = 0 ∧ (s.counterAt i).trigs = [])
  ∧ (∀ c x, (s.ctxAt c x).live = false ∧ (s.coreAt c).tvec = 0 ∧ (s.coreAt c).hchain = 0
      ∧ (∀ h, (Tab.get (s.coreAt c).rings Ring.reset h).toW64 = 0))
  ∧ (∀ c r, r < 64 → (s.clusterAt c).bank0.flags = 0 ∧ Tab.get (s.clusterAt c).bank0.map (r % 16) r = r % 16
      ∧ ∀ i, Tab.get (s.clusterAt c).bank0.elems 0 i = 0)
end

