-- ==== Sys2Proof/Laws/Fabric.lean ====
section
/-! SUPPORT. What the operations of the fabric can do: they change the fabric alone. -/

namespace Sys2Proof.Machine

open Sys2Proof

/-- A state that differs from another in its fabric alone. -/
def OnlyFabric (s t : State) : Prop := t = s.setFabric t.fabric

theorem OnlyFabric.refl (s : State) : OnlyFabric s s := rfl

theorem OnlyFabric.trans {s t u : State} (h : OnlyFabric s t) (g : OnlyFabric t u) : OnlyFabric s u := by
  unfold OnlyFabric State.setFabric at *; rw [g, h]

theorem OnlyFabric.set (s : State) (f : Fabric) : OnlyFabric s (s.setFabric f) := rfl

theorem OnlyFabric.link (s : State) (k : Nat) (l : Link) : OnlyFabric s (s.setLink k l) := rfl

/-- Steps over a list that each change the fabric alone. -/
theorem OnlyFabric.fold {α : Type} (l : List α) (g : State → α → State) (hg : ∀ s a, OnlyFabric s (g s a)) (s : State) :
    OnlyFabric s (l.foldl g s) := by
  induction l generalizing s with
  | nil => exact .refl s
  | cons a r ih => exact (hg s a).trans (ih _)

/-- A flit that leaves (02 R21, R22). -/
theorem OnlyFabric.sendFlit (s : State) (spar peer kind : Nat) (b : List Byte) : OnlyFabric s (s.sendFlit spar peer kind b) := by
  unfold State.sendFlit; dsimp only
  split
  · exact (OnlyFabric.link s _ _).trans (.set _ _)
  · exact .set s _

/-- A resend (02 R22). -/
theorem OnlyFabric.resendFlits (s : State) (spar peer : Nat) : OnlyFabric s (s.resendFlits spar peer) :=
  (OnlyFabric.link s _ _).trans (.set _ _)

/-- A new grant (02 R33). -/
theorem OnlyFabric.regrant (s : State) : OnlyFabric s s.regrant := by
  unfold State.regrant; dsimp only
  split
  · exact .refl s
  · exact .set s _

/-- A payload window that opens (02 R22, R23, R25). -/
theorem OnlyFabric.openSpar (s : State) (spar : Nat) : OnlyFabric s (s.openSpar spar) := by
  unfold State.openSpar; dsimp only
  split
  · exact .refl s
  split
  · exact .set s _
  split
  · exact (OnlyFabric.link s _ _).trans (.sendFlit _ _ _ _ _)
  · exact ((OnlyFabric.link s _ _).trans (.sendFlit _ _ _ _ _)).trans (.resendFlits _ _ _)

/-- A tack boundary changes the fabric alone. -/
theorem OnlyFabric.tackBoundary (s : State) : ∃ t, execTackBoundary s = .next t ∧ OnlyFabric s t := by
  unfold execTackBoundary; dsimp only
  split
  · exact ⟨_, rfl, (OnlyFabric.set s _).trans (.regrant _)⟩
  · exact ⟨_, rfl, (((OnlyFabric.set s _).trans (.regrant _)).trans (.fold _ _ .openSpar _)).trans (.set _ _)⟩

/-- The flits of a packet (02 R29). -/
theorem OnlyFabric.sendFlits (s : State) (spar peer : Nat) (p : Packet) : OnlyFabric s (s.sendFlits spar peer p) :=
  (OnlyFabric.fold _ _ (fun u _ => .sendFlit u _ _ _ _) s).trans (.set _ _)

/-- Forwarding a relayed packet changes the fabric alone (02 R33). -/
theorem OnlyFabric.relayForward (die : BitVec 2) (idx : Nat) (s : State) :
    ∃ t, execRelayForward die idx s = .next t ∧ OnlyFabric s t := by
  unfold execRelayForward
  split
  · exact ⟨s, rfl, .refl s⟩
  · dsimp only
    split
    · exact ⟨_, rfl, (((OnlyFabric.set s _).trans (.sendFlits _ _ _ _)).trans (.set _ _)).trans (.set _ _)⟩
    · exact ⟨s, rfl, .refl s⟩

end Sys2Proof.Machine
end

