-- ==== Sys2Proof/Laws/Memory.lean ====
section
/-! SUPPORT. Memory: reading after a write, at the byte written and at every other, and that every memory operation keeps
the canonical form. -/

-- One proof after the other: many at once need more threads than the check has memory for.
set_option Elab.async false

namespace Sys2Proof.Machine

theorem Memory.wfFrom_mono {m : List Host.Cell} {a b : Nat} (h : a ≤ b) (hw : Memory.wfFrom b m = true) :
    Memory.wfFrom a m = true := by
  cases m with
  | nil => rfl
  | cons p r =>
    obtain ⟨j, c⟩ := p
    simp only [Memory.wfFrom, Bool.and_eq_true, decide_eq_true_eq] at hw ⊢
    exact ⟨⟨by omega, hw.1.2⟩, hw.2⟩

/-- Below its first key a memory in canonical form lists nothing. -/
theorem memGet_below {m : List Host.Cell} {lo k : Nat} (hw : Memory.wfFrom lo m = true) (h : k < lo) : memGet m k = 0 := by
  induction m generalizing lo with
  | nil => rfl
  | cons p r ih =>
    obtain ⟨j, c⟩ := p
    simp only [Memory.wfFrom, Bool.and_eq_true, decide_eq_true_eq] at hw
    rw [memGet, if_neg (by omega)]
    exact ih hw.2 (by omega)

theorem memPut_wfFrom {m : List Host.Cell} {lo k : Nat} (b : Byte) (hw : Memory.wfFrom lo m = true) (hk : lo ≤ k) :
    Memory.wfFrom lo (memPut m k b) = true := by
  induction m generalizing lo with
  | nil =>
    unfold memPut
    split
    · rfl
    · rename_i hb
      simp only [Memory.wfFrom, Bool.and_eq_true, decide_eq_true_eq]
      exact ⟨⟨hk, hb⟩, trivial⟩
  | cons p r ih =>
    obtain ⟨j, c⟩ := p
    have hw' := hw
    simp only [Memory.wfFrom, Bool.and_eq_true, decide_eq_true_eq] at hw
    unfold memPut
    split
    · split
      · exact hw'
      · rename_i h1 h2
        simp only [Memory.wfFrom, Bool.and_eq_true, decide_eq_true_eq]
        exact ⟨⟨hk, h2⟩, ⟨by omega, hw.1.2⟩, hw.2⟩
    · split
      · split
        · rename_i h1 h2 h3
          exact Memory.wfFrom_mono (by omega) hw.2
        · rename_i h1 h2 h3
          simp only [Memory.wfFrom, Bool.and_eq_true, decide_eq_true_eq]
          exact ⟨⟨hk, h3⟩, h2 ▸ hw.2⟩
      · rename_i h1 h2
        simp only [Memory.wfFrom, Bool.and_eq_true, decide_eq_true_eq]
        exact ⟨hw.1, ih hw.2 (by omega)⟩

/-- Writing a byte keeps the canonical form. -/
theorem memPut_wf {m : List Host.Cell} (k : Nat) (b : Byte) (hw : Memory.wf m = true) : Memory.wf (memPut m k b) = true :=
  memPut_wfFrom b hw (Nat.zero_le k)

/-- Writing bytes keeps the canonical form. -/
theorem memPutN_wf {m : List Host.Cell} (k : Nat) (l : List Byte) (hw : Memory.wf m = true) :
    Memory.wf (memPutN m k l) = true := by
  induction l generalizing m k with
  | nil => exact hw
  | cons b r ih => exact ih (k + 1) (memPut_wf k b hw)

theorem filter_wfFrom {m : List Host.Cell} {lo : Nat} (p : Host.Cell → Bool) (hw : Memory.wfFrom lo m = true) :
    Memory.wfFrom lo (m.filter p) = true := by
  induction m generalizing lo with
  | nil => rfl
  | cons q r ih =>
    obtain ⟨j, c⟩ := q
    simp only [Memory.wfFrom, Bool.and_eq_true, decide_eq_true_eq] at hw
    rw [List.filter_cons]
    split
    · simp only [Memory.wfFrom, Bool.and_eq_true, decide_eq_true_eq]
      exact ⟨hw.1, ih hw.2⟩
    · exact Memory.wfFrom_mono (by omega) (ih hw.2)

/-- Leaving out bytes keeps the canonical form. -/
theorem filter_wf {m : List Host.Cell} (p : Host.Cell → Bool) (hw : Memory.wf m = true) : Memory.wf (m.filter p) = true :=
  filter_wfFrom p hw

/-- Making a region read 0 keeps the canonical form. -/
theorem memZero_wf {m : List Host.Cell} (k n : Nat) (hw : Memory.wf m = true) : Memory.wf (memZero m k n) = true :=
  filter_wf _ hw

/-- Reading after a write of one byte. -/
theorem memGet_memPut {m : List Host.Cell} (hw : Memory.wf m = true) (k a : Nat) (b : Byte) :
    memGet (memPut m k b) a = if a = k then b else memGet m a := by
  suffices h : ∀ lo, Memory.wfFrom lo m = true → memGet (memPut m k b) a = if a = k then b else memGet m a from h 0 hw
  intro lo hw
  induction m generalizing lo with
  | nil =>
    unfold memPut
    split
    · rename_i hb
      simp [memGet, hb]
    · simp [memGet]
  | cons p r ih =>
    obtain ⟨j, c⟩ := p
    simp only [Memory.wfFrom, Bool.and_eq_true, decide_eq_true_eq] at hw
    unfold memPut
    split
    · rename_i h1
      split
      · rename_i hb
        split
        · rename_i ha
          subst ha
          rw [hb, memGet, if_neg (by omega)]
          exact memGet_below hw.2 (by omega)
        · rfl
      · rw [memGet]
    · rename_i h1
      split
      · rename_i h2
        split
        · rename_i hb
          split
          · rename_i ha
            rw [hb]
            exact memGet_below hw.2 (by omega)
          · rename_i ha
            rw [memGet.eq_2, if_neg (by omega)]
        · rw [memGet, memGet]
          by_cases ha : a = k
          · simp [ha]
          · simp [ha, h2 ▸ ha]
      · rename_i h2
        rw [memGet, memGet, ih (Memory.wfFrom_mono (Nat.zero_le _) hw.2) _ hw.2]
        by_cases ha : a = j
        · rw [if_pos ha, if_neg (by omega), if_pos ha]
        · rw [if_neg ha, if_neg ha]

/-- Reading after a write of several bytes: the bytes written at their keys, every other byte as before. -/
theorem memGet_memPutN {m : List Host.Cell} (hw : Memory.wf m = true) (k a : Nat) (l : List Byte) :
    memGet (memPutN m k l) a = if k ≤ a ∧ a < k + l.length then nth l 0 (a - k) else memGet m a := by
  induction l generalizing m k with
  | nil => rw [if_neg (by simp only [List.length_nil]; omega)]; rfl
  | cons b r ih =>
    rw [memPutN, ih (memPut_wf k b hw), memGet_memPut hw]
    simp only [List.length_cons]
    by_cases h : a = k
    · subst h
      rw [if_neg (by omega), if_pos rfl, if_pos (by omega), Nat.sub_self, nth]
    · by_cases h2 : k + 1 ≤ a ∧ a < k + 1 + r.length
      · rw [if_pos h2, if_pos (by omega), show a - k = (a - (k + 1)) + 1 by omega, nth]
      · rw [if_neg h2, if_neg h, if_neg (by omega)]

end Sys2Proof.Machine
end

