-- ==== Sys2Proof/Laws/State.lean ====
section
/-! SUPPORT. One lemma for each field of the state and each update: the fields that the update leaves alone. -/

namespace Sys2Proof.Machine

@[simp] theorem State.setCore_now (s : State) (c : Nat) (k : Core) : (s.setCore c k).now = s.now := rfl
@[simp] theorem State.setCore_turns (s : State) (c : Nat) (k : Core) : (s.setCore c k).turns = s.turns := rfl
@[simp] theorem State.setCore_core (s : State) (c : Nat) (k : Core) : (s.setCore c k).core = s.core := rfl
@[simp] theorem State.setCore_ctx (s : State) (c : Nat) (k : Core) : (s.setCore c k).ctx = s.ctx := rfl
@[simp] theorem State.setCore_free (s : State) (c : Nat) (k : Core) : (s.setCore c k).free = s.free := rfl
@[simp] theorem State.setCore_mem (s : State) (c : Nat) (k : Core) : (s.setCore c k).mem = s.mem := rfl
@[simp] theorem State.setCore_poison (s : State) (c : Nat) (k : Core) : (s.setCore c k).poison = s.poison := rfl
@[simp] theorem State.setCore_clusters (s : State) (c : Nat) (k : Core) : (s.setCore c k).clusters = s.clusters := rfl
@[simp] theorem State.setCore_octets (s : State) (c : Nat) (k : Core) : (s.setCore c k).octets = s.octets := rfl
@[simp] theorem State.setCore_walks (s : State) (c : Nat) (k : Core) : (s.setCore c k).walks = s.walks := rfl
@[simp] theorem State.setCore_grecvs (s : State) (c : Nat) (k : Core) : (s.setCore c k).grecvs = s.grecvs := rfl
@[simp] theorem State.setCore_bf (s : State) (c : Nat) (k : Core) : (s.setCore c k).bf = s.bf := rfl
@[simp] theorem State.setCore_bfWait (s : State) (c : Nat) (k : Core) : (s.setCore c k).bfWait = s.bfWait := rfl
@[simp] theorem State.setCore_tenants (s : State) (c : Nat) (k : Core) : (s.setCore c k).tenants = s.tenants := rfl
@[simp] theorem State.setCore_counters (s : State) (c : Nat) (k : Core) : (s.setCore c k).counters = s.counters := rfl
@[simp] theorem State.setCore_trigOrder (s : State) (c : Nat) (k : Core) : (s.setCore c k).trigOrder = s.trigOrder := rfl
@[simp] theorem State.setCore_mbox (s : State) (c : Nat) (k : Core) : (s.setCore c k).mbox = s.mbox := rfl
@[simp] theorem State.setCore_msixOut (s : State) (c : Nat) (k : Core) : (s.setCore c k).msixOut = s.msixOut := rfl
@[simp] theorem State.setCore_hostAnswers (s : State) (c : Nat) (k : Core) : (s.setCore c k).hostAnswers = s.hostAnswers := rfl
@[simp] theorem State.setCore_aer (s : State) (c : Nat) (k : Core) : (s.setCore c k).aer = s.aer := rfl
@[simp] theorem State.setCore_pfMsix (s : State) (c : Nat) (k : Core) : (s.setCore c k).pfMsix = s.pfMsix := rfl
@[simp] theorem State.setCore_dieLog (s : State) (c : Nat) (k : Core) : (s.setCore c k).dieLog = s.dieLog := rfl
@[simp] theorem State.setCore_launches (s : State) (c : Nat) (k : Core) : (s.setCore c k).launches = s.launches := rfl
@[simp] theorem State.setCore_nextCtx (s : State) (c : Nat) (k : Core) : (s.setCore c k).nextCtx = s.nextCtx := rfl
@[simp] theorem State.setCore_ageus (s : State) (c : Nat) (k : Core) : (s.setCore c k).ageus = s.ageus := rfl
@[simp] theorem State.setCore_lastTen (s : State) (c : Nat) (k : Core) : (s.setCore c k).lastTen = s.lastTen := rfl
@[simp] theorem State.setCore_contFlight (s : State) (c : Nat) (k : Core) : (s.setCore c k).contFlight = s.contFlight := rfl
@[simp] theorem State.setCore_kills (s : State) (c : Nat) (k : Core) : (s.setCore c k).kills = s.kills := rfl
@[simp] theorem State.setCore_deferred (s : State) (c : Nat) (k : Core) : (s.setCore c k).deferred = s.deferred := rfl
@[simp] theorem State.setCore_routers (s : State) (c : Nat) (k : Core) : (s.setCore c k).routers = s.routers := rfl
@[simp] theorem State.setCore_estates (s : State) (c : Nat) (k : Core) : (s.setCore c k).estates = s.estates := rfl
@[simp] theorem State.setCore_acq (s : State) (c : Nat) (k : Core) : (s.setCore c k).acq = s.acq := rfl
@[simp] theorem State.setCore_dseq (s : State) (c : Nat) (k : Core) : (s.setCore c k).dseq = s.dseq := rfl
@[simp] theorem State.setCore_deaths (s : State) (c : Nat) (k : Core) : (s.setCore c k).deaths = s.deaths := rfl
@[simp] theorem State.setCore_deadGroups (s : State) (c : Nat) (k : Core) : (s.setCore c k).deadGroups = s.deadGroups := rfl
@[simp] theorem State.setCore_arrivals (s : State) (c : Nat) (k : Core) : (s.setCore c k).arrivals = s.arrivals := rfl
@[simp] theorem State.setCore_reports (s : State) (c : Nat) (k : Core) : (s.setCore c k).reports = s.reports := rfl
@[simp] theorem State.setCore_waiters (s : State) (c : Nat) (k : Core) : (s.setCore c k).waiters = s.waiters := rfl
@[simp] theorem State.setCore_cells (s : State) (c : Nat) (k : Core) : (s.setCore c k).cells = s.cells := rfl
@[simp] theorem State.setCore_fabric (s : State) (c : Nat) (k : Core) : (s.setCore c k).fabric = s.fabric := rfl
@[simp] theorem State.setCore_boot (s : State) (c : Nat) (k : Core) : (s.setCore c k).boot = s.boot := rfl
@[simp] theorem State.setCore_power (s : State) (c : Nat) (k : Core) : (s.setCore c k).power = s.power := rfl
@[simp] theorem State.setCore_podOff (s : State) (c : Nat) (k : Core) : (s.setCore c k).podOff = s.podOff := rfl
@[simp] theorem State.setCore_podFrac (s : State) (c : Nat) (k : Core) : (s.setCore c k).podFrac = s.podFrac := rfl
@[simp] theorem State.setCore_attr (s : State) (c : Nat) (k : Core) : (s.setCore c k).attr = s.attr := rfl
@[simp] theorem State.setCore_pool (s : State) (c : Nat) (k : Core) : (s.setCore c k).pool = s.pool := rfl
@[simp] theorem State.setCore_fwAttest (s : State) (c : Nat) (k : Core) : (s.setCore c k).fwAttest = s.fwAttest := rfl
@[simp] theorem State.setCore_fwroot (s : State) (c : Nat) (k : Core) : (s.setCore c k).fwroot = s.fwroot := rfl
@[simp] theorem State.setCore_mcerr (s : State) (c : Nat) (k : Core) : (s.setCore c k).mcerr = s.mcerr := rfl
@[simp] theorem State.setCore_prevec (s : State) (c : Nat) (k : Core) : (s.setCore c k).prevec = s.prevec := rfl
@[simp] theorem State.setCore_parkedRemote (s : State) (c : Nat) (k : Core) : (s.setCore c k).parkedRemote = s.parkedRemote := rfl

@[simp] theorem State.setCtx_now (s : State) (c x : Nat) (v : Ctx) : (s.setCtx c x v).now = s.now := rfl
@[simp] theorem State.setCtx_turns (s : State) (c x : Nat) (v : Ctx) : (s.setCtx c x v).turns = s.turns := rfl
@[simp] theorem State.setCtx_core (s : State) (c x : Nat) (v : Ctx) : (s.setCtx c x v).core = s.core := rfl
@[simp] theorem State.setCtx_ctx (s : State) (c x : Nat) (v : Ctx) : (s.setCtx c x v).ctx = s.ctx := rfl
@[simp] theorem State.setCtx_free (s : State) (c x : Nat) (v : Ctx) : (s.setCtx c x v).free = s.free := rfl
@[simp] theorem State.setCtx_mem (s : State) (c x : Nat) (v : Ctx) : (s.setCtx c x v).mem = s.mem := rfl
@[simp] theorem State.setCtx_poison (s : State) (c x : Nat) (v : Ctx) : (s.setCtx c x v).poison = s.poison := rfl
@[simp] theorem State.setCtx_clusters (s : State) (c x : Nat) (v : Ctx) : (s.setCtx c x v).clusters = s.clusters := rfl
@[simp] theorem State.setCtx_octets (s : State) (c x : Nat) (v : Ctx) : (s.setCtx c x v).octets = s.octets := rfl
@[simp] theorem State.setCtx_walks (s : State) (c x : Nat) (v : Ctx) : (s.setCtx c x v).walks = s.walks := rfl
@[simp] theorem State.setCtx_grecvs (s : State) (c x : Nat) (v : Ctx) : (s.setCtx c x v).grecvs = s.grecvs := rfl
@[simp] theorem State.setCtx_bf (s : State) (c x : Nat) (v : Ctx) : (s.setCtx c x v).bf = s.bf := rfl
@[simp] theorem State.setCtx_bfWait (s : State) (c x : Nat) (v : Ctx) : (s.setCtx c x v).bfWait = s.bfWait := rfl
@[simp] theorem State.setCtx_tenants (s : State) (c x : Nat) (v : Ctx) : (s.setCtx c x v).tenants = s.tenants := rfl
@[simp] theorem State.setCtx_counters (s : State) (c x : Nat) (v : Ctx) : (s.setCtx c x v).counters = s.counters := rfl
@[simp] theorem State.setCtx_trigOrder (s : State) (c x : Nat) (v : Ctx) : (s.setCtx c x v).trigOrder = s.trigOrder := rfl
@[simp] theorem State.setCtx_mbox (s : State) (c x : Nat) (v : Ctx) : (s.setCtx c x v).mbox = s.mbox := rfl
@[simp] theorem State.setCtx_msixOut (s : State) (c x : Nat) (v : Ctx) : (s.setCtx c x v).msixOut = s.msixOut := rfl
@[simp] theorem State.setCtx_hostAnswers (s : State) (c x : Nat) (v : Ctx) : (s.setCtx c x v).hostAnswers = s.hostAnswers := rfl
@[simp] theorem State.setCtx_aer (s : State) (c x : Nat) (v : Ctx) : (s.setCtx c x v).aer = s.aer := rfl
@[simp] theorem State.setCtx_pfMsix (s : State) (c x : Nat) (v : Ctx) : (s.setCtx c x v).pfMsix = s.pfMsix := rfl
@[simp] theorem State.setCtx_dieLog (s : State) (c x : Nat) (v : Ctx) : (s.setCtx c x v).dieLog = s.dieLog := rfl
@[simp] theorem State.setCtx_launches (s : State) (c x : Nat) (v : Ctx) : (s.setCtx c x v).launches = s.launches := rfl
@[simp] theorem State.setCtx_nextCtx (s : State) (c x : Nat) (v : Ctx) : (s.setCtx c x v).nextCtx = s.nextCtx := rfl
@[simp] theorem State.setCtx_ageus (s : State) (c x : Nat) (v : Ctx) : (s.setCtx c x v).ageus = s.ageus := rfl
@[simp] theorem State.setCtx_lastTen (s : State) (c x : Nat) (v : Ctx) : (s.setCtx c x v).lastTen = s.lastTen := rfl
@[simp] theorem State.setCtx_contFlight (s : State) (c x : Nat) (v : Ctx) : (s.setCtx c x v).contFlight = s.contFlight := rfl
@[simp] theorem State.setCtx_kills (s : State) (c x : Nat) (v : Ctx) : (s.setCtx c x v).kills = s.kills := rfl
@[simp] theorem State.setCtx_deferred (s : State) (c x : Nat) (v : Ctx) : (s.setCtx c x v).deferred = s.deferred := rfl
@[simp] theorem State.setCtx_routers (s : State) (c x : Nat) (v : Ctx) : (s.setCtx c x v).routers = s.routers := rfl
@[simp] theorem State.setCtx_estates (s : State) (c x : Nat) (v : Ctx) : (s.setCtx c x v).estates = s.estates := rfl
@[simp] theorem State.setCtx_acq (s : State) (c x : Nat) (v : Ctx) : (s.setCtx c x v).acq = s.acq := rfl
@[simp] theorem State.setCtx_dseq (s : State) (c x : Nat) (v : Ctx) : (s.setCtx c x v).dseq = s.dseq := rfl
@[simp] theorem State.setCtx_deaths (s : State) (c x : Nat) (v : Ctx) : (s.setCtx c x v).deaths = s.deaths := rfl
@[simp] theorem State.setCtx_deadGroups (s : State) (c x : Nat) (v : Ctx) : (s.setCtx c x v).deadGroups = s.deadGroups := rfl
@[simp] theorem State.setCtx_arrivals (s : State) (c x : Nat) (v : Ctx) : (s.setCtx c x v).arrivals = s.arrivals := rfl
@[simp] theorem State.setCtx_reports (s : State) (c x : Nat) (v : Ctx) : (s.setCtx c x v).reports = s.reports := rfl
@[simp] theorem State.setCtx_waiters (s : State) (c x : Nat) (v : Ctx) : (s.setCtx c x v).waiters = s.waiters := rfl
@[simp] theorem State.setCtx_cells (s : State) (c x : Nat) (v : Ctx) : (s.setCtx c x v).cells = s.cells := rfl
@[simp] theorem State.setCtx_fabric (s : State) (c x : Nat) (v : Ctx) : (s.setCtx c x v).fabric = s.fabric := rfl
@[simp] theorem State.setCtx_boot (s : State) (c x : Nat) (v : Ctx) : (s.setCtx c x v).boot = s.boot := rfl
@[simp] theorem State.setCtx_power (s : State) (c x : Nat) (v : Ctx) : (s.setCtx c x v).power = s.power := rfl
@[simp] theorem State.setCtx_podOff (s : State) (c x : Nat) (v : Ctx) : (s.setCtx c x v).podOff = s.podOff := rfl
@[simp] theorem State.setCtx_podFrac (s : State) (c x : Nat) (v : Ctx) : (s.setCtx c x v).podFrac = s.podFrac := rfl
@[simp] theorem State.setCtx_attr (s : State) (c x : Nat) (v : Ctx) : (s.setCtx c x v).attr = s.attr := rfl
@[simp] theorem State.setCtx_pool (s : State) (c x : Nat) (v : Ctx) : (s.setCtx c x v).pool = s.pool := rfl
@[simp] theorem State.setCtx_fwAttest (s : State) (c x : Nat) (v : Ctx) : (s.setCtx c x v).fwAttest = s.fwAttest := rfl
@[simp] theorem State.setCtx_fwroot (s : State) (c x : Nat) (v : Ctx) : (s.setCtx c x v).fwroot = s.fwroot := rfl
@[simp] theorem State.setCtx_mcerr (s : State) (c x : Nat) (v : Ctx) : (s.setCtx c x v).mcerr = s.mcerr := rfl
@[simp] theorem State.setCtx_prevec (s : State) (c x : Nat) (v : Ctx) : (s.setCtx c x v).prevec = s.prevec := rfl
@[simp] theorem State.setCtx_parkedRemote (s : State) (c x : Nat) (v : Ctx) : (s.setCtx c x v).parkedRemote = s.parkedRemote := rfl

@[simp] theorem State.setMe_now (s : State) (v : Ctx) : (s.setMe v).now = s.now := rfl
@[simp] theorem State.setMe_turns (s : State) (v : Ctx) : (s.setMe v).turns = s.turns := rfl
@[simp] theorem State.setMe_core (s : State) (v : Ctx) : (s.setMe v).core = s.core := rfl
@[simp] theorem State.setMe_ctx (s : State) (v : Ctx) : (s.setMe v).ctx = s.ctx := rfl
@[simp] theorem State.setMe_free (s : State) (v : Ctx) : (s.setMe v).free = s.free := rfl
@[simp] theorem State.setMe_mem (s : State) (v : Ctx) : (s.setMe v).mem = s.mem := rfl
@[simp] theorem State.setMe_poison (s : State) (v : Ctx) : (s.setMe v).poison = s.poison := rfl
@[simp] theorem State.setMe_clusters (s : State) (v : Ctx) : (s.setMe v).clusters = s.clusters := rfl
@[simp] theorem State.setMe_octets (s : State) (v : Ctx) : (s.setMe v).octets = s.octets := rfl
@[simp] theorem State.setMe_walks (s : State) (v : Ctx) : (s.setMe v).walks = s.walks := rfl
@[simp] theorem State.setMe_grecvs (s : State) (v : Ctx) : (s.setMe v).grecvs = s.grecvs := rfl
@[simp] theorem State.setMe_bf (s : State) (v : Ctx) : (s.setMe v).bf = s.bf := rfl
@[simp] theorem State.setMe_bfWait (s : State) (v : Ctx) : (s.setMe v).bfWait = s.bfWait := rfl
@[simp] theorem State.setMe_tenants (s : State) (v : Ctx) : (s.setMe v).tenants = s.tenants := rfl
@[simp] theorem State.setMe_counters (s : State) (v : Ctx) : (s.setMe v).counters = s.counters := rfl
@[simp] theorem State.setMe_trigOrder (s : State) (v : Ctx) : (s.setMe v).trigOrder = s.trigOrder := rfl
@[simp] theorem State.setMe_mbox (s : State) (v : Ctx) : (s.setMe v).mbox = s.mbox := rfl
@[simp] theorem State.setMe_msixOut (s : State) (v : Ctx) : (s.setMe v).msixOut = s.msixOut := rfl
@[simp] theorem State.setMe_hostAnswers (s : State) (v : Ctx) : (s.setMe v).hostAnswers = s.hostAnswers := rfl
@[simp] theorem State.setMe_aer (s : State) (v : Ctx) : (s.setMe v).aer = s.aer := rfl
@[simp] theorem State.setMe_pfMsix (s : State) (v : Ctx) : (s.setMe v).pfMsix = s.pfMsix := rfl
@[simp] theorem State.setMe_dieLog (s : State) (v : Ctx) : (s.setMe v).dieLog = s.dieLog := rfl
@[simp] theorem State.setMe_launches (s : State) (v : Ctx) : (s.setMe v).launches = s.launches := rfl
@[simp] theorem State.setMe_nextCtx (s : State) (v : Ctx) : (s.setMe v).nextCtx = s.nextCtx := rfl
@[simp] theorem State.setMe_ageus (s : State) (v : Ctx) : (s.setMe v).ageus = s.ageus := rfl
@[simp] theorem State.setMe_lastTen (s : State) (v : Ctx) : (s.setMe v).lastTen = s.lastTen := rfl
@[simp] theorem State.setMe_contFlight (s : State) (v : Ctx) : (s.setMe v).contFlight = s.contFlight := rfl
@[simp] theorem State.setMe_kills (s : State) (v : Ctx) : (s.setMe v).kills = s.kills := rfl
@[simp] theorem State.setMe_deferred (s : State) (v : Ctx) : (s.setMe v).deferred = s.deferred := rfl
@[simp] theorem State.setMe_routers (s : State) (v : Ctx) : (s.setMe v).routers = s.routers := rfl
@[simp] theorem State.setMe_estates (s : State) (v : Ctx) : (s.setMe v).estates = s.estates := rfl
@[simp] theorem State.setMe_acq (s : State) (v : Ctx) : (s.setMe v).acq = s.acq := rfl
@[simp] theorem State.setMe_dseq (s : State) (v : Ctx) : (s.setMe v).dseq = s.dseq := rfl
@[simp] theorem State.setMe_deaths (s : State) (v : Ctx) : (s.setMe v).deaths = s.deaths := rfl
@[simp] theorem State.setMe_deadGroups (s : State) (v : Ctx) : (s.setMe v).deadGroups = s.deadGroups := rfl
@[simp] theorem State.setMe_arrivals (s : State) (v : Ctx) : (s.setMe v).arrivals = s.arrivals := rfl
@[simp] theorem State.setMe_reports (s : State) (v : Ctx) : (s.setMe v).reports = s.reports := rfl
@[simp] theorem State.setMe_waiters (s : State) (v : Ctx) : (s.setMe v).waiters = s.waiters := rfl
@[simp] theorem State.setMe_cells (s : State) (v : Ctx) : (s.setMe v).cells = s.cells := rfl
@[simp] theorem State.setMe_fabric (s : State) (v : Ctx) : (s.setMe v).fabric = s.fabric := rfl
@[simp] theorem State.setMe_boot (s : State) (v : Ctx) : (s.setMe v).boot = s.boot := rfl
@[simp] theorem State.setMe_power (s : State) (v : Ctx) : (s.setMe v).power = s.power := rfl
@[simp] theorem State.setMe_podOff (s : State) (v : Ctx) : (s.setMe v).podOff = s.podOff := rfl
@[simp] theorem State.setMe_podFrac (s : State) (v : Ctx) : (s.setMe v).podFrac = s.podFrac := rfl
@[simp] theorem State.setMe_attr (s : State) (v : Ctx) : (s.setMe v).attr = s.attr := rfl
@[simp] theorem State.setMe_pool (s : State) (v : Ctx) : (s.setMe v).pool = s.pool := rfl
@[simp] theorem State.setMe_fwAttest (s : State) (v : Ctx) : (s.setMe v).fwAttest = s.fwAttest := rfl
@[simp] theorem State.setMe_fwroot (s : State) (v : Ctx) : (s.setMe v).fwroot = s.fwroot := rfl
@[simp] theorem State.setMe_mcerr (s : State) (v : Ctx) : (s.setMe v).mcerr = s.mcerr := rfl
@[simp] theorem State.setMe_prevec (s : State) (v : Ctx) : (s.setMe v).prevec = s.prevec := rfl
@[simp] theorem State.setMe_parkedRemote (s : State) (v : Ctx) : (s.setMe v).parkedRemote = s.parkedRemote := rfl

@[simp] theorem State.setMyCore_now (s : State) (k : Core) : (s.setMyCore k).now = s.now := rfl
@[simp] theorem State.setMyCore_turns (s : State) (k : Core) : (s.setMyCore k).turns = s.turns := rfl
@[simp] theorem State.setMyCore_core (s : State) (k : Core) : (s.setMyCore k).core = s.core := rfl
@[simp] theorem State.setMyCore_ctx (s : State) (k : Core) : (s.setMyCore k).ctx = s.ctx := rfl
@[simp] theorem State.setMyCore_free (s : State) (k : Core) : (s.setMyCore k).free = s.free := rfl
@[simp] theorem State.setMyCore_mem (s : State) (k : Core) : (s.setMyCore k).mem = s.mem := rfl
@[simp] theorem State.setMyCore_poison (s : State) (k : Core) : (s.setMyCore k).poison = s.poison := rfl
@[simp] theorem State.setMyCore_clusters (s : State) (k : Core) : (s.setMyCore k).clusters = s.clusters := rfl
@[simp] theorem State.setMyCore_octets (s : State) (k : Core) : (s.setMyCore k).octets = s.octets := rfl
@[simp] theorem State.setMyCore_walks (s : State) (k : Core) : (s.setMyCore k).walks = s.walks := rfl
@[simp] theorem State.setMyCore_grecvs (s : State) (k : Core) : (s.setMyCore k).grecvs = s.grecvs := rfl
@[simp] theorem State.setMyCore_bf (s : State) (k : Core) : (s.setMyCore k).bf = s.bf := rfl
@[simp] theorem State.setMyCore_bfWait (s : State) (k : Core) : (s.setMyCore k).bfWait = s.bfWait := rfl
@[simp] theorem State.setMyCore_tenants (s : State) (k : Core) : (s.setMyCore k).tenants = s.tenants := rfl
@[simp] theorem State.setMyCore_counters (s : State) (k : Core) : (s.setMyCore k).counters = s.counters := rfl
@[simp] theorem State.setMyCore_trigOrder (s : State) (k : Core) : (s.setMyCore k).trigOrder = s.trigOrder := rfl
@[simp] theorem State.setMyCore_mbox (s : State) (k : Core) : (s.setMyCore k).mbox = s.mbox := rfl
@[simp] theorem State.setMyCore_msixOut (s : State) (k : Core) : (s.setMyCore k).msixOut = s.msixOut := rfl
@[simp] theorem State.setMyCore_hostAnswers (s : State) (k : Core) : (s.setMyCore k).hostAnswers = s.hostAnswers := rfl
@[simp] theorem State.setMyCore_aer (s : State) (k : Core) : (s.setMyCore k).aer = s.aer := rfl
@[simp] theorem State.setMyCore_pfMsix (s : State) (k : Core) : (s.setMyCore k).pfMsix = s.pfMsix := rfl
@[simp] theorem State.setMyCore_dieLog (s : State) (k : Core) : (s.setMyCore k).dieLog = s.dieLog := rfl
@[simp] theorem State.setMyCore_launches (s : State) (k : Core) : (s.setMyCore k).launches = s.launches := rfl
@[simp] theorem State.setMyCore_nextCtx (s : State) (k : Core) : (s.setMyCore k).nextCtx = s.nextCtx := rfl
@[simp] theorem State.setMyCore_ageus (s : State) (k : Core) : (s.setMyCore k).ageus = s.ageus := rfl
@[simp] theorem State.setMyCore_lastTen (s : State) (k : Core) : (s.setMyCore k).lastTen = s.lastTen := rfl
@[simp] theorem State.setMyCore_contFlight (s : State) (k : Core) : (s.setMyCore k).contFlight = s.contFlight := rfl
@[simp] theorem State.setMyCore_kills (s : State) (k : Core) : (s.setMyCore k).kills = s.kills := rfl
@[simp] theorem State.setMyCore_deferred (s : State) (k : Core) : (s.setMyCore k).deferred = s.deferred := rfl
@[simp] theorem State.setMyCore_routers (s : State) (k : Core) : (s.setMyCore k).routers = s.routers := rfl
@[simp] theorem State.setMyCore_estates (s : State) (k : Core) : (s.setMyCore k).estates = s.estates := rfl
@[simp] theorem State.setMyCore_acq (s : State) (k : Core) : (s.setMyCore k).acq = s.acq := rfl
@[simp] theorem State.setMyCore_dseq (s : State) (k : Core) : (s.setMyCore k).dseq = s.dseq := rfl
@[simp] theorem State.setMyCore_deaths (s : State) (k : Core) : (s.setMyCore k).deaths = s.deaths := rfl
@[simp] theorem State.setMyCore_deadGroups (s : State) (k : Core) : (s.setMyCore k).deadGroups = s.deadGroups := rfl
@[simp] theorem State.setMyCore_arrivals (s : State) (k : Core) : (s.setMyCore k).arrivals = s.arrivals := rfl
@[simp] theorem State.setMyCore_reports (s : State) (k : Core) : (s.setMyCore k).reports = s.reports := rfl
@[simp] theorem State.setMyCore_waiters (s : State) (k : Core) : (s.setMyCore k).waiters = s.waiters := rfl
@[simp] theorem State.setMyCore_cells (s : State) (k : Core) : (s.setMyCore k).cells = s.cells := rfl
@[simp] theorem State.setMyCore_fabric (s : State) (k : Core) : (s.setMyCore k).fabric = s.fabric := rfl
@[simp] theorem State.setMyCore_boot (s : State) (k : Core) : (s.setMyCore k).boot = s.boot := rfl
@[simp] theorem State.setMyCore_power (s : State) (k : Core) : (s.setMyCore k).power = s.power := rfl
@[simp] theorem State.setMyCore_podOff (s : State) (k : Core) : (s.setMyCore k).podOff = s.podOff := rfl
@[simp] theorem State.setMyCore_podFrac (s : State) (k : Core) : (s.setMyCore k).podFrac = s.podFrac := rfl
@[simp] theorem State.setMyCore_attr (s : State) (k : Core) : (s.setMyCore k).attr = s.attr := rfl
@[simp] theorem State.setMyCore_pool (s : State) (k : Core) : (s.setMyCore k).pool = s.pool := rfl
@[simp] theorem State.setMyCore_fwAttest (s : State) (k : Core) : (s.setMyCore k).fwAttest = s.fwAttest := rfl
@[simp] theorem State.setMyCore_fwroot (s : State) (k : Core) : (s.setMyCore k).fwroot = s.fwroot := rfl
@[simp] theorem State.setMyCore_mcerr (s : State) (k : Core) : (s.setMyCore k).mcerr = s.mcerr := rfl
@[simp] theorem State.setMyCore_prevec (s : State) (k : Core) : (s.setMyCore k).prevec = s.prevec := rfl
@[simp] theorem State.setMyCore_parkedRemote (s : State) (k : Core) : (s.setMyCore k).parkedRemote = s.parkedRemote := rfl

@[simp] theorem State.setCluster_now (s : State) (c : Nat) (v : Cluster) : (s.setCluster c v).now = s.now := rfl
@[simp] theorem State.setCluster_turns (s : State) (c : Nat) (v : Cluster) : (s.setCluster c v).turns = s.turns := rfl
@[simp] theorem State.setCluster_core (s : State) (c : Nat) (v : Cluster) : (s.setCluster c v).core = s.core := rfl
@[simp] theorem State.setCluster_ctx (s : State) (c : Nat) (v : Cluster) : (s.setCluster c v).ctx = s.ctx := rfl
@[simp] theorem State.setCluster_free (s : State) (c : Nat) (v : Cluster) : (s.setCluster c v).free = s.free := rfl
@[simp] theorem State.setCluster_mem (s : State) (c : Nat) (v : Cluster) : (s.setCluster c v).mem = s.mem := rfl
@[simp] theorem State.setCluster_poison (s : State) (c : Nat) (v : Cluster) : (s.setCluster c v).poison = s.poison := rfl
@[simp] theorem State.setCluster_cores (s : State) (c : Nat) (v : Cluster) : (s.setCluster c v).cores = s.cores := rfl
@[simp] theorem State.setCluster_octets (s : State) (c : Nat) (v : Cluster) : (s.setCluster c v).octets = s.octets := rfl
@[simp] theorem State.setCluster_walks (s : State) (c : Nat) (v : Cluster) : (s.setCluster c v).walks = s.walks := rfl
@[simp] theorem State.setCluster_grecvs (s : State) (c : Nat) (v : Cluster) : (s.setCluster c v).grecvs = s.grecvs := rfl
@[simp] theorem State.setCluster_bf (s : State) (c : Nat) (v : Cluster) : (s.setCluster c v).bf = s.bf := rfl
@[simp] theorem State.setCluster_bfWait (s : State) (c : Nat) (v : Cluster) : (s.setCluster c v).bfWait = s.bfWait := rfl
@[simp] theorem State.setCluster_tenants (s : State) (c : Nat) (v : Cluster) : (s.setCluster c v).tenants = s.tenants := rfl
@[simp] theorem State.setCluster_counters (s : State) (c : Nat) (v : Cluster) : (s.setCluster c v).counters = s.counters := rfl
@[simp] theorem State.setCluster_trigOrder (s : State) (c : Nat) (v : Cluster) : (s.setCluster c v).trigOrder = s.trigOrder := rfl
@[simp] theorem State.setCluster_mbox (s : State) (c : Nat) (v : Cluster) : (s.setCluster c v).mbox = s.mbox := rfl
@[simp] theorem State.setCluster_msixOut (s : State) (c : Nat) (v : Cluster) : (s.setCluster c v).msixOut = s.msixOut := rfl
@[simp] theorem State.setCluster_hostAnswers (s : State) (c : Nat) (v : Cluster) : (s.setCluster c v).hostAnswers = s.hostAnswers := rfl
@[simp] theorem State.setCluster_aer (s : State) (c : Nat) (v : Cluster) : (s.setCluster c v).aer = s.aer := rfl
@[simp] theorem State.setCluster_pfMsix (s : State) (c : Nat) (v : Cluster) : (s.setCluster c v).pfMsix = s.pfMsix := rfl
@[simp] theorem State.setCluster_dieLog (s : State) (c : Nat) (v : Cluster) : (s.setCluster c v).dieLog = s.dieLog := rfl
@[simp] theorem State.setCluster_launches (s : State) (c : Nat) (v : Cluster) : (s.setCluster c v).launches = s.launches := rfl
@[simp] theorem State.setCluster_nextCtx (s : State) (c : Nat) (v : Cluster) : (s.setCluster c v).nextCtx = s.nextCtx := rfl
@[simp] theorem State.setCluster_ageus (s : State) (c : Nat) (v : Cluster) : (s.setCluster c v).ageus = s.ageus := rfl
@[simp] theorem State.setCluster_lastTen (s : State) (c : Nat) (v : Cluster) : (s.setCluster c v).lastTen = s.lastTen := rfl
@[simp] theorem State.setCluster_contFlight (s : State) (c : Nat) (v : Cluster) : (s.setCluster c v).contFlight = s.contFlight := rfl
@[simp] theorem State.setCluster_kills (s : State) (c : Nat) (v : Cluster) : (s.setCluster c v).kills = s.kills := rfl
@[simp] theorem State.setCluster_deferred (s : State) (c : Nat) (v : Cluster) : (s.setCluster c v).deferred = s.deferred := rfl
@[simp] theorem State.setCluster_routers (s : State) (c : Nat) (v : Cluster) : (s.setCluster c v).routers = s.routers := rfl
@[simp] theorem State.setCluster_estates (s : State) (c : Nat) (v : Cluster) : (s.setCluster c v).estates = s.estates := rfl
@[simp] theorem State.setCluster_acq (s : State) (c : Nat) (v : Cluster) : (s.setCluster c v).acq = s.acq := rfl
@[simp] theorem State.setCluster_dseq (s : State) (c : Nat) (v : Cluster) : (s.setCluster c v).dseq = s.dseq := rfl
@[simp] theorem State.setCluster_deaths (s : State) (c : Nat) (v : Cluster) : (s.setCluster c v).deaths = s.deaths := rfl
@[simp] theorem State.setCluster_deadGroups (s : State) (c : Nat) (v : Cluster) : (s.setCluster c v).deadGroups = s.deadGroups := rfl
@[simp] theorem State.setCluster_arrivals (s : State) (c : Nat) (v : Cluster) : (s.setCluster c v).arrivals = s.arrivals := rfl
@[simp] theorem State.setCluster_reports (s : State) (c : Nat) (v : Cluster) : (s.setCluster c v).reports = s.reports := rfl
@[simp] theorem State.setCluster_waiters (s : State) (c : Nat) (v : Cluster) : (s.setCluster c v).waiters = s.waiters := rfl
@[simp] theorem State.setCluster_cells (s : State) (c : Nat) (v : Cluster) : (s.setCluster c v).cells = s.cells := rfl
@[simp] theorem State.setCluster_fabric (s : State) (c : Nat) (v : Cluster) : (s.setCluster c v).fabric = s.fabric := rfl
@[simp] theorem State.setCluster_boot (s : State) (c : Nat) (v : Cluster) : (s.setCluster c v).boot = s.boot := rfl
@[simp] theorem State.setCluster_power (s : State) (c : Nat) (v : Cluster) : (s.setCluster c v).power = s.power := rfl
@[simp] theorem State.setCluster_podOff (s : State) (c : Nat) (v : Cluster) : (s.setCluster c v).podOff = s.podOff := rfl
@[simp] theorem State.setCluster_podFrac (s : State) (c : Nat) (v : Cluster) : (s.setCluster c v).podFrac = s.podFrac := rfl
@[simp] theorem State.setCluster_attr (s : State) (c : Nat) (v : Cluster) : (s.setCluster c v).attr = s.attr := rfl
@[simp] theorem State.setCluster_pool (s : State) (c : Nat) (v : Cluster) : (s.setCluster c v).pool = s.pool := rfl
@[simp] theorem State.setCluster_fwAttest (s : State) (c : Nat) (v : Cluster) : (s.setCluster c v).fwAttest = s.fwAttest := rfl
@[simp] theorem State.setCluster_fwroot (s : State) (c : Nat) (v : Cluster) : (s.setCluster c v).fwroot = s.fwroot := rfl
@[simp] theorem State.setCluster_mcerr (s : State) (c : Nat) (v : Cluster) : (s.setCluster c v).mcerr = s.mcerr := rfl
@[simp] theorem State.setCluster_prevec (s : State) (c : Nat) (v : Cluster) : (s.setCluster c v).prevec = s.prevec := rfl
@[simp] theorem State.setCluster_parkedRemote (s : State) (c : Nat) (v : Cluster) : (s.setCluster c v).parkedRemote = s.parkedRemote := rfl

@[simp] theorem State.setOctet_now (s : State) (o : Nat) (v : Octet) : (s.setOctet o v).now = s.now := rfl
@[simp] theorem State.setOctet_turns (s : State) (o : Nat) (v : Octet) : (s.setOctet o v).turns = s.turns := rfl
@[simp] theorem State.setOctet_core (s : State) (o : Nat) (v : Octet) : (s.setOctet o v).core = s.core := rfl
@[simp] theorem State.setOctet_ctx (s : State) (o : Nat) (v : Octet) : (s.setOctet o v).ctx = s.ctx := rfl
@[simp] theorem State.setOctet_free (s : State) (o : Nat) (v : Octet) : (s.setOctet o v).free = s.free := rfl
@[simp] theorem State.setOctet_mem (s : State) (o : Nat) (v : Octet) : (s.setOctet o v).mem = s.mem := rfl
@[simp] theorem State.setOctet_poison (s : State) (o : Nat) (v : Octet) : (s.setOctet o v).poison = s.poison := rfl
@[simp] theorem State.setOctet_cores (s : State) (o : Nat) (v : Octet) : (s.setOctet o v).cores = s.cores := rfl
@[simp] theorem State.setOctet_clusters (s : State) (o : Nat) (v : Octet) : (s.setOctet o v).clusters = s.clusters := rfl
@[simp] theorem State.setOctet_walks (s : State) (o : Nat) (v : Octet) : (s.setOctet o v).walks = s.walks := rfl
@[simp] theorem State.setOctet_grecvs (s : State) (o : Nat) (v : Octet) : (s.setOctet o v).grecvs = s.grecvs := rfl
@[simp] theorem State.setOctet_bf (s : State) (o : Nat) (v : Octet) : (s.setOctet o v).bf = s.bf := rfl
@[simp] theorem State.setOctet_bfWait (s : State) (o : Nat) (v : Octet) : (s.setOctet o v).bfWait = s.bfWait := rfl
@[simp] theorem State.setOctet_tenants (s : State) (o : Nat) (v : Octet) : (s.setOctet o v).tenants = s.tenants := rfl
@[simp] theorem State.setOctet_counters (s : State) (o : Nat) (v : Octet) : (s.setOctet o v).counters = s.counters := rfl
@[simp] theorem State.setOctet_trigOrder (s : State) (o : Nat) (v : Octet) : (s.setOctet o v).trigOrder = s.trigOrder := rfl
@[simp] theorem State.setOctet_mbox (s : State) (o : Nat) (v : Octet) : (s.setOctet o v).mbox = s.mbox := rfl
@[simp] theorem State.setOctet_msixOut (s : State) (o : Nat) (v : Octet) : (s.setOctet o v).msixOut = s.msixOut := rfl
@[simp] theorem State.setOctet_hostAnswers (s : State) (o : Nat) (v : Octet) : (s.setOctet o v).hostAnswers = s.hostAnswers := rfl
@[simp] theorem State.setOctet_aer (s : State) (o : Nat) (v : Octet) : (s.setOctet o v).aer = s.aer := rfl
@[simp] theorem State.setOctet_pfMsix (s : State) (o : Nat) (v : Octet) : (s.setOctet o v).pfMsix = s.pfMsix := rfl
@[simp] theorem State.setOctet_dieLog (s : State) (o : Nat) (v : Octet) : (s.setOctet o v).dieLog = s.dieLog := rfl
@[simp] theorem State.setOctet_launches (s : State) (o : Nat) (v : Octet) : (s.setOctet o v).launches = s.launches := rfl
@[simp] theorem State.setOctet_nextCtx (s : State) (o : Nat) (v : Octet) : (s.setOctet o v).nextCtx = s.nextCtx := rfl
@[simp] theorem State.setOctet_ageus (s : State) (o : Nat) (v : Octet) : (s.setOctet o v).ageus = s.ageus := rfl
@[simp] theorem State.setOctet_lastTen (s : State) (o : Nat) (v : Octet) : (s.setOctet o v).lastTen = s.lastTen := rfl
@[simp] theorem State.setOctet_contFlight (s : State) (o : Nat) (v : Octet) : (s.setOctet o v).contFlight = s.contFlight := rfl
@[simp] theorem State.setOctet_kills (s : State) (o : Nat) (v : Octet) : (s.setOctet o v).kills = s.kills := rfl
@[simp] theorem State.setOctet_deferred (s : State) (o : Nat) (v : Octet) : (s.setOctet o v).deferred = s.deferred := rfl
@[simp] theorem State.setOctet_routers (s : State) (o : Nat) (v : Octet) : (s.setOctet o v).routers = s.routers := rfl
@[simp] theorem State.setOctet_estates (s : State) (o : Nat) (v : Octet) : (s.setOctet o v).estates = s.estates := rfl
@[simp] theorem State.setOctet_acq (s : State) (o : Nat) (v : Octet) : (s.setOctet o v).acq = s.acq := rfl
@[simp] theorem State.setOctet_dseq (s : State) (o : Nat) (v : Octet) : (s.setOctet o v).dseq = s.dseq := rfl
@[simp] theorem State.setOctet_deaths (s : State) (o : Nat) (v : Octet) : (s.setOctet o v).deaths = s.deaths := rfl
@[simp] theorem State.setOctet_deadGroups (s : State) (o : Nat) (v : Octet) : (s.setOctet o v).deadGroups = s.deadGroups := rfl
@[simp] theorem State.setOctet_arrivals (s : State) (o : Nat) (v : Octet) : (s.setOctet o v).arrivals = s.arrivals := rfl
@[simp] theorem State.setOctet_reports (s : State) (o : Nat) (v : Octet) : (s.setOctet o v).reports = s.reports := rfl
@[simp] theorem State.setOctet_waiters (s : State) (o : Nat) (v : Octet) : (s.setOctet o v).waiters = s.waiters := rfl
@[simp] theorem State.setOctet_cells (s : State) (o : Nat) (v : Octet) : (s.setOctet o v).cells = s.cells := rfl
@[simp] theorem State.setOctet_fabric (s : State) (o : Nat) (v : Octet) : (s.setOctet o v).fabric = s.fabric := rfl
@[simp] theorem State.setOctet_boot (s : State) (o : Nat) (v : Octet) : (s.setOctet o v).boot = s.boot := rfl
@[simp] theorem State.setOctet_power (s : State) (o : Nat) (v : Octet) : (s.setOctet o v).power = s.power := rfl
@[simp] theorem State.setOctet_podOff (s : State) (o : Nat) (v : Octet) : (s.setOctet o v).podOff = s.podOff := rfl
@[simp] theorem State.setOctet_podFrac (s : State) (o : Nat) (v : Octet) : (s.setOctet o v).podFrac = s.podFrac := rfl
@[simp] theorem State.setOctet_attr (s : State) (o : Nat) (v : Octet) : (s.setOctet o v).attr = s.attr := rfl
@[simp] theorem State.setOctet_pool (s : State) (o : Nat) (v : Octet) : (s.setOctet o v).pool = s.pool := rfl
@[simp] theorem State.setOctet_fwAttest (s : State) (o : Nat) (v : Octet) : (s.setOctet o v).fwAttest = s.fwAttest := rfl
@[simp] theorem State.setOctet_fwroot (s : State) (o : Nat) (v : Octet) : (s.setOctet o v).fwroot = s.fwroot := rfl
@[simp] theorem State.setOctet_mcerr (s : State) (o : Nat) (v : Octet) : (s.setOctet o v).mcerr = s.mcerr := rfl
@[simp] theorem State.setOctet_prevec (s : State) (o : Nat) (v : Octet) : (s.setOctet o v).prevec = s.prevec := rfl
@[simp] theorem State.setOctet_parkedRemote (s : State) (o : Nat) (v : Octet) : (s.setOctet o v).parkedRemote = s.parkedRemote := rfl

@[simp] theorem State.setTenant_now (s : State) (i : Nat) (v : Tenant) : (s.setTenant i v).now = s.now := rfl
@[simp] theorem State.setTenant_turns (s : State) (i : Nat) (v : Tenant) : (s.setTenant i v).turns = s.turns := rfl
@[simp] theorem State.setTenant_core (s : State) (i : Nat) (v : Tenant) : (s.setTenant i v).core = s.core := rfl
@[simp] theorem State.setTenant_ctx (s : State) (i : Nat) (v : Tenant) : (s.setTenant i v).ctx = s.ctx := rfl
@[simp] theorem State.setTenant_free (s : State) (i : Nat) (v : Tenant) : (s.setTenant i v).free = s.free := rfl
@[simp] theorem State.setTenant_mem (s : State) (i : Nat) (v : Tenant) : (s.setTenant i v).mem = s.mem := rfl
@[simp] theorem State.setTenant_poison (s : State) (i : Nat) (v : Tenant) : (s.setTenant i v).poison = s.poison := rfl
@[simp] theorem State.setTenant_cores (s : State) (i : Nat) (v : Tenant) : (s.setTenant i v).cores = s.cores := rfl
@[simp] theorem State.setTenant_clusters (s : State) (i : Nat) (v : Tenant) : (s.setTenant i v).clusters = s.clusters := rfl
@[simp] theorem State.setTenant_octets (s : State) (i : Nat) (v : Tenant) : (s.setTenant i v).octets = s.octets := rfl
@[simp] theorem State.setTenant_walks (s : State) (i : Nat) (v : Tenant) : (s.setTenant i v).walks = s.walks := rfl
@[simp] theorem State.setTenant_grecvs (s : State) (i : Nat) (v : Tenant) : (s.setTenant i v).grecvs = s.grecvs := rfl
@[simp] theorem State.setTenant_bf (s : State) (i : Nat) (v : Tenant) : (s.setTenant i v).bf = s.bf := rfl
@[simp] theorem State.setTenant_bfWait (s : State) (i : Nat) (v : Tenant) : (s.setTenant i v).bfWait = s.bfWait := rfl
@[simp] theorem State.setTenant_counters (s : State) (i : Nat) (v : Tenant) : (s.setTenant i v).counters = s.counters := rfl
@[simp] theorem State.setTenant_trigOrder (s : State) (i : Nat) (v : Tenant) : (s.setTenant i v).trigOrder = s.trigOrder := rfl
@[simp] theorem State.setTenant_mbox (s : State) (i : Nat) (v : Tenant) : (s.setTenant i v).mbox = s.mbox := rfl
@[simp] theorem State.setTenant_msixOut (s : State) (i : Nat) (v : Tenant) : (s.setTenant i v).msixOut = s.msixOut := rfl
@[simp] theorem State.setTenant_hostAnswers (s : State) (i : Nat) (v : Tenant) : (s.setTenant i v).hostAnswers = s.hostAnswers := rfl
@[simp] theorem State.setTenant_aer (s : State) (i : Nat) (v : Tenant) : (s.setTenant i v).aer = s.aer := rfl
@[simp] theorem State.setTenant_pfMsix (s : State) (i : Nat) (v : Tenant) : (s.setTenant i v).pfMsix = s.pfMsix := rfl
@[simp] theorem State.setTenant_dieLog (s : State) (i : Nat) (v : Tenant) : (s.setTenant i v).dieLog = s.dieLog := rfl
@[simp] theorem State.setTenant_launches (s : State) (i : Nat) (v : Tenant) : (s.setTenant i v).launches = s.launches := rfl
@[simp] theorem State.setTenant_nextCtx (s : State) (i : Nat) (v : Tenant) : (s.setTenant i v).nextCtx = s.nextCtx := rfl
@[simp] theorem State.setTenant_ageus (s : State) (i : Nat) (v : Tenant) : (s.setTenant i v).ageus = s.ageus := rfl
@[simp] theorem State.setTenant_lastTen (s : State) (i : Nat) (v : Tenant) : (s.setTenant i v).lastTen = s.lastTen := rfl
@[simp] theorem State.setTenant_contFlight (s : State) (i : Nat) (v : Tenant) : (s.setTenant i v).contFlight = s.contFlight := rfl
@[simp] theorem State.setTenant_kills (s : State) (i : Nat) (v : Tenant) : (s.setTenant i v).kills = s.kills := rfl
@[simp] theorem State.setTenant_deferred (s : State) (i : Nat) (v : Tenant) : (s.setTenant i v).deferred = s.deferred := rfl
@[simp] theorem State.setTenant_routers (s : State) (i : Nat) (v : Tenant) : (s.setTenant i v).routers = s.routers := rfl
@[simp] theorem State.setTenant_estates (s : State) (i : Nat) (v : Tenant) : (s.setTenant i v).estates = s.estates := rfl
@[simp] theorem State.setTenant_acq (s : State) (i : Nat) (v : Tenant) : (s.setTenant i v).acq = s.acq := rfl
@[simp] theorem State.setTenant_dseq (s : State) (i : Nat) (v : Tenant) : (s.setTenant i v).dseq = s.dseq := rfl
@[simp] theorem State.setTenant_deaths (s : State) (i : Nat) (v : Tenant) : (s.setTenant i v).deaths = s.deaths := rfl
@[simp] theorem State.setTenant_deadGroups (s : State) (i : Nat) (v : Tenant) : (s.setTenant i v).deadGroups = s.deadGroups := rfl
@[simp] theorem State.setTenant_arrivals (s : State) (i : Nat) (v : Tenant) : (s.setTenant i v).arrivals = s.arrivals := rfl
@[simp] theorem State.setTenant_reports (s : State) (i : Nat) (v : Tenant) : (s.setTenant i v).reports = s.reports := rfl
@[simp] theorem State.setTenant_waiters (s : State) (i : Nat) (v : Tenant) : (s.setTenant i v).waiters = s.waiters := rfl
@[simp] theorem State.setTenant_cells (s : State) (i : Nat) (v : Tenant) : (s.setTenant i v).cells = s.cells := rfl
@[simp] theorem State.setTenant_fabric (s : State) (i : Nat) (v : Tenant) : (s.setTenant i v).fabric = s.fabric := rfl
@[simp] theorem State.setTenant_boot (s : State) (i : Nat) (v : Tenant) : (s.setTenant i v).boot = s.boot := rfl
@[simp] theorem State.setTenant_power (s : State) (i : Nat) (v : Tenant) : (s.setTenant i v).power = s.power := rfl
@[simp] theorem State.setTenant_podOff (s : State) (i : Nat) (v : Tenant) : (s.setTenant i v).podOff = s.podOff := rfl
@[simp] theorem State.setTenant_podFrac (s : State) (i : Nat) (v : Tenant) : (s.setTenant i v).podFrac = s.podFrac := rfl
@[simp] theorem State.setTenant_attr (s : State) (i : Nat) (v : Tenant) : (s.setTenant i v).attr = s.attr := rfl
@[simp] theorem State.setTenant_pool (s : State) (i : Nat) (v : Tenant) : (s.setTenant i v).pool = s.pool := rfl
@[simp] theorem State.setTenant_fwAttest (s : State) (i : Nat) (v : Tenant) : (s.setTenant i v).fwAttest = s.fwAttest := rfl
@[simp] theorem State.setTenant_fwroot (s : State) (i : Nat) (v : Tenant) : (s.setTenant i v).fwroot = s.fwroot := rfl
@[simp] theorem State.setTenant_mcerr (s : State) (i : Nat) (v : Tenant) : (s.setTenant i v).mcerr = s.mcerr := rfl
@[simp] theorem State.setTenant_prevec (s : State) (i : Nat) (v : Tenant) : (s.setTenant i v).prevec = s.prevec := rfl
@[simp] theorem State.setTenant_parkedRemote (s : State) (i : Nat) (v : Tenant) : (s.setTenant i v).parkedRemote = s.parkedRemote := rfl

@[simp] theorem State.setCounter_now (s : State) (i : Nat) (v : Counter) : (s.setCounter i v).now = s.now := rfl
@[simp] theorem State.setCounter_turns (s : State) (i : Nat) (v : Counter) : (s.setCounter i v).turns = s.turns := rfl
@[simp] theorem State.setCounter_core (s : State) (i : Nat) (v : Counter) : (s.setCounter i v).core = s.core := rfl
@[simp] theorem State.setCounter_ctx (s : State) (i : Nat) (v : Counter) : (s.setCounter i v).ctx = s.ctx := rfl
@[simp] theorem State.setCounter_free (s : State) (i : Nat) (v : Counter) : (s.setCounter i v).free = s.free := rfl
@[simp] theorem State.setCounter_mem (s : State) (i : Nat) (v : Counter) : (s.setCounter i v).mem = s.mem := rfl
@[simp] theorem State.setCounter_poison (s : State) (i : Nat) (v : Counter) : (s.setCounter i v).poison = s.poison := rfl
@[simp] theorem State.setCounter_cores (s : State) (i : Nat) (v : Counter) : (s.setCounter i v).cores = s.cores := rfl
@[simp] theorem State.setCounter_clusters (s : State) (i : Nat) (v : Counter) : (s.setCounter i v).clusters = s.clusters := rfl
@[simp] theorem State.setCounter_octets (s : State) (i : Nat) (v : Counter) : (s.setCounter i v).octets = s.octets := rfl
@[simp] theorem State.setCounter_walks (s : State) (i : Nat) (v : Counter) : (s.setCounter i v).walks = s.walks := rfl
@[simp] theorem State.setCounter_grecvs (s : State) (i : Nat) (v : Counter) : (s.setCounter i v).grecvs = s.grecvs := rfl
@[simp] theorem State.setCounter_bf (s : State) (i : Nat) (v : Counter) : (s.setCounter i v).bf = s.bf := rfl
@[simp] theorem State.setCounter_bfWait (s : State) (i : Nat) (v : Counter) : (s.setCounter i v).bfWait = s.bfWait := rfl
@[simp] theorem State.setCounter_tenants (s : State) (i : Nat) (v : Counter) : (s.setCounter i v).tenants = s.tenants := rfl
@[simp] theorem State.setCounter_trigOrder (s : State) (i : Nat) (v : Counter) : (s.setCounter i v).trigOrder = s.trigOrder := rfl
@[simp] theorem State.setCounter_mbox (s : State) (i : Nat) (v : Counter) : (s.setCounter i v).mbox = s.mbox := rfl
@[simp] theorem State.setCounter_msixOut (s : State) (i : Nat) (v : Counter) : (s.setCounter i v).msixOut = s.msixOut := rfl
@[simp] theorem State.setCounter_hostAnswers (s : State) (i : Nat) (v : Counter) : (s.setCounter i v).hostAnswers = s.hostAnswers := rfl
@[simp] theorem State.setCounter_aer (s : State) (i : Nat) (v : Counter) : (s.setCounter i v).aer = s.aer := rfl
@[simp] theorem State.setCounter_pfMsix (s : State) (i : Nat) (v : Counter) : (s.setCounter i v).pfMsix = s.pfMsix := rfl
@[simp] theorem State.setCounter_dieLog (s : State) (i : Nat) (v : Counter) : (s.setCounter i v).dieLog = s.dieLog := rfl
@[simp] theorem State.setCounter_launches (s : State) (i : Nat) (v : Counter) : (s.setCounter i v).launches = s.launches := rfl
@[simp] theorem State.setCounter_nextCtx (s : State) (i : Nat) (v : Counter) : (s.setCounter i v).nextCtx = s.nextCtx := rfl
@[simp] theorem State.setCounter_ageus (s : State) (i : Nat) (v : Counter) : (s.setCounter i v).ageus = s.ageus := rfl
@[simp] theorem State.setCounter_lastTen (s : State) (i : Nat) (v : Counter) : (s.setCounter i v).lastTen = s.lastTen := rfl
@[simp] theorem State.setCounter_contFlight (s : State) (i : Nat) (v : Counter) : (s.setCounter i v).contFlight = s.contFlight := rfl
@[simp] theorem State.setCounter_kills (s : State) (i : Nat) (v : Counter) : (s.setCounter i v).kills = s.kills := rfl
@[simp] theorem State.setCounter_deferred (s : State) (i : Nat) (v : Counter) : (s.setCounter i v).deferred = s.deferred := rfl
@[simp] theorem State.setCounter_routers (s : State) (i : Nat) (v : Counter) : (s.setCounter i v).routers = s.routers := rfl
@[simp] theorem State.setCounter_estates (s : State) (i : Nat) (v : Counter) : (s.setCounter i v).estates = s.estates := rfl
@[simp] theorem State.setCounter_acq (s : State) (i : Nat) (v : Counter) : (s.setCounter i v).acq = s.acq := rfl
@[simp] theorem State.setCounter_dseq (s : State) (i : Nat) (v : Counter) : (s.setCounter i v).dseq = s.dseq := rfl
@[simp] theorem State.setCounter_deaths (s : State) (i : Nat) (v : Counter) : (s.setCounter i v).deaths = s.deaths := rfl
@[simp] theorem State.setCounter_deadGroups (s : State) (i : Nat) (v : Counter) : (s.setCounter i v).deadGroups = s.deadGroups := rfl
@[simp] theorem State.setCounter_arrivals (s : State) (i : Nat) (v : Counter) : (s.setCounter i v).arrivals = s.arrivals := rfl
@[simp] theorem State.setCounter_reports (s : State) (i : Nat) (v : Counter) : (s.setCounter i v).reports = s.reports := rfl
@[simp] theorem State.setCounter_waiters (s : State) (i : Nat) (v : Counter) : (s.setCounter i v).waiters = s.waiters := rfl
@[simp] theorem State.setCounter_cells (s : State) (i : Nat) (v : Counter) : (s.setCounter i v).cells = s.cells := rfl
@[simp] theorem State.setCounter_fabric (s : State) (i : Nat) (v : Counter) : (s.setCounter i v).fabric = s.fabric := rfl
@[simp] theorem State.setCounter_boot (s : State) (i : Nat) (v : Counter) : (s.setCounter i v).boot = s.boot := rfl
@[simp] theorem State.setCounter_power (s : State) (i : Nat) (v : Counter) : (s.setCounter i v).power = s.power := rfl
@[simp] theorem State.setCounter_podOff (s : State) (i : Nat) (v : Counter) : (s.setCounter i v).podOff = s.podOff := rfl
@[simp] theorem State.setCounter_podFrac (s : State) (i : Nat) (v : Counter) : (s.setCounter i v).podFrac = s.podFrac := rfl
@[simp] theorem State.setCounter_attr (s : State) (i : Nat) (v : Counter) : (s.setCounter i v).attr = s.attr := rfl
@[simp] theorem State.setCounter_pool (s : State) (i : Nat) (v : Counter) : (s.setCounter i v).pool = s.pool := rfl
@[simp] theorem State.setCounter_fwAttest (s : State) (i : Nat) (v : Counter) : (s.setCounter i v).fwAttest = s.fwAttest := rfl
@[simp] theorem State.setCounter_fwroot (s : State) (i : Nat) (v : Counter) : (s.setCounter i v).fwroot = s.fwroot := rfl
@[simp] theorem State.setCounter_mcerr (s : State) (i : Nat) (v : Counter) : (s.setCounter i v).mcerr = s.mcerr := rfl
@[simp] theorem State.setCounter_prevec (s : State) (i : Nat) (v : Counter) : (s.setCounter i v).prevec = s.prevec := rfl
@[simp] theorem State.setCounter_parkedRemote (s : State) (i : Nat) (v : Counter) : (s.setCounter i v).parkedRemote = s.parkedRemote := rfl

@[simp] theorem State.setMbox_now (s : State) (v r : Nat) (m : MbRing) : (s.setMbox v r m).now = s.now := rfl
@[simp] theorem State.setMbox_turns (s : State) (v r : Nat) (m : MbRing) : (s.setMbox v r m).turns = s.turns := rfl
@[simp] theorem State.setMbox_core (s : State) (v r : Nat) (m : MbRing) : (s.setMbox v r m).core = s.core := rfl
@[simp] theorem State.setMbox_ctx (s : State) (v r : Nat) (m : MbRing) : (s.setMbox v r m).ctx = s.ctx := rfl
@[simp] theorem State.setMbox_free (s : State) (v r : Nat) (m : MbRing) : (s.setMbox v r m).free = s.free := rfl
@[simp] theorem State.setMbox_mem (s : State) (v r : Nat) (m : MbRing) : (s.setMbox v r m).mem = s.mem := rfl
@[simp] theorem State.setMbox_poison (s : State) (v r : Nat) (m : MbRing) : (s.setMbox v r m).poison = s.poison := rfl
@[simp] theorem State.setMbox_cores (s : State) (v r : Nat) (m : MbRing) : (s.setMbox v r m).cores = s.cores := rfl
@[simp] theorem State.setMbox_clusters (s : State) (v r : Nat) (m : MbRing) : (s.setMbox v r m).clusters = s.clusters := rfl
@[simp] theorem State.setMbox_octets (s : State) (v r : Nat) (m : MbRing) : (s.setMbox v r m).octets = s.octets := rfl
@[simp] theorem State.setMbox_walks (s : State) (v r : Nat) (m : MbRing) : (s.setMbox v r m).walks = s.walks := rfl
@[simp] theorem State.setMbox_grecvs (s : State) (v r : Nat) (m : MbRing) : (s.setMbox v r m).grecvs = s.grecvs := rfl
@[simp] theorem State.setMbox_bf (s : State) (v r : Nat) (m : MbRing) : (s.setMbox v r m).bf = s.bf := rfl
@[simp] theorem State.setMbox_bfWait (s : State) (v r : Nat) (m : MbRing) : (s.setMbox v r m).bfWait = s.bfWait := rfl
@[simp] theorem State.setMbox_tenants (s : State) (v r : Nat) (m : MbRing) : (s.setMbox v r m).tenants = s.tenants := rfl
@[simp] theorem State.setMbox_counters (s : State) (v r : Nat) (m : MbRing) : (s.setMbox v r m).counters = s.counters := rfl
@[simp] theorem State.setMbox_trigOrder (s : State) (v r : Nat) (m : MbRing) : (s.setMbox v r m).trigOrder = s.trigOrder := rfl
@[simp] theorem State.setMbox_msixOut (s : State) (v r : Nat) (m : MbRing) : (s.setMbox v r m).msixOut = s.msixOut := rfl
@[simp] theorem State.setMbox_hostAnswers (s : State) (v r : Nat) (m : MbRing) : (s.setMbox v r m).hostAnswers = s.hostAnswers := rfl
@[simp] theorem State.setMbox_aer (s : State) (v r : Nat) (m : MbRing) : (s.setMbox v r m).aer = s.aer := rfl
@[simp] theorem State.setMbox_pfMsix (s : State) (v r : Nat) (m : MbRing) : (s.setMbox v r m).pfMsix = s.pfMsix := rfl
@[simp] theorem State.setMbox_dieLog (s : State) (v r : Nat) (m : MbRing) : (s.setMbox v r m).dieLog = s.dieLog := rfl
@[simp] theorem State.setMbox_launches (s : State) (v r : Nat) (m : MbRing) : (s.setMbox v r m).launches = s.launches := rfl
@[simp] theorem State.setMbox_nextCtx (s : State) (v r : Nat) (m : MbRing) : (s.setMbox v r m).nextCtx = s.nextCtx := rfl
@[simp] theorem State.setMbox_ageus (s : State) (v r : Nat) (m : MbRing) : (s.setMbox v r m).ageus = s.ageus := rfl
@[simp] theorem State.setMbox_lastTen (s : State) (v r : Nat) (m : MbRing) : (s.setMbox v r m).lastTen = s.lastTen := rfl
@[simp] theorem State.setMbox_contFlight (s : State) (v r : Nat) (m : MbRing) : (s.setMbox v r m).contFlight = s.contFlight := rfl
@[simp] theorem State.setMbox_kills (s : State) (v r : Nat) (m : MbRing) : (s.setMbox v r m).kills = s.kills := rfl
@[simp] theorem State.setMbox_deferred (s : State) (v r : Nat) (m : MbRing) : (s.setMbox v r m).deferred = s.deferred := rfl
@[simp] theorem State.setMbox_routers (s : State) (v r : Nat) (m : MbRing) : (s.setMbox v r m).routers = s.routers := rfl
@[simp] theorem State.setMbox_estates (s : State) (v r : Nat) (m : MbRing) : (s.setMbox v r m).estates = s.estates := rfl
@[simp] theorem State.setMbox_acq (s : State) (v r : Nat) (m : MbRing) : (s.setMbox v r m).acq = s.acq := rfl
@[simp] theorem State.setMbox_dseq (s : State) (v r : Nat) (m : MbRing) : (s.setMbox v r m).dseq = s.dseq := rfl
@[simp] theorem State.setMbox_deaths (s : State) (v r : Nat) (m : MbRing) : (s.setMbox v r m).deaths = s.deaths := rfl
@[simp] theorem State.setMbox_deadGroups (s : State) (v r : Nat) (m : MbRing) : (s.setMbox v r m).deadGroups = s.deadGroups := rfl
@[simp] theorem State.setMbox_arrivals (s : State) (v r : Nat) (m : MbRing) : (s.setMbox v r m).arrivals = s.arrivals := rfl
@[simp] theorem State.setMbox_reports (s : State) (v r : Nat) (m : MbRing) : (s.setMbox v r m).reports = s.reports := rfl
@[simp] theorem State.setMbox_waiters (s : State) (v r : Nat) (m : MbRing) : (s.setMbox v r m).waiters = s.waiters := rfl
@[simp] theorem State.setMbox_cells (s : State) (v r : Nat) (m : MbRing) : (s.setMbox v r m).cells = s.cells := rfl
@[simp] theorem State.setMbox_fabric (s : State) (v r : Nat) (m : MbRing) : (s.setMbox v r m).fabric = s.fabric := rfl
@[simp] theorem State.setMbox_boot (s : State) (v r : Nat) (m : MbRing) : (s.setMbox v r m).boot = s.boot := rfl
@[simp] theorem State.setMbox_power (s : State) (v r : Nat) (m : MbRing) : (s.setMbox v r m).power = s.power := rfl
@[simp] theorem State.setMbox_podOff (s : State) (v r : Nat) (m : MbRing) : (s.setMbox v r m).podOff = s.podOff := rfl
@[simp] theorem State.setMbox_podFrac (s : State) (v r : Nat) (m : MbRing) : (s.setMbox v r m).podFrac = s.podFrac := rfl
@[simp] theorem State.setMbox_attr (s : State) (v r : Nat) (m : MbRing) : (s.setMbox v r m).attr = s.attr := rfl
@[simp] theorem State.setMbox_pool (s : State) (v r : Nat) (m : MbRing) : (s.setMbox v r m).pool = s.pool := rfl
@[simp] theorem State.setMbox_fwAttest (s : State) (v r : Nat) (m : MbRing) : (s.setMbox v r m).fwAttest = s.fwAttest := rfl
@[simp] theorem State.setMbox_fwroot (s : State) (v r : Nat) (m : MbRing) : (s.setMbox v r m).fwroot = s.fwroot := rfl
@[simp] theorem State.setMbox_mcerr (s : State) (v r : Nat) (m : MbRing) : (s.setMbox v r m).mcerr = s.mcerr := rfl
@[simp] theorem State.setMbox_prevec (s : State) (v r : Nat) (m : MbRing) : (s.setMbox v r m).prevec = s.prevec := rfl
@[simp] theorem State.setMbox_parkedRemote (s : State) (v r : Nat) (m : MbRing) : (s.setMbox v r m).parkedRemote = s.parkedRemote := rfl

@[simp] theorem State.updLaunch_now (s : State) (i : Nat) (c : W32) (f : Launch → Launch) : (s.updLaunch i c f).now = s.now := rfl
@[simp] theorem State.updLaunch_turns (s : State) (i : Nat) (c : W32) (f : Launch → Launch) : (s.updLaunch i c f).turns = s.turns := rfl
@[simp] theorem State.updLaunch_core (s : State) (i : Nat) (c : W32) (f : Launch → Launch) : (s.updLaunch i c f).core = s.core := rfl
@[simp] theorem State.updLaunch_ctx (s : State) (i : Nat) (c : W32) (f : Launch → Launch) : (s.updLaunch i c f).ctx = s.ctx := rfl
@[simp] theorem State.updLaunch_free (s : State) (i : Nat) (c : W32) (f : Launch → Launch) : (s.updLaunch i c f).free = s.free := rfl
@[simp] theorem State.updLaunch_mem (s : State) (i : Nat) (c : W32) (f : Launch → Launch) : (s.updLaunch i c f).mem = s.mem := rfl
@[simp] theorem State.updLaunch_poison (s : State) (i : Nat) (c : W32) (f : Launch → Launch) : (s.updLaunch i c f).poison = s.poison := rfl
@[simp] theorem State.updLaunch_cores (s : State) (i : Nat) (c : W32) (f : Launch → Launch) : (s.updLaunch i c f).cores = s.cores := rfl
@[simp] theorem State.updLaunch_clusters (s : State) (i : Nat) (c : W32) (f : Launch → Launch) : (s.updLaunch i c f).clusters = s.clusters := rfl
@[simp] theorem State.updLaunch_octets (s : State) (i : Nat) (c : W32) (f : Launch → Launch) : (s.updLaunch i c f).octets = s.octets := rfl
@[simp] theorem State.updLaunch_walks (s : State) (i : Nat) (c : W32) (f : Launch → Launch) : (s.updLaunch i c f).walks = s.walks := rfl
@[simp] theorem State.updLaunch_grecvs (s : State) (i : Nat) (c : W32) (f : Launch → Launch) : (s.updLaunch i c f).grecvs = s.grecvs := rfl
@[simp] theorem State.updLaunch_bf (s : State) (i : Nat) (c : W32) (f : Launch → Launch) : (s.updLaunch i c f).bf = s.bf := rfl
@[simp] theorem State.updLaunch_bfWait (s : State) (i : Nat) (c : W32) (f : Launch → Launch) : (s.updLaunch i c f).bfWait = s.bfWait := rfl
@[simp] theorem State.updLaunch_tenants (s : State) (i : Nat) (c : W32) (f : Launch → Launch) : (s.updLaunch i c f).tenants = s.tenants := rfl
@[simp] theorem State.updLaunch_counters (s : State) (i : Nat) (c : W32) (f : Launch → Launch) : (s.updLaunch i c f).counters = s.counters := rfl
@[simp] theorem State.updLaunch_trigOrder (s : State) (i : Nat) (c : W32) (f : Launch → Launch) : (s.updLaunch i c f).trigOrder = s.trigOrder := rfl
@[simp] theorem State.updLaunch_mbox (s : State) (i : Nat) (c : W32) (f : Launch → Launch) : (s.updLaunch i c f).mbox = s.mbox := rfl
@[simp] theorem State.updLaunch_msixOut (s : State) (i : Nat) (c : W32) (f : Launch → Launch) : (s.updLaunch i c f).msixOut = s.msixOut := rfl
@[simp] theorem State.updLaunch_hostAnswers (s : State) (i : Nat) (c : W32) (f : Launch → Launch) : (s.updLaunch i c f).hostAnswers = s.hostAnswers := rfl
@[simp] theorem State.updLaunch_aer (s : State) (i : Nat) (c : W32) (f : Launch → Launch) : (s.updLaunch i c f).aer = s.aer := rfl
@[simp] theorem State.updLaunch_pfMsix (s : State) (i : Nat) (c : W32) (f : Launch → Launch) : (s.updLaunch i c f).pfMsix = s.pfMsix := rfl
@[simp] theorem State.updLaunch_dieLog (s : State) (i : Nat) (c : W32) (f : Launch → Launch) : (s.updLaunch i c f).dieLog = s.dieLog := rfl
@[simp] theorem State.updLaunch_nextCtx (s : State) (i : Nat) (c : W32) (f : Launch → Launch) : (s.updLaunch i c f).nextCtx = s.nextCtx := rfl
@[simp] theorem State.updLaunch_ageus (s : State) (i : Nat) (c : W32) (f : Launch → Launch) : (s.updLaunch i c f).ageus = s.ageus := rfl
@[simp] theorem State.updLaunch_lastTen (s : State) (i : Nat) (c : W32) (f : Launch → Launch) : (s.updLaunch i c f).lastTen = s.lastTen := rfl
@[simp] theorem State.updLaunch_contFlight (s : State) (i : Nat) (c : W32) (f : Launch → Launch) : (s.updLaunch i c f).contFlight = s.contFlight := rfl
@[simp] theorem State.updLaunch_kills (s : State) (i : Nat) (c : W32) (f : Launch → Launch) : (s.updLaunch i c f).kills = s.kills := rfl
@[simp] theorem State.updLaunch_deferred (s : State) (i : Nat) (c : W32) (f : Launch → Launch) : (s.updLaunch i c f).deferred = s.deferred := rfl
@[simp] theorem State.updLaunch_routers (s : State) (i : Nat) (c : W32) (f : Launch → Launch) : (s.updLaunch i c f).routers = s.routers := rfl
@[simp] theorem State.updLaunch_estates (s : State) (i : Nat) (c : W32) (f : Launch → Launch) : (s.updLaunch i c f).estates = s.estates := rfl
@[simp] theorem State.updLaunch_acq (s : State) (i : Nat) (c : W32) (f : Launch → Launch) : (s.updLaunch i c f).acq = s.acq := rfl
@[simp] theorem State.updLaunch_dseq (s : State) (i : Nat) (c : W32) (f : Launch → Launch) : (s.updLaunch i c f).dseq = s.dseq := rfl
@[simp] theorem State.updLaunch_deaths (s : State) (i : Nat) (c : W32) (f : Launch → Launch) : (s.updLaunch i c f).deaths = s.deaths := rfl
@[simp] theorem State.updLaunch_deadGroups (s : State) (i : Nat) (c : W32) (f : Launch → Launch) : (s.updLaunch i c f).deadGroups = s.deadGroups := rfl
@[simp] theorem State.updLaunch_arrivals (s : State) (i : Nat) (c : W32) (f : Launch → Launch) : (s.updLaunch i c f).arrivals = s.arrivals := rfl
@[simp] theorem State.updLaunch_reports (s : State) (i : Nat) (c : W32) (f : Launch → Launch) : (s.updLaunch i c f).reports = s.reports := rfl
@[simp] theorem State.updLaunch_waiters (s : State) (i : Nat) (c : W32) (f : Launch → Launch) : (s.updLaunch i c f).waiters = s.waiters := rfl
@[simp] theorem State.updLaunch_cells (s : State) (i : Nat) (c : W32) (f : Launch → Launch) : (s.updLaunch i c f).cells = s.cells := rfl
@[simp] theorem State.updLaunch_fabric (s : State) (i : Nat) (c : W32) (f : Launch → Launch) : (s.updLaunch i c f).fabric = s.fabric := rfl
@[simp] theorem State.updLaunch_boot (s : State) (i : Nat) (c : W32) (f : Launch → Launch) : (s.updLaunch i c f).boot = s.boot := rfl
@[simp] theorem State.updLaunch_power (s : State) (i : Nat) (c : W32) (f : Launch → Launch) : (s.updLaunch i c f).power = s.power := rfl
@[simp] theorem State.updLaunch_podOff (s : State) (i : Nat) (c : W32) (f : Launch → Launch) : (s.updLaunch i c f).podOff = s.podOff := rfl
@[simp] theorem State.updLaunch_podFrac (s : State) (i : Nat) (c : W32) (f : Launch → Launch) : (s.updLaunch i c f).podFrac = s.podFrac := rfl
@[simp] theorem State.updLaunch_attr (s : State) (i : Nat) (c : W32) (f : Launch → Launch) : (s.updLaunch i c f).attr = s.attr := rfl
@[simp] theorem State.updLaunch_pool (s : State) (i : Nat) (c : W32) (f : Launch → Launch) : (s.updLaunch i c f).pool = s.pool := rfl
@[simp] theorem State.updLaunch_fwAttest (s : State) (i : Nat) (c : W32) (f : Launch → Launch) : (s.updLaunch i c f).fwAttest = s.fwAttest := rfl
@[simp] theorem State.updLaunch_fwroot (s : State) (i : Nat) (c : W32) (f : Launch → Launch) : (s.updLaunch i c f).fwroot = s.fwroot := rfl
@[simp] theorem State.updLaunch_mcerr (s : State) (i : Nat) (c : W32) (f : Launch → Launch) : (s.updLaunch i c f).mcerr = s.mcerr := rfl
@[simp] theorem State.updLaunch_prevec (s : State) (i : Nat) (c : W32) (f : Launch → Launch) : (s.updLaunch i c f).prevec = s.prevec := rfl
@[simp] theorem State.updLaunch_parkedRemote (s : State) (i : Nat) (c : W32) (f : Launch → Launch) : (s.updLaunch i c f).parkedRemote = s.parkedRemote := rfl

@[simp] theorem State.wr_now (s : State) (r : BitVec 5) (v : W64) : (s.wr r v).now = s.now := rfl
@[simp] theorem State.wr_turns (s : State) (r : BitVec 5) (v : W64) : (s.wr r v).turns = s.turns := rfl
@[simp] theorem State.wr_core (s : State) (r : BitVec 5) (v : W64) : (s.wr r v).core = s.core := rfl
@[simp] theorem State.wr_ctx (s : State) (r : BitVec 5) (v : W64) : (s.wr r v).ctx = s.ctx := rfl
@[simp] theorem State.wr_free (s : State) (r : BitVec 5) (v : W64) : (s.wr r v).free = s.free := rfl
@[simp] theorem State.wr_mem (s : State) (r : BitVec 5) (v : W64) : (s.wr r v).mem = s.mem := rfl
@[simp] theorem State.wr_poison (s : State) (r : BitVec 5) (v : W64) : (s.wr r v).poison = s.poison := rfl
@[simp] theorem State.wr_clusters (s : State) (r : BitVec 5) (v : W64) : (s.wr r v).clusters = s.clusters := rfl
@[simp] theorem State.wr_octets (s : State) (r : BitVec 5) (v : W64) : (s.wr r v).octets = s.octets := rfl
@[simp] theorem State.wr_walks (s : State) (r : BitVec 5) (v : W64) : (s.wr r v).walks = s.walks := rfl
@[simp] theorem State.wr_grecvs (s : State) (r : BitVec 5) (v : W64) : (s.wr r v).grecvs = s.grecvs := rfl
@[simp] theorem State.wr_bf (s : State) (r : BitVec 5) (v : W64) : (s.wr r v).bf = s.bf := rfl
@[simp] theorem State.wr_bfWait (s : State) (r : BitVec 5) (v : W64) : (s.wr r v).bfWait = s.bfWait := rfl
@[simp] theorem State.wr_tenants (s : State) (r : BitVec 5) (v : W64) : (s.wr r v).tenants = s.tenants := rfl
@[simp] theorem State.wr_counters (s : State) (r : BitVec 5) (v : W64) : (s.wr r v).counters = s.counters := rfl
@[simp] theorem State.wr_trigOrder (s : State) (r : BitVec 5) (v : W64) : (s.wr r v).trigOrder = s.trigOrder := rfl
@[simp] theorem State.wr_mbox (s : State) (r : BitVec 5) (v : W64) : (s.wr r v).mbox = s.mbox := rfl
@[simp] theorem State.wr_msixOut (s : State) (r : BitVec 5) (v : W64) : (s.wr r v).msixOut = s.msixOut := rfl
@[simp] theorem State.wr_hostAnswers (s : State) (r : BitVec 5) (v : W64) : (s.wr r v).hostAnswers = s.hostAnswers := rfl
@[simp] theorem State.wr_aer (s : State) (r : BitVec 5) (v : W64) : (s.wr r v).aer = s.aer := rfl
@[simp] theorem State.wr_pfMsix (s : State) (r : BitVec 5) (v : W64) : (s.wr r v).pfMsix = s.pfMsix := rfl
@[simp] theorem State.wr_dieLog (s : State) (r : BitVec 5) (v : W64) : (s.wr r v).dieLog = s.dieLog := rfl
@[simp] theorem State.wr_launches (s : State) (r : BitVec 5) (v : W64) : (s.wr r v).launches = s.launches := rfl
@[simp] theorem State.wr_nextCtx (s : State) (r : BitVec 5) (v : W64) : (s.wr r v).nextCtx = s.nextCtx := rfl
@[simp] theorem State.wr_ageus (s : State) (r : BitVec 5) (v : W64) : (s.wr r v).ageus = s.ageus := rfl
@[simp] theorem State.wr_lastTen (s : State) (r : BitVec 5) (v : W64) : (s.wr r v).lastTen = s.lastTen := rfl
@[simp] theorem State.wr_contFlight (s : State) (r : BitVec 5) (v : W64) : (s.wr r v).contFlight = s.contFlight := rfl
@[simp] theorem State.wr_kills (s : State) (r : BitVec 5) (v : W64) : (s.wr r v).kills = s.kills := rfl
@[simp] theorem State.wr_deferred (s : State) (r : BitVec 5) (v : W64) : (s.wr r v).deferred = s.deferred := rfl
@[simp] theorem State.wr_routers (s : State) (r : BitVec 5) (v : W64) : (s.wr r v).routers = s.routers := rfl
@[simp] theorem State.wr_estates (s : State) (r : BitVec 5) (v : W64) : (s.wr r v).estates = s.estates := rfl
@[simp] theorem State.wr_acq (s : State) (r : BitVec 5) (v : W64) : (s.wr r v).acq = s.acq := rfl
@[simp] theorem State.wr_dseq (s : State) (r : BitVec 5) (v : W64) : (s.wr r v).dseq = s.dseq := rfl
@[simp] theorem State.wr_deaths (s : State) (r : BitVec 5) (v : W64) : (s.wr r v).deaths = s.deaths := rfl
@[simp] theorem State.wr_deadGroups (s : State) (r : BitVec 5) (v : W64) : (s.wr r v).deadGroups = s.deadGroups := rfl
@[simp] theorem State.wr_arrivals (s : State) (r : BitVec 5) (v : W64) : (s.wr r v).arrivals = s.arrivals := rfl
@[simp] theorem State.wr_reports (s : State) (r : BitVec 5) (v : W64) : (s.wr r v).reports = s.reports := rfl
@[simp] theorem State.wr_waiters (s : State) (r : BitVec 5) (v : W64) : (s.wr r v).waiters = s.waiters := rfl
@[simp] theorem State.wr_cells (s : State) (r : BitVec 5) (v : W64) : (s.wr r v).cells = s.cells := rfl
@[simp] theorem State.wr_fabric (s : State) (r : BitVec 5) (v : W64) : (s.wr r v).fabric = s.fabric := rfl
@[simp] theorem State.wr_boot (s : State) (r : BitVec 5) (v : W64) : (s.wr r v).boot = s.boot := rfl
@[simp] theorem State.wr_power (s : State) (r : BitVec 5) (v : W64) : (s.wr r v).power = s.power := rfl
@[simp] theorem State.wr_podOff (s : State) (r : BitVec 5) (v : W64) : (s.wr r v).podOff = s.podOff := rfl
@[simp] theorem State.wr_podFrac (s : State) (r : BitVec 5) (v : W64) : (s.wr r v).podFrac = s.podFrac := rfl
@[simp] theorem State.wr_attr (s : State) (r : BitVec 5) (v : W64) : (s.wr r v).attr = s.attr := rfl
@[simp] theorem State.wr_pool (s : State) (r : BitVec 5) (v : W64) : (s.wr r v).pool = s.pool := rfl
@[simp] theorem State.wr_fwAttest (s : State) (r : BitVec 5) (v : W64) : (s.wr r v).fwAttest = s.fwAttest := rfl
@[simp] theorem State.wr_fwroot (s : State) (r : BitVec 5) (v : W64) : (s.wr r v).fwroot = s.fwroot := rfl
@[simp] theorem State.wr_mcerr (s : State) (r : BitVec 5) (v : W64) : (s.wr r v).mcerr = s.mcerr := rfl
@[simp] theorem State.wr_prevec (s : State) (r : BitVec 5) (v : W64) : (s.wr r v).prevec = s.prevec := rfl
@[simp] theorem State.wr_parkedRemote (s : State) (r : BitVec 5) (v : W64) : (s.wr r v).parkedRemote = s.parkedRemote := rfl

@[simp] theorem State.goto_now (s : State) (p : W64) : (s.goto p).now = s.now := rfl
@[simp] theorem State.goto_turns (s : State) (p : W64) : (s.goto p).turns = s.turns := rfl
@[simp] theorem State.goto_core (s : State) (p : W64) : (s.goto p).core = s.core := rfl
@[simp] theorem State.goto_ctx (s : State) (p : W64) : (s.goto p).ctx = s.ctx := rfl
@[simp] theorem State.goto_free (s : State) (p : W64) : (s.goto p).free = s.free := rfl
@[simp] theorem State.goto_mem (s : State) (p : W64) : (s.goto p).mem = s.mem := rfl
@[simp] theorem State.goto_poison (s : State) (p : W64) : (s.goto p).poison = s.poison := rfl
@[simp] theorem State.goto_clusters (s : State) (p : W64) : (s.goto p).clusters = s.clusters := rfl
@[simp] theorem State.goto_octets (s : State) (p : W64) : (s.goto p).octets = s.octets := rfl
@[simp] theorem State.goto_walks (s : State) (p : W64) : (s.goto p).walks = s.walks := rfl
@[simp] theorem State.goto_grecvs (s : State) (p : W64) : (s.goto p).grecvs = s.grecvs := rfl
@[simp] theorem State.goto_bf (s : State) (p : W64) : (s.goto p).bf = s.bf := rfl
@[simp] theorem State.goto_bfWait (s : State) (p : W64) : (s.goto p).bfWait = s.bfWait := rfl
@[simp] theorem State.goto_tenants (s : State) (p : W64) : (s.goto p).tenants = s.tenants := rfl
@[simp] theorem State.goto_counters (s : State) (p : W64) : (s.goto p).counters = s.counters := rfl
@[simp] theorem State.goto_trigOrder (s : State) (p : W64) : (s.goto p).trigOrder = s.trigOrder := rfl
@[simp] theorem State.goto_mbox (s : State) (p : W64) : (s.goto p).mbox = s.mbox := rfl
@[simp] theorem State.goto_msixOut (s : State) (p : W64) : (s.goto p).msixOut = s.msixOut := rfl
@[simp] theorem State.goto_hostAnswers (s : State) (p : W64) : (s.goto p).hostAnswers = s.hostAnswers := rfl
@[simp] theorem State.goto_aer (s : State) (p : W64) : (s.goto p).aer = s.aer := rfl
@[simp] theorem State.goto_pfMsix (s : State) (p : W64) : (s.goto p).pfMsix = s.pfMsix := rfl
@[simp] theorem State.goto_dieLog (s : State) (p : W64) : (s.goto p).dieLog = s.dieLog := rfl
@[simp] theorem State.goto_launches (s : State) (p : W64) : (s.goto p).launches = s.launches := rfl
@[simp] theorem State.goto_nextCtx (s : State) (p : W64) : (s.goto p).nextCtx = s.nextCtx := rfl
@[simp] theorem State.goto_ageus (s : State) (p : W64) : (s.goto p).ageus = s.ageus := rfl
@[simp] theorem State.goto_lastTen (s : State) (p : W64) : (s.goto p).lastTen = s.lastTen := rfl
@[simp] theorem State.goto_contFlight (s : State) (p : W64) : (s.goto p).contFlight = s.contFlight := rfl
@[simp] theorem State.goto_kills (s : State) (p : W64) : (s.goto p).kills = s.kills := rfl
@[simp] theorem State.goto_deferred (s : State) (p : W64) : (s.goto p).deferred = s.deferred := rfl
@[simp] theorem State.goto_routers (s : State) (p : W64) : (s.goto p).routers = s.routers := rfl
@[simp] theorem State.goto_estates (s : State) (p : W64) : (s.goto p).estates = s.estates := rfl
@[simp] theorem State.goto_acq (s : State) (p : W64) : (s.goto p).acq = s.acq := rfl
@[simp] theorem State.goto_dseq (s : State) (p : W64) : (s.goto p).dseq = s.dseq := rfl
@[simp] theorem State.goto_deaths (s : State) (p : W64) : (s.goto p).deaths = s.deaths := rfl
@[simp] theorem State.goto_deadGroups (s : State) (p : W64) : (s.goto p).deadGroups = s.deadGroups := rfl
@[simp] theorem State.goto_arrivals (s : State) (p : W64) : (s.goto p).arrivals = s.arrivals := rfl
@[simp] theorem State.goto_reports (s : State) (p : W64) : (s.goto p).reports = s.reports := rfl
@[simp] theorem State.goto_waiters (s : State) (p : W64) : (s.goto p).waiters = s.waiters := rfl
@[simp] theorem State.goto_cells (s : State) (p : W64) : (s.goto p).cells = s.cells := rfl
@[simp] theorem State.goto_fabric (s : State) (p : W64) : (s.goto p).fabric = s.fabric := rfl
@[simp] theorem State.goto_boot (s : State) (p : W64) : (s.goto p).boot = s.boot := rfl
@[simp] theorem State.goto_power (s : State) (p : W64) : (s.goto p).power = s.power := rfl
@[simp] theorem State.goto_podOff (s : State) (p : W64) : (s.goto p).podOff = s.podOff := rfl
@[simp] theorem State.goto_podFrac (s : State) (p : W64) : (s.goto p).podFrac = s.podFrac := rfl
@[simp] theorem State.goto_attr (s : State) (p : W64) : (s.goto p).attr = s.attr := rfl
@[simp] theorem State.goto_pool (s : State) (p : W64) : (s.goto p).pool = s.pool := rfl
@[simp] theorem State.goto_fwAttest (s : State) (p : W64) : (s.goto p).fwAttest = s.fwAttest := rfl
@[simp] theorem State.goto_fwroot (s : State) (p : W64) : (s.goto p).fwroot = s.fwroot := rfl
@[simp] theorem State.goto_mcerr (s : State) (p : W64) : (s.goto p).mcerr = s.mcerr := rfl
@[simp] theorem State.goto_prevec (s : State) (p : W64) : (s.goto p).prevec = s.prevec := rfl
@[simp] theorem State.goto_parkedRemote (s : State) (p : W64) : (s.goto p).parkedRemote = s.parkedRemote := rfl

@[simp] theorem State.pokeN_now (s : State) (k : Nat) (l : List Byte) : (s.pokeN k l).now = s.now := rfl
@[simp] theorem State.pokeN_turns (s : State) (k : Nat) (l : List Byte) : (s.pokeN k l).turns = s.turns := rfl
@[simp] theorem State.pokeN_core (s : State) (k : Nat) (l : List Byte) : (s.pokeN k l).core = s.core := rfl
@[simp] theorem State.pokeN_ctx (s : State) (k : Nat) (l : List Byte) : (s.pokeN k l).ctx = s.ctx := rfl
@[simp] theorem State.pokeN_free (s : State) (k : Nat) (l : List Byte) : (s.pokeN k l).free = s.free := rfl
@[simp] theorem State.pokeN_cores (s : State) (k : Nat) (l : List Byte) : (s.pokeN k l).cores = s.cores := rfl
@[simp] theorem State.pokeN_clusters (s : State) (k : Nat) (l : List Byte) : (s.pokeN k l).clusters = s.clusters := rfl
@[simp] theorem State.pokeN_octets (s : State) (k : Nat) (l : List Byte) : (s.pokeN k l).octets = s.octets := rfl
@[simp] theorem State.pokeN_walks (s : State) (k : Nat) (l : List Byte) : (s.pokeN k l).walks = s.walks := rfl
@[simp] theorem State.pokeN_grecvs (s : State) (k : Nat) (l : List Byte) : (s.pokeN k l).grecvs = s.grecvs := rfl
@[simp] theorem State.pokeN_bf (s : State) (k : Nat) (l : List Byte) : (s.pokeN k l).bf = s.bf := rfl
@[simp] theorem State.pokeN_bfWait (s : State) (k : Nat) (l : List Byte) : (s.pokeN k l).bfWait = s.bfWait := rfl
@[simp] theorem State.pokeN_tenants (s : State) (k : Nat) (l : List Byte) : (s.pokeN k l).tenants = s.tenants := rfl
@[simp] theorem State.pokeN_counters (s : State) (k : Nat) (l : List Byte) : (s.pokeN k l).counters = s.counters := rfl
@[simp] theorem State.pokeN_trigOrder (s : State) (k : Nat) (l : List Byte) : (s.pokeN k l).trigOrder = s.trigOrder := rfl
@[simp] theorem State.pokeN_mbox (s : State) (k : Nat) (l : List Byte) : (s.pokeN k l).mbox = s.mbox := rfl
@[simp] theorem State.pokeN_msixOut (s : State) (k : Nat) (l : List Byte) : (s.pokeN k l).msixOut = s.msixOut := rfl
@[simp] theorem State.pokeN_hostAnswers (s : State) (k : Nat) (l : List Byte) : (s.pokeN k l).hostAnswers = s.hostAnswers := rfl
@[simp] theorem State.pokeN_aer (s : State) (k : Nat) (l : List Byte) : (s.pokeN k l).aer = s.aer := rfl
@[simp] theorem State.pokeN_pfMsix (s : State) (k : Nat) (l : List Byte) : (s.pokeN k l).pfMsix = s.pfMsix := rfl
@[simp] theorem State.pokeN_dieLog (s : State) (k : Nat) (l : List Byte) : (s.pokeN k l).dieLog = s.dieLog := rfl
@[simp] theorem State.pokeN_launches (s : State) (k : Nat) (l : List Byte) : (s.pokeN k l).launches = s.launches := rfl
@[simp] theorem State.pokeN_nextCtx (s : State) (k : Nat) (l : List Byte) : (s.pokeN k l).nextCtx = s.nextCtx := rfl
@[simp] theorem State.pokeN_ageus (s : State) (k : Nat) (l : List Byte) : (s.pokeN k l).ageus = s.ageus := rfl
@[simp] theorem State.pokeN_lastTen (s : State) (k : Nat) (l : List Byte) : (s.pokeN k l).lastTen = s.lastTen := rfl
@[simp] theorem State.pokeN_contFlight (s : State) (k : Nat) (l : List Byte) : (s.pokeN k l).contFlight = s.contFlight := rfl
@[simp] theorem State.pokeN_kills (s : State) (k : Nat) (l : List Byte) : (s.pokeN k l).kills = s.kills := rfl
@[simp] theorem State.pokeN_deferred (s : State) (k : Nat) (l : List Byte) : (s.pokeN k l).deferred = s.deferred := rfl
@[simp] theorem State.pokeN_routers (s : State) (k : Nat) (l : List Byte) : (s.pokeN k l).routers = s.routers := rfl
@[simp] theorem State.pokeN_estates (s : State) (k : Nat) (l : List Byte) : (s.pokeN k l).estates = s.estates := rfl
@[simp] theorem State.pokeN_acq (s : State) (k : Nat) (l : List Byte) : (s.pokeN k l).acq = s.acq := rfl
@[simp] theorem State.pokeN_dseq (s : State) (k : Nat) (l : List Byte) : (s.pokeN k l).dseq = s.dseq := rfl
@[simp] theorem State.pokeN_deaths (s : State) (k : Nat) (l : List Byte) : (s.pokeN k l).deaths = s.deaths := rfl
@[simp] theorem State.pokeN_deadGroups (s : State) (k : Nat) (l : List Byte) : (s.pokeN k l).deadGroups = s.deadGroups := rfl
@[simp] theorem State.pokeN_arrivals (s : State) (k : Nat) (l : List Byte) : (s.pokeN k l).arrivals = s.arrivals := rfl
@[simp] theorem State.pokeN_reports (s : State) (k : Nat) (l : List Byte) : (s.pokeN k l).reports = s.reports := rfl
@[simp] theorem State.pokeN_waiters (s : State) (k : Nat) (l : List Byte) : (s.pokeN k l).waiters = s.waiters := rfl
@[simp] theorem State.pokeN_cells (s : State) (k : Nat) (l : List Byte) : (s.pokeN k l).cells = s.cells := rfl
@[simp] theorem State.pokeN_fabric (s : State) (k : Nat) (l : List Byte) : (s.pokeN k l).fabric = s.fabric := rfl
@[simp] theorem State.pokeN_boot (s : State) (k : Nat) (l : List Byte) : (s.pokeN k l).boot = s.boot := rfl
@[simp] theorem State.pokeN_power (s : State) (k : Nat) (l : List Byte) : (s.pokeN k l).power = s.power := rfl
@[simp] theorem State.pokeN_podOff (s : State) (k : Nat) (l : List Byte) : (s.pokeN k l).podOff = s.podOff := rfl
@[simp] theorem State.pokeN_podFrac (s : State) (k : Nat) (l : List Byte) : (s.pokeN k l).podFrac = s.podFrac := rfl
@[simp] theorem State.pokeN_attr (s : State) (k : Nat) (l : List Byte) : (s.pokeN k l).attr = s.attr := rfl
@[simp] theorem State.pokeN_pool (s : State) (k : Nat) (l : List Byte) : (s.pokeN k l).pool = s.pool := rfl
@[simp] theorem State.pokeN_fwAttest (s : State) (k : Nat) (l : List Byte) : (s.pokeN k l).fwAttest = s.fwAttest := rfl
@[simp] theorem State.pokeN_fwroot (s : State) (k : Nat) (l : List Byte) : (s.pokeN k l).fwroot = s.fwroot := rfl
@[simp] theorem State.pokeN_mcerr (s : State) (k : Nat) (l : List Byte) : (s.pokeN k l).mcerr = s.mcerr := rfl
@[simp] theorem State.pokeN_prevec (s : State) (k : Nat) (l : List Byte) : (s.pokeN k l).prevec = s.prevec := rfl
@[simp] theorem State.pokeN_parkedRemote (s : State) (k : Nat) (l : List Byte) : (s.pokeN k l).parkedRemote = s.parkedRemote := rfl

@[simp] theorem State.zero_now (s : State) (k n : Nat) : (s.zero k n).now = s.now := rfl
@[simp] theorem State.zero_turns (s : State) (k n : Nat) : (s.zero k n).turns = s.turns := rfl
@[simp] theorem State.zero_core (s : State) (k n : Nat) : (s.zero k n).core = s.core := rfl
@[simp] theorem State.zero_ctx (s : State) (k n : Nat) : (s.zero k n).ctx = s.ctx := rfl
@[simp] theorem State.zero_free (s : State) (k n : Nat) : (s.zero k n).free = s.free := rfl
@[simp] theorem State.zero_cores (s : State) (k n : Nat) : (s.zero k n).cores = s.cores := rfl
@[simp] theorem State.zero_clusters (s : State) (k n : Nat) : (s.zero k n).clusters = s.clusters := rfl
@[simp] theorem State.zero_octets (s : State) (k n : Nat) : (s.zero k n).octets = s.octets := rfl
@[simp] theorem State.zero_walks (s : State) (k n : Nat) : (s.zero k n).walks = s.walks := rfl
@[simp] theorem State.zero_grecvs (s : State) (k n : Nat) : (s.zero k n).grecvs = s.grecvs := rfl
@[simp] theorem State.zero_bf (s : State) (k n : Nat) : (s.zero k n).bf = s.bf := rfl
@[simp] theorem State.zero_bfWait (s : State) (k n : Nat) : (s.zero k n).bfWait = s.bfWait := rfl
@[simp] theorem State.zero_tenants (s : State) (k n : Nat) : (s.zero k n).tenants = s.tenants := rfl
@[simp] theorem State.zero_counters (s : State) (k n : Nat) : (s.zero k n).counters = s.counters := rfl
@[simp] theorem State.zero_trigOrder (s : State) (k n : Nat) : (s.zero k n).trigOrder = s.trigOrder := rfl
@[simp] theorem State.zero_mbox (s : State) (k n : Nat) : (s.zero k n).mbox = s.mbox := rfl
@[simp] theorem State.zero_msixOut (s : State) (k n : Nat) : (s.zero k n).msixOut = s.msixOut := rfl
@[simp] theorem State.zero_hostAnswers (s : State) (k n : Nat) : (s.zero k n).hostAnswers = s.hostAnswers := rfl
@[simp] theorem State.zero_aer (s : State) (k n : Nat) : (s.zero k n).aer = s.aer := rfl
@[simp] theorem State.zero_pfMsix (s : State) (k n : Nat) : (s.zero k n).pfMsix = s.pfMsix := rfl
@[simp] theorem State.zero_dieLog (s : State) (k n : Nat) : (s.zero k n).dieLog = s.dieLog := rfl
@[simp] theorem State.zero_launches (s : State) (k n : Nat) : (s.zero k n).launches = s.launches := rfl
@[simp] theorem State.zero_nextCtx (s : State) (k n : Nat) : (s.zero k n).nextCtx = s.nextCtx := rfl
@[simp] theorem State.zero_ageus (s : State) (k n : Nat) : (s.zero k n).ageus = s.ageus := rfl
@[simp] theorem State.zero_lastTen (s : State) (k n : Nat) : (s.zero k n).lastTen = s.lastTen := rfl
@[simp] theorem State.zero_contFlight (s : State) (k n : Nat) : (s.zero k n).contFlight = s.contFlight := rfl
@[simp] theorem State.zero_kills (s : State) (k n : Nat) : (s.zero k n).kills = s.kills := rfl
@[simp] theorem State.zero_deferred (s : State) (k n : Nat) : (s.zero k n).deferred = s.deferred := rfl
@[simp] theorem State.zero_routers (s : State) (k n : Nat) : (s.zero k n).routers = s.routers := rfl
@[simp] theorem State.zero_estates (s : State) (k n : Nat) : (s.zero k n).estates = s.estates := rfl
@[simp] theorem State.zero_acq (s : State) (k n : Nat) : (s.zero k n).acq = s.acq := rfl
@[simp] theorem State.zero_dseq (s : State) (k n : Nat) : (s.zero k n).dseq = s.dseq := rfl
@[simp] theorem State.zero_deaths (s : State) (k n : Nat) : (s.zero k n).deaths = s.deaths := rfl
@[simp] theorem State.zero_deadGroups (s : State) (k n : Nat) : (s.zero k n).deadGroups = s.deadGroups := rfl
@[simp] theorem State.zero_arrivals (s : State) (k n : Nat) : (s.zero k n).arrivals = s.arrivals := rfl
@[simp] theorem State.zero_reports (s : State) (k n : Nat) : (s.zero k n).reports = s.reports := rfl
@[simp] theorem State.zero_waiters (s : State) (k n : Nat) : (s.zero k n).waiters = s.waiters := rfl
@[simp] theorem State.zero_cells (s : State) (k n : Nat) : (s.zero k n).cells = s.cells := rfl
@[simp] theorem State.zero_fabric (s : State) (k n : Nat) : (s.zero k n).fabric = s.fabric := rfl
@[simp] theorem State.zero_boot (s : State) (k n : Nat) : (s.zero k n).boot = s.boot := rfl
@[simp] theorem State.zero_power (s : State) (k n : Nat) : (s.zero k n).power = s.power := rfl
@[simp] theorem State.zero_podOff (s : State) (k n : Nat) : (s.zero k n).podOff = s.podOff := rfl
@[simp] theorem State.zero_podFrac (s : State) (k n : Nat) : (s.zero k n).podFrac = s.podFrac := rfl
@[simp] theorem State.zero_attr (s : State) (k n : Nat) : (s.zero k n).attr = s.attr := rfl
@[simp] theorem State.zero_pool (s : State) (k n : Nat) : (s.zero k n).pool = s.pool := rfl
@[simp] theorem State.zero_fwAttest (s : State) (k n : Nat) : (s.zero k n).fwAttest = s.fwAttest := rfl
@[simp] theorem State.zero_fwroot (s : State) (k n : Nat) : (s.zero k n).fwroot = s.fwroot := rfl
@[simp] theorem State.zero_mcerr (s : State) (k n : Nat) : (s.zero k n).mcerr = s.mcerr := rfl
@[simp] theorem State.zero_prevec (s : State) (k n : Nat) : (s.zero k n).prevec = s.prevec := rfl
@[simp] theorem State.zero_parkedRemote (s : State) (k n : Nat) : (s.zero k n).parkedRemote = s.parkedRemote := rfl

@[simp] theorem State.pokeLe_now (s : State) (k n v : Nat) : (s.pokeLe k n v).now = s.now := rfl
@[simp] theorem State.pokeLe_turns (s : State) (k n v : Nat) : (s.pokeLe k n v).turns = s.turns := rfl
@[simp] theorem State.pokeLe_core (s : State) (k n v : Nat) : (s.pokeLe k n v).core = s.core := rfl
@[simp] theorem State.pokeLe_ctx (s : State) (k n v : Nat) : (s.pokeLe k n v).ctx = s.ctx := rfl
@[simp] theorem State.pokeLe_free (s : State) (k n v : Nat) : (s.pokeLe k n v).free = s.free := rfl
@[simp] theorem State.pokeLe_cores (s : State) (k n v : Nat) : (s.pokeLe k n v).cores = s.cores := rfl
@[simp] theorem State.pokeLe_clusters (s : State) (k n v : Nat) : (s.pokeLe k n v).clusters = s.clusters := rfl
@[simp] theorem State.pokeLe_octets (s : State) (k n v : Nat) : (s.pokeLe k n v).octets = s.octets := rfl
@[simp] theorem State.pokeLe_walks (s : State) (k n v : Nat) : (s.pokeLe k n v).walks = s.walks := rfl
@[simp] theorem State.pokeLe_grecvs (s : State) (k n v : Nat) : (s.pokeLe k n v).grecvs = s.grecvs := rfl
@[simp] theorem State.pokeLe_bf (s : State) (k n v : Nat) : (s.pokeLe k n v).bf = s.bf := rfl
@[simp] theorem State.pokeLe_bfWait (s : State) (k n v : Nat) : (s.pokeLe k n v).bfWait = s.bfWait := rfl
@[simp] theorem State.pokeLe_tenants (s : State) (k n v : Nat) : (s.pokeLe k n v).tenants = s.tenants := rfl
@[simp] theorem State.pokeLe_counters (s : State) (k n v : Nat) : (s.pokeLe k n v).counters = s.counters := rfl
@[simp] theorem State.pokeLe_trigOrder (s : State) (k n v : Nat) : (s.pokeLe k n v).trigOrder = s.trigOrder := rfl
@[simp] theorem State.pokeLe_mbox (s : State) (k n v : Nat) : (s.pokeLe k n v).mbox = s.mbox := rfl
@[simp] theorem State.pokeLe_msixOut (s : State) (k n v : Nat) : (s.pokeLe k n v).msixOut = s.msixOut := rfl
@[simp] theorem State.pokeLe_hostAnswers (s : State) (k n v : Nat) : (s.pokeLe k n v).hostAnswers = s.hostAnswers := rfl
@[simp] theorem State.pokeLe_aer (s : State) (k n v : Nat) : (s.pokeLe k n v).aer = s.aer := rfl
@[simp] theorem State.pokeLe_pfMsix (s : State) (k n v : Nat) : (s.pokeLe k n v).pfMsix = s.pfMsix := rfl
@[simp] theorem State.pokeLe_dieLog (s : State) (k n v : Nat) : (s.pokeLe k n v).dieLog = s.dieLog := rfl
@[simp] theorem State.pokeLe_launches (s : State) (k n v : Nat) : (s.pokeLe k n v).launches = s.launches := rfl
@[simp] theorem State.pokeLe_nextCtx (s : State) (k n v : Nat) : (s.pokeLe k n v).nextCtx = s.nextCtx := rfl
@[simp] theorem State.pokeLe_ageus (s : State) (k n v : Nat) : (s.pokeLe k n v).ageus = s.ageus := rfl
@[simp] theorem State.pokeLe_lastTen (s : State) (k n v : Nat) : (s.pokeLe k n v).lastTen = s.lastTen := rfl
@[simp] theorem State.pokeLe_contFlight (s : State) (k n v : Nat) : (s.pokeLe k n v).contFlight = s.contFlight := rfl
@[simp] theorem State.pokeLe_kills (s : State) (k n v : Nat) : (s.pokeLe k n v).kills = s.kills := rfl
@[simp] theorem State.pokeLe_deferred (s : State) (k n v : Nat) : (s.pokeLe k n v).deferred = s.deferred := rfl
@[simp] theorem State.pokeLe_routers (s : State) (k n v : Nat) : (s.pokeLe k n v).routers = s.routers := rfl
@[simp] theorem State.pokeLe_estates (s : State) (k n v : Nat) : (s.pokeLe k n v).estates = s.estates := rfl
@[simp] theorem State.pokeLe_acq (s : State) (k n v : Nat) : (s.pokeLe k n v).acq = s.acq := rfl
@[simp] theorem State.pokeLe_dseq (s : State) (k n v : Nat) : (s.pokeLe k n v).dseq = s.dseq := rfl
@[simp] theorem State.pokeLe_deaths (s : State) (k n v : Nat) : (s.pokeLe k n v).deaths = s.deaths := rfl
@[simp] theorem State.pokeLe_deadGroups (s : State) (k n v : Nat) : (s.pokeLe k n v).deadGroups = s.deadGroups := rfl
@[simp] theorem State.pokeLe_arrivals (s : State) (k n v : Nat) : (s.pokeLe k n v).arrivals = s.arrivals := rfl
@[simp] theorem State.pokeLe_reports (s : State) (k n v : Nat) : (s.pokeLe k n v).reports = s.reports := rfl
@[simp] theorem State.pokeLe_waiters (s : State) (k n v : Nat) : (s.pokeLe k n v).waiters = s.waiters := rfl
@[simp] theorem State.pokeLe_cells (s : State) (k n v : Nat) : (s.pokeLe k n v).cells = s.cells := rfl
@[simp] theorem State.pokeLe_fabric (s : State) (k n v : Nat) : (s.pokeLe k n v).fabric = s.fabric := rfl
@[simp] theorem State.pokeLe_boot (s : State) (k n v : Nat) : (s.pokeLe k n v).boot = s.boot := rfl
@[simp] theorem State.pokeLe_power (s : State) (k n v : Nat) : (s.pokeLe k n v).power = s.power := rfl
@[simp] theorem State.pokeLe_podOff (s : State) (k n v : Nat) : (s.pokeLe k n v).podOff = s.podOff := rfl
@[simp] theorem State.pokeLe_podFrac (s : State) (k n v : Nat) : (s.pokeLe k n v).podFrac = s.podFrac := rfl
@[simp] theorem State.pokeLe_attr (s : State) (k n v : Nat) : (s.pokeLe k n v).attr = s.attr := rfl
@[simp] theorem State.pokeLe_pool (s : State) (k n v : Nat) : (s.pokeLe k n v).pool = s.pool := rfl
@[simp] theorem State.pokeLe_fwAttest (s : State) (k n v : Nat) : (s.pokeLe k n v).fwAttest = s.fwAttest := rfl
@[simp] theorem State.pokeLe_fwroot (s : State) (k n v : Nat) : (s.pokeLe k n v).fwroot = s.fwroot := rfl
@[simp] theorem State.pokeLe_mcerr (s : State) (k n v : Nat) : (s.pokeLe k n v).mcerr = s.mcerr := rfl
@[simp] theorem State.pokeLe_prevec (s : State) (k n v : Nat) : (s.pokeLe k n v).prevec = s.prevec := rfl
@[simp] theorem State.pokeLe_parkedRemote (s : State) (k n v : Nat) : (s.pokeLe k n v).parkedRemote = s.parkedRemote := rfl

@[simp] theorem State.at_now (s : State) (c x : Nat) : (s.at c x).now = s.now := rfl
@[simp] theorem State.at_turns (s : State) (c x : Nat) : (s.at c x).turns = s.turns := rfl
@[simp] theorem State.at_free (s : State) (c x : Nat) : (s.at c x).free = s.free := rfl
@[simp] theorem State.at_mem (s : State) (c x : Nat) : (s.at c x).mem = s.mem := rfl
@[simp] theorem State.at_poison (s : State) (c x : Nat) : (s.at c x).poison = s.poison := rfl
@[simp] theorem State.at_cores (s : State) (c x : Nat) : (s.at c x).cores = s.cores := rfl
@[simp] theorem State.at_clusters (s : State) (c x : Nat) : (s.at c x).clusters = s.clusters := rfl
@[simp] theorem State.at_octets (s : State) (c x : Nat) : (s.at c x).octets = s.octets := rfl
@[simp] theorem State.at_walks (s : State) (c x : Nat) : (s.at c x).walks = s.walks := rfl
@[simp] theorem State.at_grecvs (s : State) (c x : Nat) : (s.at c x).grecvs = s.grecvs := rfl
@[simp] theorem State.at_bf (s : State) (c x : Nat) : (s.at c x).bf = s.bf := rfl
@[simp] theorem State.at_bfWait (s : State) (c x : Nat) : (s.at c x).bfWait = s.bfWait := rfl
@[simp] theorem State.at_tenants (s : State) (c x : Nat) : (s.at c x).tenants = s.tenants := rfl
@[simp] theorem State.at_counters (s : State) (c x : Nat) : (s.at c x).counters = s.counters := rfl
@[simp] theorem State.at_trigOrder (s : State) (c x : Nat) : (s.at c x).trigOrder = s.trigOrder := rfl
@[simp] theorem State.at_mbox (s : State) (c x : Nat) : (s.at c x).mbox = s.mbox := rfl
@[simp] theorem State.at_msixOut (s : State) (c x : Nat) : (s.at c x).msixOut = s.msixOut := rfl
@[simp] theorem State.at_hostAnswers (s : State) (c x : Nat) : (s.at c x).hostAnswers = s.hostAnswers := rfl
@[simp] theorem State.at_aer (s : State) (c x : Nat) : (s.at c x).aer = s.aer := rfl
@[simp] theorem State.at_pfMsix (s : State) (c x : Nat) : (s.at c x).pfMsix = s.pfMsix := rfl
@[simp] theorem State.at_dieLog (s : State) (c x : Nat) : (s.at c x).dieLog = s.dieLog := rfl
@[simp] theorem State.at_launches (s : State) (c x : Nat) : (s.at c x).launches = s.launches := rfl
@[simp] theorem State.at_nextCtx (s : State) (c x : Nat) : (s.at c x).nextCtx = s.nextCtx := rfl
@[simp] theorem State.at_ageus (s : State) (c x : Nat) : (s.at c x).ageus = s.ageus := rfl
@[simp] theorem State.at_lastTen (s : State) (c x : Nat) : (s.at c x).lastTen = s.lastTen := rfl
@[simp] theorem State.at_contFlight (s : State) (c x : Nat) : (s.at c x).contFlight = s.contFlight := rfl
@[simp] theorem State.at_kills (s : State) (c x : Nat) : (s.at c x).kills = s.kills := rfl
@[simp] theorem State.at_deferred (s : State) (c x : Nat) : (s.at c x).deferred = s.deferred := rfl
@[simp] theorem State.at_routers (s : State) (c x : Nat) : (s.at c x).routers = s.routers := rfl
@[simp] theorem State.at_estates (s : State) (c x : Nat) : (s.at c x).estates = s.estates := rfl
@[simp] theorem State.at_acq (s : State) (c x : Nat) : (s.at c x).acq = s.acq := rfl
@[simp] theorem State.at_dseq (s : State) (c x : Nat) : (s.at c x).dseq = s.dseq := rfl
@[simp] theorem State.at_deaths (s : State) (c x : Nat) : (s.at c x).deaths = s.deaths := rfl
@[simp] theorem State.at_deadGroups (s : State) (c x : Nat) : (s.at c x).deadGroups = s.deadGroups := rfl
@[simp] theorem State.at_arrivals (s : State) (c x : Nat) : (s.at c x).arrivals = s.arrivals := rfl
@[simp] theorem State.at_reports (s : State) (c x : Nat) : (s.at c x).reports = s.reports := rfl
@[simp] theorem State.at_waiters (s : State) (c x : Nat) : (s.at c x).waiters = s.waiters := rfl
@[simp] theorem State.at_cells (s : State) (c x : Nat) : (s.at c x).cells = s.cells := rfl
@[simp] theorem State.at_fabric (s : State) (c x : Nat) : (s.at c x).fabric = s.fabric := rfl
@[simp] theorem State.at_boot (s : State) (c x : Nat) : (s.at c x).boot = s.boot := rfl
@[simp] theorem State.at_power (s : State) (c x : Nat) : (s.at c x).power = s.power := rfl
@[simp] theorem State.at_podOff (s : State) (c x : Nat) : (s.at c x).podOff = s.podOff := rfl
@[simp] theorem State.at_podFrac (s : State) (c x : Nat) : (s.at c x).podFrac = s.podFrac := rfl
@[simp] theorem State.at_attr (s : State) (c x : Nat) : (s.at c x).attr = s.attr := rfl
@[simp] theorem State.at_pool (s : State) (c x : Nat) : (s.at c x).pool = s.pool := rfl
@[simp] theorem State.at_fwAttest (s : State) (c x : Nat) : (s.at c x).fwAttest = s.fwAttest := rfl
@[simp] theorem State.at_fwroot (s : State) (c x : Nat) : (s.at c x).fwroot = s.fwroot := rfl
@[simp] theorem State.at_mcerr (s : State) (c x : Nat) : (s.at c x).mcerr = s.mcerr := rfl
@[simp] theorem State.at_prevec (s : State) (c x : Nat) : (s.at c x).prevec = s.prevec := rfl
@[simp] theorem State.at_parkedRemote (s : State) (c x : Nat) : (s.at c x).parkedRemote = s.parkedRemote := rfl

@[simp] theorem State.setFabric_now (s : State) (f : Fabric) : (s.setFabric f).now = s.now := rfl
@[simp] theorem State.setFabric_turns (s : State) (f : Fabric) : (s.setFabric f).turns = s.turns := rfl
@[simp] theorem State.setFabric_core (s : State) (f : Fabric) : (s.setFabric f).core = s.core := rfl
@[simp] theorem State.setFabric_ctx (s : State) (f : Fabric) : (s.setFabric f).ctx = s.ctx := rfl
@[simp] theorem State.setFabric_free (s : State) (f : Fabric) : (s.setFabric f).free = s.free := rfl
@[simp] theorem State.setFabric_mem (s : State) (f : Fabric) : (s.setFabric f).mem = s.mem := rfl
@[simp] theorem State.setFabric_poison (s : State) (f : Fabric) : (s.setFabric f).poison = s.poison := rfl
@[simp] theorem State.setFabric_cores (s : State) (f : Fabric) : (s.setFabric f).cores = s.cores := rfl
@[simp] theorem State.setFabric_clusters (s : State) (f : Fabric) : (s.setFabric f).clusters = s.clusters := rfl
@[simp] theorem State.setFabric_octets (s : State) (f : Fabric) : (s.setFabric f).octets = s.octets := rfl
@[simp] theorem State.setFabric_walks (s : State) (f : Fabric) : (s.setFabric f).walks = s.walks := rfl
@[simp] theorem State.setFabric_grecvs (s : State) (f : Fabric) : (s.setFabric f).grecvs = s.grecvs := rfl
@[simp] theorem State.setFabric_bf (s : State) (f : Fabric) : (s.setFabric f).bf = s.bf := rfl
@[simp] theorem State.setFabric_bfWait (s : State) (f : Fabric) : (s.setFabric f).bfWait = s.bfWait := rfl
@[simp] theorem State.setFabric_tenants (s : State) (f : Fabric) : (s.setFabric f).tenants = s.tenants := rfl
@[simp] theorem State.setFabric_counters (s : State) (f : Fabric) : (s.setFabric f).counters = s.counters := rfl
@[simp] theorem State.setFabric_trigOrder (s : State) (f : Fabric) : (s.setFabric f).trigOrder = s.trigOrder := rfl
@[simp] theorem State.setFabric_mbox (s : State) (f : Fabric) : (s.setFabric f).mbox = s.mbox := rfl
@[simp] theorem State.setFabric_msixOut (s : State) (f : Fabric) : (s.setFabric f).msixOut = s.msixOut := rfl
@[simp] theorem State.setFabric_hostAnswers (s : State) (f : Fabric) : (s.setFabric f).hostAnswers = s.hostAnswers := rfl
@[simp] theorem State.setFabric_aer (s : State) (f : Fabric) : (s.setFabric f).aer = s.aer := rfl
@[simp] theorem State.setFabric_pfMsix (s : State) (f : Fabric) : (s.setFabric f).pfMsix = s.pfMsix := rfl
@[simp] theorem State.setFabric_dieLog (s : State) (f : Fabric) : (s.setFabric f).dieLog = s.dieLog := rfl
@[simp] theorem State.setFabric_launches (s : State) (f : Fabric) : (s.setFabric f).launches = s.launches := rfl
@[simp] theorem State.setFabric_nextCtx (s : State) (f : Fabric) : (s.setFabric f).nextCtx = s.nextCtx := rfl
@[simp] theorem State.setFabric_ageus (s : State) (f : Fabric) : (s.setFabric f).ageus = s.ageus := rfl
@[simp] theorem State.setFabric_lastTen (s : State) (f : Fabric) : (s.setFabric f).lastTen = s.lastTen := rfl
@[simp] theorem State.setFabric_contFlight (s : State) (f : Fabric) : (s.setFabric f).contFlight = s.contFlight := rfl
@[simp] theorem State.setFabric_kills (s : State) (f : Fabric) : (s.setFabric f).kills = s.kills := rfl
@[simp] theorem State.setFabric_deferred (s : State) (f : Fabric) : (s.setFabric f).deferred = s.deferred := rfl
@[simp] theorem State.setFabric_routers (s : State) (f : Fabric) : (s.setFabric f).routers = s.routers := rfl
@[simp] theorem State.setFabric_estates (s : State) (f : Fabric) : (s.setFabric f).estates = s.estates := rfl
@[simp] theorem State.setFabric_acq (s : State) (f : Fabric) : (s.setFabric f).acq = s.acq := rfl
@[simp] theorem State.setFabric_dseq (s : State) (f : Fabric) : (s.setFabric f).dseq = s.dseq := rfl
@[simp] theorem State.setFabric_deaths (s : State) (f : Fabric) : (s.setFabric f).deaths = s.deaths := rfl
@[simp] theorem State.setFabric_deadGroups (s : State) (f : Fabric) : (s.setFabric f).deadGroups = s.deadGroups := rfl
@[simp] theorem State.setFabric_arrivals (s : State) (f : Fabric) : (s.setFabric f).arrivals = s.arrivals := rfl
@[simp] theorem State.setFabric_reports (s : State) (f : Fabric) : (s.setFabric f).reports = s.reports := rfl
@[simp] theorem State.setFabric_waiters (s : State) (f : Fabric) : (s.setFabric f).waiters = s.waiters := rfl
@[simp] theorem State.setFabric_cells (s : State) (f : Fabric) : (s.setFabric f).cells = s.cells := rfl
@[simp] theorem State.setFabric_boot (s : State) (f : Fabric) : (s.setFabric f).boot = s.boot := rfl
@[simp] theorem State.setFabric_power (s : State) (f : Fabric) : (s.setFabric f).power = s.power := rfl
@[simp] theorem State.setFabric_podOff (s : State) (f : Fabric) : (s.setFabric f).podOff = s.podOff := rfl
@[simp] theorem State.setFabric_podFrac (s : State) (f : Fabric) : (s.setFabric f).podFrac = s.podFrac := rfl
@[simp] theorem State.setFabric_attr (s : State) (f : Fabric) : (s.setFabric f).attr = s.attr := rfl
@[simp] theorem State.setFabric_pool (s : State) (f : Fabric) : (s.setFabric f).pool = s.pool := rfl
@[simp] theorem State.setFabric_fwAttest (s : State) (f : Fabric) : (s.setFabric f).fwAttest = s.fwAttest := rfl
@[simp] theorem State.setFabric_fwroot (s : State) (f : Fabric) : (s.setFabric f).fwroot = s.fwroot := rfl
@[simp] theorem State.setFabric_mcerr (s : State) (f : Fabric) : (s.setFabric f).mcerr = s.mcerr := rfl
@[simp] theorem State.setFabric_prevec (s : State) (f : Fabric) : (s.setFabric f).prevec = s.prevec := rfl
@[simp] theorem State.setFabric_parkedRemote (s : State) (f : Fabric) : (s.setFabric f).parkedRemote = s.parkedRemote := rfl

end Sys2Proof.Machine
end

