-- ==== Sys2Proof/Laws/Tab.lean ====
section
/-! SUPPORT. Tables: reading after a write, at the key written and at the others. -/

-- One proof after the other: many at once need more threads than the check has memory for.
set_option Elab.async false

namespace Sys2Proof.Machine

@[simp] theorem Tab.get_set_same {α : Type} (t : Tab α) (d : α) (k : Nat) (v : α) : Tab.get (Tab.set t k v) d k = v := by
  induction t with
  | nil => simp [Tab.set, Tab.get]
  | cons p r ih =>
    obtain ⟨j, u⟩ := p
    by_cases h1 : k < j
    · simp [Tab.set, h1, Tab.get]
    · by_cases h2 : k = j <;> simp [Tab.set, h1, h2, Tab.get, ih]

theorem Tab.get_set_other {α : Type} (t : Tab α) (d : α) (k j : Nat) (v : α) (h : j ≠ k) :
    Tab.get (Tab.set t k v) d j = Tab.get t d j := by
  induction t with
  | nil => simp [Tab.set, Tab.get, h]
  | cons p r ih =>
    obtain ⟨i, u⟩ := p
    by_cases h1 : k < i
    · simp [Tab.set, h1, Tab.get, h]
    · by_cases h2 : k = i
      · subst h2; simp [Tab.set, Tab.get, h]
      · simp [Tab.set, h1, h2, Tab.get, ih]

theorem Tab.get_set {α : Type} (t : Tab α) (d : α) (k j : Nat) (v : α) :
    Tab.get (Tab.set t k v) d j = if j = k then v else Tab.get t d j := by
  by_cases h : j = k
  · subst h; simp
  · simp [h, Tab.get_set_other]

@[simp] theorem Tab.find_set_same {α : Type} (t : Tab α) (k : Nat) (v : α) : Tab.find (Tab.set t k v) k = some v := by
  induction t with
  | nil => simp [Tab.set, Tab.find]
  | cons p r ih =>
    obtain ⟨j, u⟩ := p
    by_cases h1 : k < j
    · simp [Tab.set, h1, Tab.find]
    · by_cases h2 : k = j <;> simp [Tab.set, h1, h2, Tab.find, ih]

theorem Tab.find_set_other {α : Type} (t : Tab α) (k j : Nat) (v : α) (h : j ≠ k) :
    Tab.find (Tab.set t k v) j = Tab.find t j := by
  induction t with
  | nil => simp [Tab.set, Tab.find, h]
  | cons p r ih =>
    obtain ⟨i, u⟩ := p
    by_cases h1 : k < i
    · simp [Tab.set, h1, Tab.find, h]
    · by_cases h2 : k = i
      · subst h2; simp [Tab.set, Tab.find, h]
      · simp [Tab.set, h1, h2, Tab.find, ih]

/-- A listed value is what `get` answers. -/
theorem Tab.get_of_find {α : Type} (t : Tab α) (d : α) (k : Nat) (v : α) (h : Tab.find t k = some v) :
    Tab.get t d k = v := by
  induction t with
  | nil => simp [Tab.find] at h
  | cons p r ih =>
    obtain ⟨j, u⟩ := p
    by_cases h1 : k = j <;> simp [Tab.find, Tab.get, h1] at h ⊢
    · exact h
    · exact ih h

end Sys2Proof.Machine
end

