-- ==== Sys2Proof/Laws/Ops.lean ====
section
/-! SUPPORT. The shared operations, one lemma for each thing they can do: reading a part after it was replaced, retiring,
writing a register, the register file, and the memory of each operation. -/

-- One proof after the other: many at once need more threads than the check has memory for.
set_option Elab.async false

namespace Sys2Proof.Machine

open Sys2Proof

/-! ## Parts -/

@[simp] theorem State.coreAt_setCore (s : State) (c d : Nat) (k : Core) :
    (s.setCore c k).coreAt d = if d = c then k else s.coreAt d := Tab.get_set _ _ _ _ _

@[simp] theorem State.ctxAt_setCtx (s : State) (c x d y : Nat) (v : Ctx) :
    (s.setCtx c x v).ctxAt d y = if d = c ∧ y = x then v else s.ctxAt d y := by
  unfold State.ctxAt State.setCtx
  rw [State.coreAt_setCore]
  by_cases h : d = c
  · subst h
    simp only [if_true, Tab.get_set, true_and]
  · simp [h]

@[simp] theorem State.me_setMe (s : State) (v : Ctx) : (s.setMe v).me = v := by
  simp [State.me, State.setMe]

@[simp] theorem State.setMe_me (s : State) (v : Ctx) : (s.setMe v).core = s.core := rfl

theorem State.coreAt_setCtx (s : State) (c x d : Nat) (v : Ctx) :
    (s.setCtx c x v).coreAt d = { s.coreAt d with ctxs := ((s.setCtx c x v).coreAt d).ctxs } := by
  unfold State.setCtx
  rw [State.coreAt_setCore]
  by_cases h : d = c
  · subst h; simp
  · simp [h]

@[simp] theorem State.clusterAt_setCluster (s : State) (c d : Nat) (k : Cluster) :
    (s.setCluster c k).clusterAt d = if d = c then k else s.clusterAt d := Tab.get_set _ _ _ _ _

@[simp] theorem State.octetAt_setOctet (s : State) (c d : Nat) (k : Octet) :
    (s.setOctet c k).octetAt d = if d = c then k else s.octetAt d := Tab.get_set _ _ _ _ _

@[simp] theorem State.tenantAt_setTenant (s : State) (c d : Nat) (k : Tenant) :
    (s.setTenant c k).tenantAt d = if d = c then k else s.tenantAt d := Tab.get_set _ _ _ _ _

@[simp] theorem State.counterAt_setCounter (s : State) (c d : Nat) (k : Counter) :
    (s.setCounter c k).counterAt d = if d = c then k else s.counterAt d := Tab.get_set _ _ _ _ _

/-! ## The register file -/

/-- Reading a register after a write: x0 reads 0, the register written reads the value, every other reads as before. -/
theorem Ctx.rd_wr (x : Ctx) (d r : BitVec 5) (v : W64) :
    (x.wr d v).rd r = if r = 0 then 0 else if r = d then v else x.rd r := by
  by_cases hr : r = 0
  · simp [hr, Ctx.rd]
  · by_cases hd : d = 0
    · subst hd
      rw [if_neg hr, if_neg hr]
      rfl
    · have hn : r.toNat = d.toNat ↔ r = d := ⟨fun h => BitVec.eq_of_toNat_eq h, fun h => h ▸ rfl⟩
      have hz : r ≠ 0#5 := hr
      rw [if_neg hr]
      unfold Ctx.wr
      rw [if_neg hd]
      split
      · rename_i h
        simp only [Bool.and_eq_true, decide_eq_true_eq] at h
        have hu : x.ui = true := h.1
        by_cases h2 : 24 ≤ r.toNat
        · simp [Ctx.rd, Ctx.ui, h2, Tab.get_set, hn] at hu ⊢
          simp [hu, hz]
        · have : r ≠ d := fun e => h2 (e ▸ h.2)
          simp [Ctx.rd, h2, this]
      · rename_i h
        simp only [Bool.and_eq_true, decide_eq_true_eq, not_and] at h
        by_cases hu : x.ui = true
        · have h1 := h hu
          by_cases h2 : 24 ≤ r.toNat
          · have : r ≠ d := fun e => h1 (e ▸ h2)
            simp [Ctx.ui] at hu
            simp [Ctx.rd, Ctx.ui, h2, this, hu]
          · simp [Ctx.rd, Ctx.ui, hz, h2, Tab.get_set, hn]
        · simp [Ctx.ui] at hu
          simp [Ctx.rd, Ctx.ui, hz, hu, Tab.get_set, hn]

/-- A write to x0 is discarded. -/
@[simp] theorem Ctx.wr_zero (x : Ctx) (v : W64) : x.wr 0 v = x := by simp [Ctx.wr]

/-- x0 reads 0. -/
@[simp] theorem Ctx.rd_zero (x : Ctx) : x.rd 0 = 0 := by simp [Ctx.rd]

/-! ## Retiring -/

/-- Counting changes virtual counters of the core and nothing else. -/
theorem State.countOn_eq (s : State) (c code n : Nat) :
    s.countOn c code n = s ∨
    s.countOn c code n = s.setCore c { s.coreAt c with vcnt := ((s.countOn c code n).coreAt c).vcnt } := by
  unfold State.countOn
  split
  · exact .inl rfl
  · split
    · exact .inr (by simp)
    · exact .inl rfl

@[simp] theorem State.countOn_core (s : State) (c code n : Nat) : (s.countOn c code n).core = s.core := by
  rcases s.countOn_eq c code n with h | h <;> rw [h] <;> rfl
@[simp] theorem State.countOn_ctx (s : State) (c code n : Nat) : (s.countOn c code n).ctx = s.ctx := by
  rcases s.countOn_eq c code n with h | h <;> rw [h] <;> rfl
@[simp] theorem State.countOn_mem (s : State) (c code n : Nat) : (s.countOn c code n).mem = s.mem := by
  rcases s.countOn_eq c code n with h | h <;> rw [h] <;> rfl

theorem State.countOn_coreAt (s : State) (c code n d : Nat) :
    (s.countOn c code n).coreAt d = { s.coreAt d with vcnt := ((s.countOn c code n).coreAt d).vcnt } := by
  rcases s.countOn_eq c code n with h | h
  · rw [h]
  · rw [h]
    simp only [State.coreAt_setCore]
    split
    · rename_i hd; subst hd; rfl
    · rfl

@[simp] theorem State.countOn_ctxAt (s : State) (c code n d x : Nat) :
    (s.countOn c code n).ctxAt d x = s.ctxAt d x := by
  unfold State.ctxAt
  rw [State.countOn_coreAt]

@[simp] theorem State.countOn_me (s : State) (c code n : Nat) : (s.countOn c code n).me = s.me := by
  unfold State.me
  rw [State.countOn_ctxAt]
  simp

/-- Nothing but cores changes in counting. -/
theorem State.countOn_rest (s : State) (c code n : Nat) :
    s.countOn c code n = { s with cores := (s.countOn c code n).cores } := by
  rcases s.countOn_eq c code n with h | h
  · rw [h]
  · rw [h]; rfl

/-- A table keeps whether one of its values passes a test when a value is replaced by one that passes it alike. -/
theorem Tab.any_set {α : Type} (t : Tab α) (d : α) (k : Nat) (v : α) (p : α → Bool) (hd : p d = false)
    (hv : p v = p (Tab.get t d k)) : (Tab.set t k v).any (fun q => p q.2) = t.any (fun q => p q.2) := by
  induction t with
  | nil => simpa [Tab.set, Tab.get, hd] using hv
  | cons q r ih =>
    obtain ⟨j, u⟩ := q
    by_cases h1 : k < j
    · have hne : k ≠ j := by omega
      simp only [Tab.set, h1, if_true, List.any_cons]
      cases hp : p v
      · simp
      · have hg : p (Tab.get ((j, u) :: r) d k) = true := hv ▸ hp
        have hin : ∀ l : Tab α, p (Tab.get l d k) = true → l.any (fun q => p q.2) = true := by
          intro l
          induction l with
          | nil => simp [Tab.get, hd]
          | cons c e ie =>
            obtain ⟨i, w⟩ := c
            by_cases hk : k = i
            · intro h; simp [Tab.get, hk] at h; simp [h]
            · intro h
              simp only [Tab.get, hk, if_false] at h
              simp [ie h]
        have := hin _ hg
        simp only [List.any_cons] at this
        simp [this]
    · by_cases h2 : k = j
      · simp only [Tab.get, h2, if_true] at hv
        simp only [Tab.set, if_neg h1, if_pos h2, List.any_cons, hv]
      · simp only [Tab.set, h1, h2, if_false, List.any_cons, Tab.get] at hv ⊢
        rw [ih hv]

/-- Replacing a context by one that is as live changes no core's being live. -/
theorem State.anyLive_setCtx (s : State) (c x d : Nat) (v : Ctx) (hv : v.live = (s.ctxAt c x).live) :
    ((s.setCtx c x v).coreAt d).anyLive = (s.coreAt d).anyLive := by
  unfold State.setCtx
  rw [State.coreAt_setCore]
  by_cases h : d = c
  · subst h
    simp only [if_true, Core.anyLive]
    exact Tab.any_set _ Ctx.reset _ _ (fun q => q.live) rfl hv
  · simp [h]

@[simp] theorem State.thread_setCtx (s : State) (c x d : Nat) (v : Ctx) :
    ((s.setCtx c x v).coreAt d).thread = (s.coreAt d).thread := by
  rw [State.coreAt_setCtx]

theorem State.counted_setCtx (s : State) (c x d : Nat) (v : Ctx) (hv : v.live = (s.ctxAt c x).live) :
    (s.setCtx c x v).counted d = s.counted d := by
  unfold State.counted State.liveCores
  simp only [State.anyLive_setCtx s c x _ v hv, State.thread_setCtx]
  rfl

theorem State.launchOf_setCtx (s : State) (c x d : Nat) (v : Ctx) : (s.setCtx c x v).launchOf d = s.launchOf d := by
  unfold State.launchOf
  rw [State.thread_setCtx]
  rfl

/-- Replacing a context by one that is as live changes nothing in what is counted. -/
theorem State.countOn_setCtx_vcnt (s : State) (c x d code n e : Nat) (v : Ctx) (hv : v.live = (s.ctxAt c x).live) :
    (((s.setCtx c x v).countOn d code n).coreAt e).vcnt = ((s.countOn d code n).coreAt e).vcnt := by
  unfold State.countOn
  rw [State.launchOf_setCtx, State.counted_setCtx s c x d v hv]
  cases s.launchOf d with
  | none => simp only; rw [State.coreAt_setCtx]
  | some l =>
    simp only
    split
    · rw [State.coreAt_setCore, State.coreAt_setCore]
      split
      · simp only; rw [State.coreAt_setCtx]
      · rw [State.coreAt_setCtx]
    · rw [State.coreAt_setCtx]

theorem Core.chain (k a b c : Core) (v : Tab Nat) (h1 : k = { a with ctxs := k.ctxs }) (h2 : a = { b with vcnt := a.vcnt })
    (h3 : a.vcnt = v) (h4 : b = { c with ctxs := b.ctxs }) : k = { c with ctxs := k.ctxs, vcnt := v } := by
  subst h3
  exact h1.trans (congrArg (fun z : Core => { z with ctxs := k.ctxs })
    (h2.trans (congrArg (fun z : Core => { z with vcnt := a.vcnt }) h4)))

/-- Replacing the issuing context by one that is as live, then counting and retiring, changes that context alone. -/
theorem OnlyMe.count (s : State) (x y : Ctx) (hx : x.live = s.me.live) :
    OnlyMe s (((s.setMe x).countOn s.core 2 1).setMe y) := by
  refine ⟨?_, fun _ => ?_, fun c z h => ?_, fun c => ?_⟩
  · rw [State.countOn_rest (s.setMe x) s.core 2 1]
    rfl
  · simp [State.peek]
  · rw [State.setMe, State.ctxAt_setCtx]
    simp only [State.countOn_core, State.countOn_ctx, State.setMe_core, State.setMe_ctx]
    rw [if_neg h, State.countOn_ctxAt, State.setMe, State.ctxAt_setCtx, if_neg h]
  · have hc := State.countOn_setCtx_vcnt s s.core s.ctx s.core 2 1 c x hx
    exact Core.chain _ _ _ _ _ (State.coreAt_setCtx _ _ _ _ _) (State.countOn_coreAt _ _ _ _ _) hc
      (State.coreAt_setCtx _ _ _ _ _)

@[simp] theorem Ctx.wr_live (x : Ctx) (d : BitVec 5) (v : W64) : (x.wr d v).live = x.live := by
  unfold Ctx.wr; split
  · rfl
  · split <;> rfl

@[simp] theorem Ctx.wr_pc (x : Ctx) (d : BitVec 5) (v : W64) : (x.wr d v).pc = x.pc := by
  unfold Ctx.wr; split
  · rfl
  · split <;> rfl

/-- An instruction that ends by writing a register does that and nothing else. -/
theorem RetiresAs.done (s : State) (d : BitVec 5) (v : W64) : RetiresAs s (s.wr d v).retire (s.me.wr d v) := by
  refine ⟨?_, ?_⟩
  · exact OnlyMe.count s _ _ (Ctx.wr_live _ _ _)
  · unfold State.retire State.wr
    simp

/-- Counting, then replacing the issuing context, changes that context alone. -/
theorem OnlyMe.setMe_countOn (s : State) (x : Ctx) : OnlyMe s ((s.countOn s.core 2 1).setMe x) := by
  refine ⟨?_, fun _ => ?_, fun c y h => ?_, fun c => ?_⟩
  · rw [State.countOn_rest s s.core 2 1]
    rfl
  · simp [State.peek]
  · rw [State.setMe, State.ctxAt_setCtx]
    simp only [State.countOn_core, State.countOn_ctx]
    rw [if_neg h, State.countOn_ctxAt]
  · exact Core.chain _ _ _ _ _ (State.coreAt_setCtx _ _ _ _ _) (State.countOn_coreAt _ _ _ _ _) rfl rfl

/-- An instruction that only retires changes nothing else. -/
theorem RetiresAs.retire (s : State) : RetiresAs s s.retire s.me := by
  refine ⟨?_, ?_⟩
  · exact OnlyMe.setMe_countOn s _
  · simp [State.retire]

end Sys2Proof.Machine
end

