-- ==== Sys2Proof/Machine/ViashForms.lean ====
section
/-! DEFINITION. The forms of viash, the module's assembly language (12 R236, R241, R243; 13 R252 to R255; the viash
column of the instruction chapters): how each instruction is written, and the word that its operands make. A form is
data, so that one table serves the assembler and the listing. -/

namespace Sys2Proof.Machine.Viash

/-! ## Operands and suffixes (R241) -/

/-- What an operand is, and where its value goes in the word. -/
inductive Slot where
  /-- a register x, v, k or h, its number at a bit -/
  | reg (kind : Char) (lo : Nat)
  /-- `[xN]`, the register's number at a bit -/
  | mem (lo : Nat)
  /-- `[xN+offset]` of the LS format -/
  | memOff
  /-- a constant of the range `lo..hi`, less `bias`, in `width` bits at bit `at` -/
  | int (lo hi : Int) (bias : Nat) (width pos : Nat)
  /-- as `int`, and 0 where it is omitted -/
  | optInt (hi : Nat) (width pos : Nat)
  /-- the scalar pair, its even register; 0 where it is omitted -/
  | pair
  /-- a scalar pair that the form does not write: it is ignored, and 0 where viash makes the word (12 R238) -/
  | hidden
  /-- a branch or jump target in `width` bits -/
  | target (width : Nat)
  /-- a system register, by name or number -/
  | sys
deriving DecidableEq, Repr

/-- One suffix of a mnemonic: what each spelling adds to the word, and what its absence adds where it may be absent. -/
structure Group where
  opts : List (String × Nat)
  dflt : Option Nat
deriving DecidableEq, Repr

/-- A way to write an instruction. -/
structure Form where
  name : String
  sfx : List Group
  base : Nat
  slots : List Slot
deriving DecidableEq, Repr

/-- Spellings numbered from 0, each number at a bit. -/
def numbered (pos n : Nat) : List String → List (String × Nat)
  | [] => []
  | t :: r => (t, n * 2 ^ pos) :: numbered pos (n + 1) r

/-- A suffix that must stand. -/
def must (opts : List (String × Nat)) : Group := { opts := opts, dflt := none }
/-- A suffix that may be left out. -/
def maybe (t : String) (v : Nat) : Group := { opts := [(t, v)], dflt := some 0 }

/-- Add a number to what each spelling adds. -/
def plus (n : Nat) (l : List (String × Nat)) : List (String × Nat) := l.map (fun p => (p.1, p.2 + n))

/-! ## Type suffixes (13 R254) -/

/-- The float coding. -/
def floats : List String := ["f32", "bf16", "f16"]
/-- The integer coding. -/
def ints : List String := ["i32", "i16", "i8", "n32", "n16", "n8"]
/-- The conversion coding. -/
def convs : List String := ["f32", "bf16", "f16", "e4m3", "e5m2", "e2m1", "iq4", "fa56"]
/-- The width coding at bit 19: any suffix of the width; a listing writes the first of each. -/
def widths : List (String × Nat) :=
  [("i32", 0), ("i16", 2 ^ 19), ("i8", 2 ^ 20), ("f32", 0), ("n32", 0), ("bf16", 2 ^ 19), ("f16", 2 ^ 19), ("n16", 2 ^ 19),
   ("n8", 2 ^ 20)]
/-- The rounding codes (11 R215) at a bit. -/
def rounds (pos : Nat) : List (String × Nat) := numbered pos 0 ["rne", "rtz", "rup", "rdn", "rna", "dyn", "sr"]
/-- A rounding suffix that is DYN where it is left out (14 R259). -/
def roundOr : Group := { opts := rounds 1, dflt := some 10 }

/-! ## The forms, major by major -/

/-- Shorthands for operands. -/
def xd : Slot := .reg 'x' 21
/-- The a register. -/
def xa : Slot := .reg 'x' 16
/-- The b register. -/
def xb : Slot := .reg 'x' 11

/-- The fixed bits of an RR or RING word. -/
def rr (major op : Nat) : Nat := major * 2 ^ 26 + op * 2 ^ 6
/-- The fixed bits of a V or MMA word. -/
def vv (major op : Nat) : Nat := major * 2 ^ 26 + op * 2 ^ 22

/-- Forms of consecutive ops with one shape and no suffix. -/
def run (major op : Nat) (names : List String) (slots : List Slot) : List Form :=
  (numbered 6 op names).map (fun p => { name := p.1, sfx := [], base := major * 2 ^ 26 + p.2, slots := slots })

/-- Major 0x01 (14 R257). -/
def forms01 : List Form :=
  run 1 0 ["add", "sub", "mul", "mulh", "mulhn", "div", "divn", "rem", "remn", "and", "or", "xor", "andn", "shl", "shr", "shra",
    "rotl", "min", "max", "minn", "maxn", "slt", "sltn"] [xd, xa, xb]
  ++ run 1 23 ["sel"] [xd, xa, xb, .reg 'x' 0]
  ++ run 1 24 ["clz", "ctz", "popc"] [xd, xa]
  ++ run 1 27 ["ext", "ins"] [xd, xa, xb, .int 1 64 1 6 0]
  ++ run 1 29 ["adds"] [xd, xa, xb]

/-- A form with a major of its own. -/
def lone (name : String) (major : Nat) (slots : List Slot) : Form :=
  { name := name, sfx := [], base := major * 2 ^ 26, slots := slots }

/-- A signed 16-bit immediate. -/
def imm16 : Slot := .int (-32768) 32767 0 16 0

/-- Majors with one instruction each, RI, MW, LS, BR and JL (14 R258, R262, R265, R266; 12 R243). -/
def formsLone : List Form :=
  [lone "addi" 2 [xd, xa, imm16], lone "andi" 3 [xd, xa, .int 0 65535 0 16 0], lone "ori" 4 [xd, xa, .int 0 65535 0 16 0],
   lone "xori" 5 [xd, xa, .int 0 65535 0 16 0],
   { name := "shi", sfx := [must (numbered 6 0 ["l", "r", "ra", "rot"])], base := 6 * 2 ^ 26, slots := [xd, xa, .int 0 63 0 6 0] },
   lone "slti" 7 [xd, xa, imm16], lone "sltni" 8 [xd, xa, imm16],
   lone "lit" 9 [xd, .int 0 65535 0 16 0, .optInt 3 2 19],
   { name := "litk", sfx := [], base := 9 * 2 ^ 26 + 2 ^ 18, slots := [xd, .int 0 65535 0 16 0, .optInt 3 2 19] },
   { name := "ld",
     sfx := [must (numbered 13 0 ["1", "2", "4", "8"] ++ plus (2 ^ 12) (numbered 13 0 ["s1", "s2", "s4"]))],
     base := 11 * 2 ^ 26, slots := [xd, .memOff] },
   { name := "st", sfx := [must (numbered 13 0 ["1", "2", "4", "8"])], base := 12 * 2 ^ 26, slots := [.memOff, xd] }]
  ++ (numbered 26 14 ["beq", "bne", "blt", "bge", "bltn", "bgen"]).map
    (fun p => { name := p.1, sfx := [], base := p.2, slots := [xd, xa, .target 16] })
  ++ [lone "jal" 20 [xd, .target 21], lone "jalr" 21 [xd, xa, imm16]]

/-- Major 0x0A (14 R259, R261). -/
def forms0A : List Form :=
  let ty := must (numbered 0 0 ["f32", "f64"])
  let op := fun (n : Nat) (t : String) (g : List Group) (l : List Slot) =>
    ({ name := t, sfx := g, base := rr 10 n, slots := l } : Form)
  let pairs := fun (pos : Nat) => must (numbered pos 0 ["f32", "f64", "i64", "n64"])
  [op 0 "fadd" [ty, roundOr] [xd, xa, xb], op 1 "fsub" [ty, roundOr] [xd, xa, xb], op 2 "fmul" [ty, roundOr] [xd, xa, xb],
   op 3 "fdiv" [ty, roundOr] [xd, xa, xb], op 4 "fsqrt" [ty, roundOr] [xd, xa], op 5 "ffma" [ty, roundOr] [xd, xa, xb],
   op 6 "fmin" [ty] [xd, xa, xb], op 7 "fmax" [ty] [xd, xa, xb],
   op 8 "fcmp" [must (numbered 4 0 ["eq", "lt", "le", "un"]), ty] [xd, xa, xb],
   op 9 "fcvt" [pairs 13, pairs 11, roundOr] [xd, xa]]

/-- Majors 0x0D, 0x16 and 0x17 (14 R264, R267 to R279). -/
def forms0D : List Form :=
  run 13 0 ["ldv", "stv"] [xd, .mem 16, xb] ++ run 13 2 ["reclaim"] [.mem 16, xb] ++ run 13 3 ["verq"] [xd, .mem 16]
  ++ run 22 0 ["trap"] [.int 0 32767 0 15 11] ++ run 22 1 ["tret", "uiret"] [] ++ run 22 3 ["mfs"] [xd, .sys]
  ++ run 22 4 ["mts"] [.sys, xd] ++ run 22 5 ["wfi", "halt", "yield"] [] ++ run 22 8 ["rdctr"] [xd, .int 0 7 0 3 0]
  ++ run 23 0 ["start"] [xd, xa, xb] ++ run 23 1 ["joinh"] [xd, xa] ++ run 23 2 ["cont"] [xa] ++ run 23 3 ["launch"] [xd, xa]

/-- Major 0x18 (19 R364, R369). -/
def forms18 : List Form :=
  let plain := ["swap", "add", "and", "or", "xor", "min", "max", "minn", "maxn", "cas", "fadd", "lock", "unlock", "trylock"]
  let w4 := maybe "4" 16
  let scope : Group := { opts := numbered 0 0 ["thr", "clu", "mod", "sys", "dfl"], dflt := some 4 }
  [{ name := "amo", sfx := [must (numbered 0 0 plain), w4], base := rr 24 0, slots := [xd, .mem 16, xb] },
   { name := "amod", sfx := [must (numbered 0 0 plain), w4], base := rr 24 1, slots := [xd, .mem 16, xb] },
   { name := "red", sfx := [must (numbered 0 0 plain), w4], base := rr 24 2, slots := [.mem 16, xb] },
   { name := "redf", sfx := [must (numbered 0 0 ["add", "min", "max"]), must (numbered 2 0 ["f32", "f64", "i64", "n64"])],
     base := rr 24 3, slots := [xd, .mem 16, xb] }]
  ++ run 24 4 ["arrive", "waitb"] [.int 0 15 0 4 0] ++ run 24 6 ["bmask"] [xa] ++ run 24 7 ["fencel"] []
  ++ [{ name := "fenceh", sfx := [scope], base := rr 24 8, slots := [] }, { name := "fence", sfx := [scope], base := rr 24 9, slots := [] }]
  ++ run 24 10 ["ecadd", "ecwait", "ectrig"] [xd, xa, xb]

/-- Majors 0x19 to 0x1B (19 R349, R372; 14 R280 to R282). -/
def forms19 : List Form :=
  let kind := fun (pos : Nat) => must (numbered pos 1 ["lock", "obj", "prom"])
  run 25 0 ["hold"] [xd, xa, xb]
  ++ [{ name := "relq", sfx := [kind 0], base := rr 25 1, slots := [xd, xa] },
      { name := "heir", sfx := [kind 0], base := rr 25 2, slots := [xd, xa, xb] }]
  ++ run 25 3 ["promise"] [xd, xa, xb]
  ++ [{ name := "estq", sfx := [kind 3], base := rr 25 4, slots := [xd, xa, xb] },
      { name := "estq", sfx := [must [("pop", 1), ("wait", 2)]], base := rr 25 4, slots := [xd, xb] }]
  ++ run 25 5 ["orphcl"] [xd, xa]
  ++ run 26 0 ["send"] [xd, xa]
  ++ [{ name := "recv", sfx := [{ opts := [("w", 1), ("pop", 2)], dflt := some 0 }], base := rr 26 1, slots := [xd] }]
  ++ run 26 2 ["qstat"] [xd]
  ++ (numbered 6 0 ["gcopy", "gsend", "gcmp", "ghash"]).map
    (fun p => { name := p.1, sfx := [maybe "v" 1], base := 27 * 2 ^ 26 + p.2, slots := [xd, xa, xb] })
  ++ run 27 4 ["gfree", "oalloc", "ostp"] [xd, xa, xb] ++ run 27 7 ["gstat"] [xd, xa]

/-- Majors 0x1C to 0x1F (17 R319, R326, R328, R334, R339; 14 R284 to R288). -/
def forms1C : List Form :=
  let hh : Slot := .reg 'h' 22
  let ra : Slot := .reg 'x' 12
  let n : Slot := .int 0 31 0 5 17
  let ma : Slot := .reg 'x' 17
  let mma := fun (g : List Group) => ({ name := "mma", sfx := must (numbered 5 0 convs) :: g, base := vv 30 0,
                                         slots := [.reg 'h' 18, .int 0 15 0 4 14, .int 0 63 0 6 8] } : Form)
  let mx := fun (t : String) (op : Nat) (l : List Slot) => ({ name := t, sfx := [], base := vv 30 op, slots := l } : Form)
  let flag := fun (t : String) (v : Nat) => must [(t, v)]
  run 28 0 ["hdef"] [hh, ra] ++ run 28 1 ["hwait"] [hh, n]
  ++ [{ name := "hwait", sfx := [flag "p" 1], base := rr 28 1, slots := [hh, n] },
      { name := "hwait", sfx := [flag "t" 2], base := rr 28 1, slots := [ra, n] }]
  ++ run 28 2 ["advp", "advc"] [hh, n]
  ++ [{ name := "advc", sfx := [flag "l" 1], base := rr 28 3, slots := [ra, n] }]
  ++ run 28 4 ["hstat"] [ra, hh]
  ++ run 29 0 ["bcopy", "bcast", "deal"] [xd, xa]
  ++ [{ name := "cstat", sfx := [{ opts := numbered 0 1 ["w", "scrc", "dcrc", "mask", "abandon"], dflt := some 0 }], base := rr 29 3,
        slots := [xd, xa] }]
  ++ [mma [maybe "z" 16, maybe "adv" 8], mma [flag "adv" 8, flag "z" 16], mx "mclr" 1 [], mx "mswap" 5 []]
  ++ [{ name := "mdrain", sfx := [must [("f32", 0), ("bf16", 32), ("f16", 64), ("fa56", 224)], must (rounds 0), maybe "q" 256,
          maybe "ui" 16], base := vv 30 2, slots := [ma] },
      mx "mmap" 3 [ma], mx "wbload" 4 [ma, ra], mx "mpert" 6 [ma, ra], mx "mchk" 7 [ma], mx "mstat" 8 [.reg 'x' 7, ma]]
  ++ [{ name := "replay", sfx := [maybe "fail" 1], base := rr 31 0, slots := [xd, xa] }]
  ++ run 31 1 ["tlbinv"] [xa, xb] ++ run 31 2 ["kill", "fqpop"] [xd, xa, xb] ++ run 31 4 ["moncall"] [xd, xa]

/-- A vector register or another register of the V format. -/
def vd : Slot := .reg 'v' 14
/-- The va register. -/
def va : Slot := .reg 'v' 9
/-- The vb register. -/
def vb : Slot := .reg 'v' 4

/-- A V form. -/
def vf (name : String) (major op : Nat) (sfx : List Group) (slots : List Slot) : Form :=
  { name := name, sfx := sfx, base := vv major op, slots := slots }

/-- Majors 0x20 to 0x22 (16 R300 to R302; R253 chooses between the first two by the suffix). -/
def forms20 : List Form :=
  let f := must (numbered 19 0 floats)
  let i := must (numbered 19 0 ints)
  let w := must widths
  let three := [vd, va, vb, .pair]
  [vf "vadd" 32 0 [f] three, vf "vsub" 32 1 [f] three, vf "vmul" 32 2 [f] three, vf "vfma" 32 3 [f] three, vf "vmin" 32 4 [f] three,
   vf "vmax" 32 5 [f] three, vf "vdiv" 32 6 [f] three, vf "vsqrt" 32 7 [f] [vd, va, .pair], vf "vabs" 32 8 [f] [vd, va, .pair],
   vf "vadd" 33 0 [i] three, vf "vsub" 33 1 [i] three, vf "vmul" 33 2 [i] three, vf "vmulh" 33 3 [i] three, vf "vmin" 33 4 [i] three,
   vf "vmax" 33 5 [i] three, vf "vabs" 33 6 [i] [vd, va, .pair],
   vf "vand" 34 0 [w] three, vf "vor" 34 1 [w] three, vf "vxor" 34 2 [w] three, vf "vshl" 34 3 [w] three, vf "vshr" 34 4 [w] three,
   vf "vshra" 34 5 [w] three]

/-- Majors 0x23 to 0x25 (16 R303 to R310; 13 R255). -/
def forms23 : List Form :=
  let w := must widths
  let i := must (numbered 19 0 ints)
  let cmp := must (numbered 19 0 floats ++ plus (2 ^ 17) (numbered 19 0 ints))
  let red := must (numbered 19 0 floats ++ plus (2 ^ 7) (numbered 19 0 ints))
  let kd : Slot := .reg 'k' 14
  let ka : Slot := .reg 'k' 9
  let kb : Slot := .reg 'k' 4
  let x : Slot := .reg 'x' 14
  [vf "vcmpeq" 35 0 [cmp] [kd, va, vb, .pair], vf "vcmpne" 35 1 [cmp] [kd, va, vb, .pair], vf "vcmplt" 35 2 [cmp] [kd, va, vb, .pair],
   vf "vcmple" 35 3 [cmp] [kd, va, vb, .pair], vf "vsel" 35 4 [w] [vd, va, vb, .pair], vf "kand" 35 5 [] [kd, ka, kb, .hidden],
   vf "kor" 35 6 [] [kd, ka, kb, .hidden], vf "kxor" 35 7 [] [kd, ka, kb, .hidden], vf "knot" 35 8 [] [kd, ka, .hidden],
   vf "kpopc" 35 9 [] [x, ka, .hidden],
   vf "vld" 36 0 [w] [vd, .pair], vf "vst" 36 1 [w] [vd, .pair], vf "vlds" 36 2 [w] [vd, .pair], vf "vsts" 36 3 [w] [vd, .pair],
   vf "vgath" 36 4 [w] [vd, vb, .pair], vf "vscat" 36 5 [w] [vd, vb, .pair],
   vf "vbcast" 37 0 [w] [vd, .pair], vf "vperm" 37 1 [w] [vd, va, vb, .pair], vf "vslide" 37 2 [w] [vd, va, .pair],
   vf "vred" 37 3 [must (numbered 4 0 ["add", "min", "max", "mul"]), red] [vd, va, .pair], vf "vmovx" 37 4 [i] [x, va, .pair],
   vf "vidx" 37 5 [i] [vd, .pair]]

/-- Majors 0x26 and 0x27 (16 R311 to R317; 13 R255). -/
def forms26 : List Form :=
  let dst := must (numbered 19 0 (convs.take 6) ++ plus (2 ^ 8) (numbered 19 0 ints))
  let src := must (numbered 4 0 (convs.take 6) ++ plus (2 ^ 7) (numbered 4 0 ints))
  let fmt := must ((numbered 19 0 convs).drop 3 |>.take 4)
  let fn := must (numbered 4 0 ["exp2", "log2", "rcp", "rsqrt", "sinpi", "cospi", "tanh", "sigm", "exp"])
  let x : Slot := .reg 'x' 14
  [vf "vcvt" 38 0 [dst, src] [vd, va, .pair], vf "vqnt" 38 1 [fmt] [vd, va, vb, .pair], vf "vdqnt" 38 2 [fmt] [vd, va, vb, .pair],
   vf "vsfu" 38 3 [fn, must (numbered 19 0 floats)] [vd, va, .pair],
   vf "vclaim" 39 0 [] [x, .pair], vf "vfence" 39 1 [] [.hidden], vf "vstat" 39 2 [] [x, .hidden], vf "vpopq" 39 3 [] [vd, .hidden]]

/-- Every form; `nop` is a word of ADD, and comes last, so that a listing shows it as that (R243). -/
def forms : List Form :=
  forms01 ++ formsLone ++ forms0A ++ forms0D ++ forms18 ++ forms19 ++ forms1C ++ forms20 ++ forms23 ++ forms26
  ++ [{ name := "nop", sfx := [], base := 2 ^ 26, slots := [] }]

/-- The system registers by name (14 R269). -/
def sysNames : List (String × Nat) :=
  [("status", 0), ("tstatus", 1), ("taddr", 2), ("tcause", 3), ("tval", 4), ("tvec", 5), ("hchain", 6), ("pvec", 7), ("uivec", 8),
   ("uistat", 9), ("uiaddr", 10), ("partw", 16), ("lcore", 17), ("jobseed", 18), ("vgrant", 19), ("tenant", 20), ("ctxid", 21),
   ("rndctr", 22), ("time", 24), ("timef", 25), ("lmapb", 32), ("ptbase", 33), ("esth", 34), ("estl", 35), ("ageus", 36),
   ("chreply", 72), ("cxsel", 80), ("cxdata", 81), ("prectl", 82), ("accsv", 83), ("mcerr", 640), ("fwroot", 641)]
  ++ numbered 0 49 ["awd1", "awd2", "awd3", "awd4", "awd5", "awd6", "awd7"]
  ++ numbered 0 64 ["chmsg0", "chmsg1", "chmsg2", "chmsg3", "chmsg4", "chmsg5", "chmsg6", "chmsg7"]

end Sys2Proof.Machine.Viash
end

