-- ==== Sys2Proof/Machine/Viash.lean ====
section
/-! DEFINITION. viash, the assembler (12 R240 to R250): lines and expressions, the words of instructions and the listing
of a word, data directives, object types with their layout-map table, launch records, and the Derust container. -/

namespace Sys2Proof.Machine.Viash

open Sys2Proof

/-! ## Lines (R240) -/

/-- What a line is cut into: a word (a name, a number, a directive), the bytes of a string, a mark. -/
inductive Tok where
  | word (t : String)
  | text (l : List Nat)
  | mark (t : String)
deriving DecidableEq, Repr

/-- A letter. -/
def letter (c : Char) : Bool := decide (('a' ≤ c ∧ c ≤ 'z') ∨ ('A' ≤ c ∧ c ≤ 'Z'))
/-- A decimal digit. -/
def digit (c : Char) : Bool := decide ('0' ≤ c ∧ c ≤ '9')
/-- A character of a word. -/
def wordChar (c : Char) : Bool := letter c || digit c || c == '_' || c == '.'

/-- The string that a quote opens: its bytes, and what follows the closing quote. -/
def quoted : List Char → Option (List Nat × List Char)
  | [] => none
  | '"' :: r => some ([], r)
  | '\\' :: c :: r =>
    let b : Option Nat := match c with
      | 'n' => some 0x0A
      | 't' => some 0x09
      | '0' => some 0
      | '\\' => some 0x5C
      | '"' => some 0x22
      | _ => none
    match b, quoted r with
    | some v, some (l, q) => some (v :: l, q)
    | _, _ => none
  | c :: r => match quoted r with
    | some (l, q) => if c.toNat < 128 then some (c.toNat :: l, q) else none
    | none => none

/-- A word goes on with the sign of a decimal exponent, as in 2.25e-3. -/
def exponentSign (w : List Char) (c : Char) (r : List Char) : Bool :=
  (c == '-' || c == '+') && w.getLast? == some 'e' && (w.head?.map digit).getD false && ! w.contains 'x'
    && (r.head?.map digit).getD false

/-- The word that begins here, as far as it has been read, and the rest. -/
def takeWord (w : List Char) : List Char → List Char × List Char
  | [] => (w, [])
  | c :: r => if wordChar c || exponentSign w c r then takeWord (w ++ [c]) r else (w, c :: r)

/-- A line as tokens; `n` bounds them. -/
def lexLine : Nat → List Char → Option (List Tok)
  | 0, _ => none
  | _, [] => some []
  | n + 1, c :: r =>
    if c = ' ' ∨ c = '\t' ∨ c = '\r' then lexLine n r
    else if c = ';' then some []
    else if c = '"' then (match quoted r with
      | some (l, q) => (lexLine n q).map (fun t => .text l :: t)
      | none => none)
    else if wordChar c then
      (lexLine n (takeWord [c] r).2).map (fun t => .word (String.ofList (takeWord [c] r).1) :: t)
    else if (c = '<' ∨ c = '>') then (match r with
      | d :: q => if d = c then (lexLine n q).map (fun t => .mark (String.ofList [c, c]) :: t) else none
      | [] => none)
    else if [',', '[', ']', '(', ')', '+', '-', '*', '&', '|', ':'].contains c then
      (lexLine n r).map (fun t => .mark (String.ofList [c]) :: t)
    else none

/-- The lines of a source. -/
def linesOf (cur : List Char) : List Char → List (List Char)
  | [] => [cur]
  | c :: r => if c = '\n' then cur :: linesOf [] r else linesOf (cur ++ [c]) r

/-! ## Numbers, names and expressions (R240, R242) -/

/-- The value of a digit of a base. -/
def digitOf (base : Nat) (c : Char) : Option Nat :=
  let v := if digit c then c.toNat - 48 else if 'a' ≤ c ∧ c ≤ 'f' then c.toNat - 87 else if 'A' ≤ c ∧ c ≤ 'F' then c.toNat - 55 else 99
  if v < base then some v else none

/-- Digits with underscores between them; `open_` says whether the last character was a digit. -/
def digits (base : Nat) (open_ : Bool) (v : Nat) : List Char → Option Nat
  | [] => if open_ then some v else none
  | c :: r =>
    if c = '_' then (if open_ then digits base false v r else none)
    else match digitOf base c with
      | some d => digits base true (v * base + d) r
      | none => none

/-- A number: decimal, 0x or 0b. -/
def numOf (w : String) : Option Nat :=
  match w.toList with
  | '0' :: 'x' :: r => digits 16 false 0 r
  | '0' :: 'b' :: r => digits 2 false 0 r
  | l => digits 10 false 0 l

/-- The number of a register of a kind: x and v 0 to 31, k 0 to 7, h 0 to 15. -/
def regOf (kind : Char) (w : String) : Option Nat :=
  match w.toList with
  | k :: r =>
    let v := (r.foldl (fun (a : Nat) c => a * 10 + (c.toNat - 48)) 0)
    let lim := if kind = 'k' then 8 else if kind = 'h' then 16 else 32
    if k = kind && ! r.isEmpty && r.all digit && decide (r.length = 1 ∨ (r.length = 2 ∧ r.head? ≠ some '0')) && decide (v < lim)
      then some v else none
  | [] => none

/-- A word spells a register. -/
def isReg (w : String) : Bool := ['x', 'v', 'k', 'h'].any (fun c => (regOf c w).isSome)

/-- A word may be a symbol: its characters, and no register or mnemonic. -/
def isSymbol (w : String) : Bool :=
  (match w.toList with
    | c :: r => (letter c || c == '_') && r.all (fun d => letter d || digit d || d == '_')
    | [] => false)
  && ! isReg w && ! forms.any (fun f => f.name == w)

/-- What an expression is read against: the symbols, the location counter, and the addresses of the instruction words of
its segment. -/
structure Env where
  syms : List (String × W64)
  loc : Nat
  code : List Nat
deriving DecidableEq, Repr

/-- The precedence of an operator, as in C; the spec lists the operators and gives no order. (Mark: PRESUMED, unsafe, log 116) -/
def levelOf (t : String) : Option Nat :=
  if t = "|" then some 0 else if t = "&" then some 1 else if t = "<<" ∨ t = ">>" then some 2
  else if t = "+" ∨ t = "-" then some 3 else if t = "*" then some 4 else none

/-- An operator's value in 64-bit two's complement; a shift count outside 0 to 63 is an error. -/
def apply (t : String) (a b : W64) : Option W64 :=
  if t = "|" then some (a ||| b) else if t = "&" then some (a &&& b)
  else if t = "<<" then (if b.toNat < 64 then some (a <<< b.toNat) else none)
  else if t = ">>" then (if b.toNat < 64 then some (a.sshiftRight b.toNat) else none)
  else if t = "+" then some (a + b) else if t = "-" then some (a - b) else some (a * b)

/-- An expression from a level on: with `acc`, what follows a left operand. The location counter is written as a full
stop. (Mark: PRESUMED, unsafe, log 116) -/
def exprAt (env : Env) : Nat → Nat → Option W64 → List Tok → Option (W64 × List Tok)
  | 0, _, _, _ => none
  | n + 1, lvl, none, ts =>
    if lvl < 5 then
      match exprAt env n (lvl + 1) none ts with
      | some (v, r) => exprAt env n lvl (some v) r
      | none => none
    else match ts with
      | .mark "-" :: r => (exprAt env n 5 none r).map (fun p => (0 - p.1, p.2))
      | .mark "(" :: r => (match exprAt env n 0 none r with
        | some (v, .mark ")" :: q) => some (v, q)
        | _ => none)
      | .word w :: r =>
        if w = "." then some (BitVec.ofNat 64 env.loc, r)
        else (match numOf w with
          | some v => if v < 2 ^ 64 then some (BitVec.ofNat 64 v, r) else none
          | none => (match env.syms.find? (fun p => p.1 == w) with
            | some p => some (p.2, r)
            | none => none))
      | _ => none
  | n + 1, lvl, some v, ts =>
    match ts with
    | .mark t :: r =>
      if levelOf t = some lvl then
        match exprAt env n (lvl + 1) none r with
        | some (u, q) => (match apply t v u with
          | some w => exprAt env n lvl (some w) q
          | none => none)
        | none => none
      else some (v, ts)
    | _ => some (v, ts)

/-- The value of a whole operand. -/
def value (env : Env) (ts : List Tok) : Option W64 :=
  match exprAt env (8 * ts.length + 16) 0 none ts with
  | some (v, []) => some v
  | _ => none

/-- A value in a range. -/
def ranged (lo hi : Int) (v : W64) : Option Int :=
  if lo ≤ v.toInt ∧ v.toInt ≤ hi then some v.toInt else none

/-- Operands, which commas separate; `cur` is the operand so far. -/
def operands (cur : List Tok) : List Tok → List (List Tok)
  | [] => [cur]
  | .mark "," :: r => cur :: operands [] r
  | t :: r => operands (cur ++ [t]) r
/-- The operands after a mnemonic: none where nothing follows. -/
def operandsOf (l : List Tok) : List (List Tok) := if l.isEmpty then [] else operands [] l

/-! ## Instructions (R241 to R243) -/

/-- A suffix that a group knows. -/
def Group.find (g : Group) (t : String) : Option Nat := (g.opts.find? (fun p => p.1 == t)).map (fun p => p.2)

/-- What the suffixes add to the word. -/
def takeSfx : List Group → List String → Option Nat
  | [], [] => some 0
  | [], _ => none
  | g :: gs, [] => match g.dflt, takeSfx gs [] with
    | some d, some v => some (d + v)
    | _, _ => none
  | g :: gs, t :: r => match g.find t with
    | some v => (takeSfx gs r).map (fun u => v + u)
    | none => match g.dflt, takeSfx gs (t :: r) with
      | some d, some u => some (d + u)
      | _, _ => none

/-- What an operand adds to the word. (Mark: DEDUCED, unsafe, log 117) -/
def Slot.put (env : Env) (s : Slot) (ts : List Tok) : Option Nat :=
  match s, ts with
  | .reg k lo, [.word w] => (regOf k w).map (fun n => n * 2 ^ lo)
  | .mem lo, [.mark "[", .word w, .mark "]"] => (regOf 'x' w).map (fun n => n * 2 ^ lo)
  | .memOff, .mark "[" :: .word w :: r =>
    if r.getLast? = some (.mark "]") then
      match regOf 'x' w, (value env (.word "0" :: r.dropLast)).bind (ranged (-2048) 2047) with
      | some n, some v => some (n * 2 ^ 16 + (v % 4096).toNat)
      | _, _ => none
    else none
  | .int lo hi bias width pos, l => ((value env l).bind (ranged lo hi)).map (fun v =>
      ((v - (bias : Int)) % 2 ^ width).toNat * 2 ^ pos)
  | .optInt hi _ pos, l => ((value env l).bind (ranged 0 hi)).map (fun v => v.toNat * 2 ^ pos)
  | .pair, [.word w] => match regOf 'x' w with
    | some n => if n % 2 = 0 then some (n / 2) else none
    | none => none
  | .target width, l => match value env l with
    | some v =>
      let d := (v - BitVec.ofNat 64 env.loc).toInt
      if env.code.contains v.toNat && decide (d % 4 = 0 ∧ -(2 ^ (width + 1) : Int) ≤ d ∧ d < 2 ^ (width + 1)) then
        some ((d / 4) % 2 ^ width).toNat
      else none
    | none => none
  | .sys, l => match l with
    | [.word w] => (match sysNames.find? (fun p => p.1 == w) with
      | some p => some (p.2 * 2 ^ 11)
      | none => ((value env l).bind (ranged 0 1023)).map (fun v => v.toNat * 2 ^ 11))
    | _ => ((value env l).bind (ranged 0 1023)).map (fun v => v.toNat * 2 ^ 11)
  | _, _ => none

/-- An operand may be left out, and is then 0. -/
def Slot.optional : Slot → Bool
  | .pair => true
  | .hidden => true
  | .optInt .. => true
  | _ => false

/-- What the operands add to the word. -/
def putAll (env : Env) : List Slot → List (List Tok) → Option Nat
  | [], [] => some 0
  | [], _ => none
  | s :: r, [] => if s.optional then putAll env r [] else none
  | s :: r, t :: ts => match s.put env t, putAll env r ts with
    | some a, some b => some (a + b)
    | _, _ => none

/-- A word split at its full stops. -/
def splitDots (cur : List Char) : List Char → List String
  | [] => [String.ofList cur]
  | c :: r => if c = '.' then String.ofList cur :: splitDots [] r else splitDots (cur ++ [c]) r

/-- The word of an instruction; an error where no form fits or the word is no instruction. (Mark: DEDUCED, unsafe, log 117) -/
def instruction (env : Env) (mnem : String) (ts : List Tok) : Option Nat :=
  match splitDots [] mnem.toList with
  | [] => none
  | name :: sfx =>
    (forms.filter (fun f => f.name == name)).findSome? (fun f =>
      match takeSfx f.sfx sfx, putAll env f.slots (operandsOf ts) with
      | some a, some b =>
        (match decode (f.base + a + b) with
          | .ok _ => some (f.base + a + b)
          | .error _ => none)
      | _, _ => none)

/-! ## The listing of a word (13 R253, R254) -/

/-- Every spelling of the suffixes with what it adds; one that may be left out is left out where it adds the same. -/
def spellings : List Group → List (String × Nat)
  | [] => [("", 0)]
  | g :: gs =>
    let tail := spellings gs
    (match g.dflt with
      | some d => tail.map (fun t => (t.1, d + t.2))
      | none => [])
    ++ g.opts.flatMap (fun p => tail.map (fun t => ("." ++ p.1 ++ t.1, p.2 + t.2)))

/-- A signed field as text. -/
def showInt (v : Int) : String := toString v
/-- A register as text. -/
def showReg (k : Char) (n : Nat) : String := String.ofList [k] ++ toString n

/-- The text of an operand of a word at `pc`, and the bits it covers; no text where it is left out. -/
def Slot.get (s : Slot) (pc w : Nat) : Option String × Nat :=
  let f := fun (pos n : Nat) => w / 2 ^ pos % 2 ^ n
  let sg := fun (n : Nat) (v : Nat) => if v < 2 ^ (n - 1) then (v : Int) else (v : Int) - 2 ^ n
  match s with
  | .reg k lo =>
    let n := if k = 'k' then 3 else if k = 'h' then 4 else 5
    (some (showReg k (f lo n)), f lo n * 2 ^ lo)
  | .mem lo => (some ("[" ++ showReg 'x' (f lo 5) ++ "]"), f lo 5 * 2 ^ lo)
  | .memOff =>
    let o := sg 12 (f 0 12)
    (some ("[" ++ showReg 'x' (f 16 5) ++ (if o < 0 then "" else "+") ++ showInt o ++ "]"), f 16 5 * 2 ^ 16 + f 0 12)
  | .int lo _ bias width pos =>
    let v := if lo < 0 then sg width (f pos width) else (f pos width : Int) + bias
    (some (showInt v), f pos width * 2 ^ pos)
  | .optInt _ width pos => (if f pos width = 0 then none else some (toString (f pos width)), f pos width * 2 ^ pos)
  | .pair => (if f 0 4 = 0 then none else some (showReg 'x' (2 * f 0 4)), f 0 4)
  | .hidden => (none, f 0 4)
  | .target width => (some (showInt ((pc : Int) + 4 * sg width (f 0 width))), f 0 width)
  | .sys => (some (match sysNames.find? (fun p => p.2 == f 11 10) with
      | some p => p.1
      | none => toString (f 11 10)), f 11 10 * 2 ^ 11)

/-- Texts with a separator. -/
def joined (sep : String) : List String → String
  | [] => ""
  | [a] => a
  | a :: r => a ++ sep ++ joined sep r

/-- A word at `pc` as viash writes it; none where the word is no instruction. -/
def listing (pc w : Nat) : Option String :=
  match decode w with
  | .error _ => none
  | .ok _ => forms.findSome? (fun f =>
      let ops := f.slots.map (fun s => s.get pc w)
      let bits := (ops.map (fun p => p.2)).foldl (· + ·) 0
      let text := joined ", " (ops.filterMap (fun p => p.1))
      (spellings f.sfx).findSome? (fun p =>
        if f.base + p.2 + bits = w then some (f.name ++ p.1 ++ (if text = "" then "" else " " ++ text)) else none))

/-! ## Segments (R244) -/

/-- A segment: its name, TYPE (1 code, 2 data, 3 launch, 4 lmap), LOADVA, the bytes emitted, newest first, with their
number, the location counter, and the addresses of its instruction words. -/
structure Seg where
  name : String
  kind : Nat
  va : Nat
  rev : List Byte
  len : Nat
  loc : Nat
  code : List Nat
deriving DecidableEq, Repr

/-- A declared object type (R248): name, ID, and the classes of the fixed part and of an element. -/
structure OType where
  name : String
  id : Nat
  fixed : List Nat
  elem : List Nat
deriving DecidableEq, Repr

/-- A launch record under way (R249): its bytes, how many levels it has, and which required keys it has. -/
structure Rec where
  bytes : List Byte
  levels : Nat
  mesh : Bool
  entry : Bool
deriving DecidableEq, Repr

/-- An assembly under way. `before` are the symbols and types of the pass before, and `code` its instruction addresses
by segment; `ok` falls at the first error. -/
structure Asm where
  segs : List Seg
  cur : Option Nat
  syms : List (String × W64)
  types : List OType
  lmap : Bool
  draft : Option Rec
  ok : Bool
  before : List (String × W64)
  beforeTypes : List OType
  beforeCode : List (List Nat)
deriving DecidableEq, Repr

/-- The segment that is open. -/
def Asm.seg (a : Asm) : Option Seg := a.cur.bind (fun i => a.segs[i]?)
/-- Replace the open segment. -/
def Asm.setSeg (a : Asm) (g : Seg) : Asm := match a.cur with
  | some i => { a with segs := a.segs.set i g }
  | none => a
/-- An error. -/
def Asm.fail (a : Asm) : Asm := { a with ok := false }
/-- An error unless a condition holds. -/
def Asm.check (a : Asm) (b : Bool) : Asm := if b then a else a.fail
/-- What expressions of the line are read against. -/
def Asm.env (a : Asm) : Env :=
  { syms := a.before, loc := (a.seg.map (fun g => g.loc)).getD 0, code := (a.cur.bind (fun i => a.beforeCode[i]?)).getD [] }
/-- A value, or an error and 0. -/
def Asm.val (a : Asm) (ts : List Tok) : Asm × W64 := match value a.env ts with
  | some v => (a, v)
  | none => (a.fail, 0)
/-- A value of a range, or an error and 0. -/
def Asm.int (a : Asm) (lo hi : Int) (ts : List Tok) : Asm × Nat := match (value a.env ts).bind (ranged lo hi) with
  | some v => (a, v.toNat)
  | none => (a.fail, 0)
/-- A symbol is defined; twice is an error. (Mark: DEDUCED, unsafe, log 117) -/
def Asm.define (a : Asm) (w : String) (v : W64) : Asm :=
  { a with syms := a.syms ++ [(w, v)], ok := a.ok && isSymbol w && ! a.syms.any (fun p => p.1 == w) }

/-- Emit bytes at the location counter; what an `.org` has skipped reads 0. -/
def Seg.emit (g : Seg) (l : List Byte) : Seg :=
  let gap := g.loc - g.va - g.len
  if l.isEmpty then g
  else { g with rev := l.reverse ++ List.replicate gap 0 ++ g.rev, len := g.len + gap + l.length, loc := g.loc + l.length }
/-- Emit an instruction word. -/
def Seg.emitWord (g : Seg) (w : Nat) : Seg := { g.emit (leBytes 4 w) with code := g.code ++ [g.loc] }
/-- Emit words of NOP. -/
def Seg.emitNops (g : Seg) : Nat → Seg
  | 0 => g
  | n + 1 => (g.emitWord (2 ^ 26)).emitNops n
/-- Advance to a multiple: with NOPs in a code segment, with zero bytes elsewhere. -/
def Seg.align (g : Seg) (n : Nat) : Seg :=
  let gap := (n - g.loc % n) % n
  if g.kind = 1 then g.emitNops (gap / 4) else g.emit (List.replicate gap 0)

/-- Emit into the open segment; outside any it is an error. -/
def Asm.emit (a : Asm) (l : List Byte) : Asm := match a.seg with
  | some g => a.setSeg (g.emit l)
  | none => a.fail

/-! ## Data (R245) -/

/-- An integer value of `n` bytes. -/
def dataInt (n : Nat) (v : W64) : Option (List Byte) :=
  if n = 8 then some (leBytes 8 v.toNat)
  else (ranged (-(2 ^ (8 * n - 1) : Int)) (2 ^ (8 * n) - 1) v).map (fun i => leBytes n (i % 2 ^ (8 * n)).toNat)

/-- A decimal number: its digits as a number, and the power of ten. -/
def decimal (w : List Char) : Option (Nat × Int) :=
  let whole := w.takeWhile (fun c => digit c || c == '_')
  let r1 := w.drop whole.length
  let frac := if r1.head? = some '.' then (r1.drop 1).takeWhile (fun c => digit c || c == '_') else []
  let r2 := if r1.head? = some '.' then r1.drop (1 + frac.length) else r1
  let ex : Option Int := match r2 with
    | [] => some 0
    | 'e' :: '-' :: d => (digits 10 false 0 d).map (fun n => -(n : Int))
    | 'e' :: '+' :: d => (digits 10 false 0 d).map (fun n => (n : Int))
    | 'e' :: d => (digits 10 false 0 d).map (fun n => (n : Int))
    | _ => none
  let fr : Option Nat := if frac.isEmpty then (if r1.head? = some '.' then none else some 0) else digits 10 false 0 frac
  match digits 10 false 0 whole, fr, ex with
  | some i, some f, some e =>
    let k := (frac.filter digit).length
    some (i * 10 ^ k + f, e - k)
  | _, _, _ => none

/-- A decimal number rounded once to a format, RNE; none where it overflows. (Mark: DEDUCED, unsafe, log 117) -/
def Fmt.ofDecimal (f : Fmt) (neg : Bool) (m : Nat) (e : Int) : Option Nat :=
  let r := if 0 ≤ e then f.roundFin 0 0 false neg (m * 10 ^ e.toNat) 0
    else
      let d := 10 ^ (-e).toNat
      let k := 200 + Nat.log2 d
      let n := m * 2 ^ k / d * 2 + (if m * 2 ^ k % d = 0 then 0 else 1)
      f.roundFin 0 0 false neg n (-(k : Int) - 1)
  if r.2 / 4 % 2 = 1 then none else some r.1

/-- A value of a floating-point directive. -/
def dataFloat (f : Fmt) (n : Nat) (ts : List Tok) : Option (List Byte) :=
  let neg := decide (ts.head? = some (.mark "-"))
  match (if neg then ts.drop 1 else ts) with
  | [.word w] =>
    let c : Option Nat :=
      if w = "inf" then (if f.kind = .ieee then some ((if neg then f.signBit else 0) + f.infCode) else none)
      else if w = "nan" then (if neg then none else some f.nanCode)
      else match numOf w with
        | some v => Fmt.ofDecimal f neg v 0
        | none => match decimal w.toList with
          | some (m, e) => Fmt.ofDecimal f neg m e
          | none => none
    c.map (fun v => leBytes n v)
  | _ => none

/-- Emit each operand as `f` makes bytes of it; an operand that it refuses is an error and takes `n` bytes. -/
def Asm.data (a : Asm) (n : Nat) (f : Asm → List Tok → Option (List Byte)) : List (List Tok) → Asm
  | [] => a
  | t :: r => (match f a t with
    | some l => a.emit l
    | none => (a.emit (List.replicate n 0)).fail).data n f r

/-! ## Object types (R246, R248) -/

/-- The class of a letter. -/
def classOf (c : Nat) : Option Nat :=
  if c = 0x64 then some 0 else if c = 0x73 then some 1 else if c = 0x77 then some 2 else if c = 0x68 then some 3 else none

/-- Classes packed two bits each, from bit 0. -/
def packed : List Nat → Nat
  | [] => 0
  | c :: r => c + 4 * packed r

/-- The words of a type. -/
def OType.words (t : OType) : List Nat := t.fixed ++ t.elem
/-- The type takes a long map. -/
def OType.long (t : OType) : Bool := decide (48 < t.words.length)
/-- The bytes of its long map. -/
def OType.map (t : OType) : List Byte :=
  leBytes (8 * ((t.words.length + 31) / 32)) (packed t.words)

/-- Its entry of the layout-map table, with the VA of its long map. -/
def OType.entry (t : OType) (va : Nat) : List Byte :=
  leBytes 8 (t.fixed.length + t.elem.length * 2 ^ 24 + (if t.long then 2 ^ 40 else 0) + 2 ^ 41)
  ++ leBytes 12 (if t.long then 0 else packed t.words) ++ leBytes 4 0 ++ leBytes 8 (if t.long then va else 0)

/-- A list of types with an element put in the order of the IDs. -/
def insertType (t : OType) : List OType → List OType
  | [] => [t]
  | u :: r => if t.id < u.id then t :: u :: r else u :: insertType t r

/-- The VAs of the long maps of types, from `va` on. -/
def mapVas (va : Nat) : List OType → List Nat
  | [] => []
  | t :: r => va :: mapVas (if t.long then va + t.map.length else va) r

/-- The table of 2^n entries at `va`, and the long maps after it. -/
def lmapBytes (n va : Nat) (types : List OType) : List Byte :=
  let l := types.foldr insertType []
  let at_ := l.zip (mapVas (va + 32 * 2 ^ n) l)
  (upTo 0 (2 ^ n)).flatMap (fun i => match at_.find? (fun p => p.1.id == i) with
    | some p => p.1.entry p.2
    | none => List.replicate 32 0)
  ++ l.flatMap (fun t => if t.long then t.map else [])

/-! ## Launch records (R249) -/

/-- Bytes put at a place of a record. -/
def putAt (l : List Byte) (o : Nat) (b : List Byte) : List Byte := l.take o ++ b ++ l.drop (o + b.length)
/-- Add a number to the word at a place. -/
def orAt (l : List Byte) (o v : Nat) : List Byte := putAt l o (leBytes 8 (Nat.lor (recNat l o 8) v))
/-- Replace bits of the word at a place. -/
def bitsInto (l : List Byte) (o lo n v : Nat) : List Byte :=
  putAt l o (leBytes 8 (putBits (BitVec.ofNat 64 (recNat l o 8)) lo n v).toNat)

/-- A record before its first key: VWT 1. -/
def Rec.start : Rec := { bytes := leBytes 192 (2 ^ 8), levels := 0, mesh := false, entry := false }

/-- The number of a name in a list. -/
def nameAt (l : List String) (ts : List Tok) : Option Nat := match ts with
  | [.word w] => (numbered 0 0 l).find? (fun p => p.1 == w) |>.map (fun p => p.2)
  | _ => none

/-- A `level` line: COUNT, DOM and SCOPE of the next descriptor. -/
def Asm.level (a : Asm) (r : Rec) (c d s : List Tok) : Asm :=
  let (a1, n) := a.int 0 (2 ^ 20 - 1) c
  match nameAt ["core", "pair", "octet", "cluster", "quadrant", "die", "module", "pod"] d,
      nameAt ["thread", "cluster", "module", "system"] s with
  | some dom, some sc =>
    if 8 ≤ r.levels then a1.fail
    else { a1 with draft := some { r with levels := r.levels + 1, bytes := orAt r.bytes (64 + 8 * r.levels) (n + dom * 2 ^ 24 + sc * 2 ^ 27) } }
  | _, _ => a1.fail

/-- A key that sets bits of a word. -/
def Asm.field (a : Asm) (r : Rec) (o lo n : Nat) (hi : Int) (t : List Tok) : Asm :=
  let (a1, v) := a.int 0 hi t
  { a1 with draft := some { r with bytes := bitsInto r.bytes o lo n v } }
/-- A key that sets a word. -/
def Asm.whole (a : Asm) (r : Rec) (o : Nat) (t : List Tok) : Asm :=
  let (a1, v) := a.val t
  { a1 with draft := some { r with bytes := putAt r.bytes o (leBytes 8 v.toNat) } }

/-- A line of a launch record. (Mark: DEDUCED, unsafe, log 117) -/
def Asm.key (a : Asm) (r : Rec) (k : String) (ops : List (List Tok)) : Asm :=
  match k, ops with
  | "level", [c, d, s] => a.level r c d s
  | "mesh", [w, h] =>
    let (a1, x) := a.int 0 31 w
    let (a2, y) := a1.int 0 31 h
    { a2 with draft := some { r with mesh := true, bytes := bitsInto (bitsInto r.bytes 0 16 5 x) 0 24 5 y } }
  | "entry", [t] => a.whole { r with entry := true } 8 t
  | "prio", [t] => a.field r 0 4 3 7 t
  | "vwt", [t] => a.field r 0 8 4 15 t
  | "seed", [t] => a.whole r 16 t
  | "modmask", [t] => a.whole r 32 t
  | "ovfbase", [t] => a.whole r 40 t
  | "spillb", [t] => a.whole r 48 t
  | "partw", [n, k] =>
    let (a1, x) := a.int 0 32 n
    let (a2, y) := a1.int 0 64 k
    let code : Option Nat := if x = 0 then some 0 else if x = 8 then some 1 else if x = 16 then some 2 else if x = 32 then some 3 else none
    (match code with
      | some c => ({ a2 with draft := some { r with bytes := putAt r.bytes 24 (leBytes 8 (c + y / 16 * 4)) } }).check (decide (y % 16 = 0))
      | none => a2.fail)
  | "ctrsel", l =>
    let c := l.map (fun t => (a.int 0 255 t).2)
    ({ a with draft := some { r with bytes := putAt r.bytes 56 (c.flatMap (leBytes 1)) } }).check
      (decide (1 ≤ l.length ∧ l.length ≤ 8) && l.all (fun t => (a.int 0 255 t).1.ok))
  | "arg", [i, v] =>
    let (a1, n) := a.int 0 7 i
    a1.whole r (128 + 8 * n) v
  | _, _ => a.fail

/-- The launch that a record would be, for the checks of R98. -/
def Rec.launch (bytes : List Byte) : Launch :=
  { ten := 0, ctxid := 0, record := bytes, recVa := 0, prio := 0, sub := none, queue := 0, state := .queued, since := 0, origin := 0,
    placedAt := none, ended := none, faulted := false, held := false, saved := [], evicted := [], records := [], finished := [] }

/-- The end of a record: NLEV is set, the record is checked, and it is emitted. -/
def Asm.endLaunch (a : Asm) (r : Rec) : Asm :=
  let b := bitsInto r.bytes 0 0 4 r.levels
  ({ (a.emit b) with draft := none }).check (r.mesh && r.entry && decide (1 ≤ r.levels) && ! (Rec.launch b).malformed)

/-! ## Directives -/

/-- The most recently opened segment of a kind. -/
def lastOf (kind i : Nat) : List Seg → Option Nat
  | [] => none
  | g :: r => match lastOf kind (i + 1) r with
    | some j => some j
    | none => if g.kind = kind then some i else none

/-- A `.segment` line. -/
def Asm.opens (a : Asm) (n k v : List Tok) : Asm :=
  let (a1, va) := a.val v
  match n, nameAt ["code", "data", "launch", "lmap"] k with
  | [.word w], some kind =>
    let g : Seg := { name := w, kind := kind + 1, va := va.toNat, rev := [], len := 0, loc := va.toNat, code := [] }
    ({ a1 with segs := a1.segs ++ [g], cur := some a1.segs.length }).check
      (decide (va.toNat % (if kind = 0 then 65536 else 64) = 0) && ! a.segs.any (fun h => h.name == w))
  | _, _ => a1.fail

/-- Resume a segment. -/
def Asm.resume (a : Asm) (i : Option Nat) : Asm := match i with
  | some _ => { a with cur := i }
  | none => a.fail

/-- A line with a directive. (Mark: DEDUCED, unsafe, log 117) -/
def Asm.directive (a : Asm) (d : String) (ops : List (List Tok)) : Asm :=
  let inSeg := fun (k : Seg → Asm) => match a.seg with
    | some g => k g
    | none => a.fail
  let ints := fun (n : Nat) => (a.data n (fun b t => (value b.env t).bind (dataInt n)) ops).check (! ops.isEmpty)
  let reals := fun (f : Fmt) (n : Nat) => (a.data n (fun _ t => dataFloat f n t) ops).check (! ops.isEmpty)
  match d, ops with
  | ".segment", [n, k, v] => a.opens n k v
  | ".section", [[.word w]] => a.resume ((indexed 0 a.segs).findSome? (fun p => if p.2.name == w then some p.1 else none))
  | ".text", [] => a.resume (lastOf 1 0 a.segs)
  | ".data", [] => a.resume (lastOf 2 0 a.segs)
  | ".org", [t] => inSeg (fun g =>
      let (a1, v) := a.val t
      (a1.setSeg { g with loc := max g.loc v.toNat }).check (decide (g.loc ≤ v.toNat)))
  | ".align", [t] => inSeg (fun g =>
      let (a1, v) := a.val t
      let n := v.toNat
      if n = 0 ∨ Nat.log2 n ≥ 32 ∨ 2 ^ Nat.log2 n ≠ n then a1.fail
      else (a1.setSeg (g.align n)).check (decide (g.kind ≠ 1 ∨ n < 4 ∨ g.loc % 4 = 0)))
  | ".equ", [[.word w], t] => (match value a.env t with
      | some v => a.define w v
      | none => a.fail)
  | ".global", [[.word w]] => a.check (a.before.any (fun p => p.1 == w))
  | ".byte", _ => ints 1
  | ".half", _ => ints 2
  | ".word", _ => ints 4
  | ".dword", _ => ints 8
  | ".fp32", _ => reals fp32 4
  | ".fp16", _ => reals fp16 2
  | ".bf16", _ => reals bf16 2
  | ".e4m3", _ => reals e4m3 1
  | ".ascii", _ => (a.data 0 (fun _ t => match t with
      | [.text l] => some (l.map (BitVec.ofNat 8))
      | _ => none) ops).check (! ops.isEmpty)
  | ".space", n :: r =>
      let (a1, k) := a.int 0 (2 ^ 32) n
      let (a2, f) := match r with
        | [t] => a1.int 0 255 t
        | [] => (a1, 0)
        | _ => (a1.fail, 0)
      a2.emit (List.replicate k (BitVec.ofNat 8 f)) |>.check a.seg.isSome
  | ".type", [[.word w], i, [.text f], [.text e]] =>
      let (a1, n) := a.int 0 (2 ^ 24 - 1) i
      let t : OType := { name := w, id := n, fixed := f.filterMap classOf, elem := e.filterMap classOf }
      ({ a1.define w (BitVec.ofNat 64 n) with types := a1.types ++ [t] }).check
        ((f ++ e).all (fun c => (classOf c).isSome) && decide (f.length + e.length ≤ 4096)
          && ! a1.types.any (fun u => u.id == n))
  | ".lmap", [t] => inSeg (fun g =>
      let (a1, n) := a.int 0 16 t
      ({ a1.emit (lmapBytes n g.loc a.beforeTypes) with lmap := true }).check
        (! a.lmap && decide (g.kind = 4 ∧ g.loc % 4096 = 0) && a.beforeTypes.all (fun u => decide (u.id < 2 ^ n))))
  | ".launch", [[.word w]] => inSeg (fun g =>
      let h := g.align 64
      ({ (a.setSeg h).define w (BitVec.ofNat 64 h.loc) with draft := some .start }).check (decide (g.kind = 3)))
  | _, _ => a.fail

/-- A line after its label. -/
def Asm.body (a : Asm) (ts : List Tok) : Asm :=
  match ts with
  | [] => a
  | .word m :: r =>
    (match a.draft with
      | some k => if m = ".endlaunch" then (a.endLaunch k).check r.isEmpty else a.key k m (operandsOf r)
      | none =>
        if m.toList.head? = some '.' then a.directive m (operandsOf r)
        else match a.seg with
          | none => a.fail
          | some g =>
            let w := instruction a.env m r
            (a.setSeg (g.emitWord (w.getD 0))).check (w.isSome && decide (g.kind = 1 ∧ g.loc % 4 = 0)))
  | _ => a.fail

/-- A line: a label has the address at which the next byte of its segment is placed, and a location counter in a code
segment is a multiple of 4. (Mark: DEDUCED, unsafe, log 117) -/
def Asm.line (a : Asm) (l : List Char) : Asm :=
  let b := match lexLine (l.length + 1) l with
    | none => a.fail
    | some (.word w :: .mark ":" :: r) => (match a.seg, a.draft with
      | some g, none => (a.define w (BitVec.ofNat 64 g.loc)).body r
      | _, _ => (a.body r).fail)
    | some ts => a.body ts
  b.check ((b.seg.map (fun g => decide (g.kind ≠ 1 ∨ g.loc % 4 = 0))).getD true)

/-! ## Passes and the container (R250; 05 R87) -/

/-- One pass over the lines, with what the pass before has found. -/
def pass (ls : List (List Char)) (p : Asm) : Asm :=
  let a := ls.foldl Asm.line
    { segs := [], cur := none, syms := [], types := [], lmap := false, draft := none, ok := true, before := p.syms,
      beforeTypes := p.types, beforeCode := p.segs.map (fun g => g.code) }
  a.check a.draft.isNone

/-- Passes until the symbols, the types and the instruction addresses stand; `n` bounds them. (Mark: DEDUCED, unsafe, log 117) -/
def passes (ls : List (List Char)) : Nat → Asm → Option (List Seg)
  | 0, _ => none
  | n + 1, p =>
    let a := pass ls p
    if a.syms = p.syms ∧ a.types = p.types ∧ a.segs.map (fun g => g.code) = p.segs.map (fun g => g.code) then
      (if a.ok then some a.segs else none)
    else passes ls n a

/-- The offsets of segments in the container, each at the next multiple of 64. -/
def offsets (o : Nat) : List Seg → List Nat
  | [] => []
  | g :: r =>
    let p := (o + 63) / 64 * 64
    p :: offsets (p + g.len) r

/-- The segments' bytes, with the gaps before them. -/
def placed (o : Nat) : List Seg → List Byte
  | [] => List.replicate ((64 - o % 64) % 64) 0
  | g :: r =>
    let p := (o + 63) / 64 * 64
    List.replicate (p - o) 0 ++ g.rev.reverse ++ placed (p + g.len) r

/-- The container: header, segment table and segment bytes; MODULUS and every SIG are zeros. -/
def container (gs : List Seg) : Option (List Byte) :=
  let n := gs.length
  if n = 0 ∨ 64 < n ∨ gs.any (fun g => g.len == 0) then none
  else
    let o := 512 + 448 * n
    let rows := (gs.zip (offsets o gs)).flatMap (fun p =>
      leBytes 8 p.1.kind ++ leBytes 8 p.1.va ++ leBytes 8 p.1.len ++ leBytes 8 p.2 ++ sha256 p.1.rev.reverse ++ List.replicate 384 0)
    let tail := rows ++ placed o gs
    some (leBytes 4 0x4E435244 ++ leBytes 2 1 ++ leBytes 2 n ++ leBytes 8 (512 + tail.length) ++ List.replicate 496 0 ++ tail)

/-- A source file assembled; none on any error. -/
def assemble (src : String) : Option (List Byte) :=
  let ls := linesOf [] src.toList
  let none_ : Asm := { segs := [], cur := none, syms := [], types := [], lmap := false, draft := none, ok := true, before := [],
                       beforeTypes := [], beforeCode := [] }
  (passes ls (ls.length + 3) none_).bind container

end Sys2Proof.Machine.Viash
end

