-- ==== Sys2Proof/Tests/Slice0.lean ====
section
/-! SUPPORT. Tests: an ill-formed term for each check of WellFormed, words written out from the spec's encodings, small
runs of one step each, and for each statement a state and operands that meet its hypotheses (witness_…). Expected
values are worked out by hand from the rule that a comment names. -/

namespace Sys2Proof.Tests

open Sys2Proof Sys2Proof.Machine

-- One proof after the other: many kernel evaluations at once need more memory than the check has.
set_option Elab.async false

/-! ## Helpers -/

/-- The state that an instruction or event leaves; the reset state where it answers none. -/
def after (o : Out) : State := match o with
  | .next t => t
  | _ => State.reset
def run (i : Instr) (s : State) : State := after (exec i s)

/-- A thread of tenant 0 on core 1, about to issue, its trap vector set. -/
def thread : State :=
  let s := State.reset.loadThread
  s.setCore 1 { s.coreAt 1 with tvec := 0x200000000 }

/-- The same with registers. -/
def regs (l : List (Nat × W64)) : State := thread.setMe { thread.me with x := l }

/-- The same with a changed context. -/
def ctxOf (f : Ctx → Ctx) : State := thread.setMe (f thread.me)

/-- A service core at PL 1 with registers. -/
def service (l : List (Nat × W64)) : State :=
  let s : State := { State.reset with core := 4096, ctx := 0 }
  s.setCtx 4096 0 { Ctx.reset with live := true, kind := .service, status := statusStart 1, x := l }

/-- An address in the own core's pool. -/
def pool (o : Nat) : W64 := BitVec.ofNat 64 (0xFF * 2 ^ 48 + o)

/-- The trap cause, value and pc of the issuing context. -/
def cause (s : State) : Nat × Nat := (s.me.tcause.toNat, s.me.tval.toNat)

/-! ## Ill-formed terms (12 R233 steps 4 and 5) -/

theorem test_illformed_types : [Instr.mma 0 0 0 0 0 0, .mma 0 0 0 7 0 0, .vaddF 3 0 0 0 0, .vsubF 3 0 0 0 0, .vmulF 3 0 0 0 0,
    .vfma 3 0 0 0 0, .vminF 3 0 0 0 0, .vmaxF 3 0 0 0 0, .vdiv 3 0 0 0 0, .vsqrt 3 0 0 0, .vabsF 3 0 0 0, .vaddI 6 0 0 0 0,
    .vsubI 6 0 0 0 0, .vmulI 6 0 0 0 0, .vmulh 6 0 0 0 0, .vminI 6 0 0 0 0, .vmaxI 6 0 0 0 0, .vabsI 3 0 0 0, .vand 3 0 0 0 0,
    .vor 3 0 0 0 0, .vxor 3 0 0 0 0, .vshl 3 0 0 0 0, .vshr 3 0 0 0 0, .vshra 3 0 0 0 0, .vcmpeq 3 0 0 0 0 0, .vcmpne 6 1 0 0 0 0,
    .vcmplt 3 0 0 0 0 0, .vcmple 6 1 0 0 0 0, .vsel 3 0 0 0 0, .vld 3 0 0, .vst 3 0 0, .vlds 3 0 0, .vsts 3 0 0, .vgath 3 0 0 0,
    .vscat 3 0 0 0, .vbcast 3 0 0, .vperm 3 0 0 0 0, .vslide 3 0 0 0, .vred 3 0 0 0 0 0, .vmovx 6 0 0 0, .vidx 6 0 0,
    .vcvt 6 0 0 0 0 0 0, .vqnt 2 0 0 0 0, .vqnt 7 0 0 0 0, .vdqnt 2 0 0 0 0, .vsfu 3 0 0 0 0].all (fun i => ! i.wf) = true := by
  decide

theorem test_illformed_fields : [Instr.fadd 0 0 0 7 0, .fsub 0 0 0 7 0, .fmul 0 0 0 7 0, .fdiv 0 0 0 7 0, .fsqrt 0 0 7 0,
    .ffma 0 0 0 7 0, .fcvt 0 0 1 0 7, .fcvt 0 0 1 1 0, .fcvt 0 0 2 3 0, .ld 0 0 4 0 0, .ld 0 0 3 1 0, .st 0 0 4 0, .amo 0 0 0 0 11,
    .amod 0 0 0 0 11, .red 0 0 0 0, .red 0 0 0 9, .red 0 0 0 11, .redf 0 0 0 0 3, .fenceh 5, .fence 5, .relq 0 0 0, .heir 0 0 0 0,
    .estq 0 0 0 0, .recv 0 1 1, .hwaitT 0 0, .advp 0 0, .advc 0 0, .advcL 0 0, .cstat 0 0 6, .mdrain 0 0 3 0 0, .mdrain 0 0 0 0 7,
    .mdrain 0 1 1 0 0, .mdrain 0 1 0 1 0, .mmap 1, .vcvt 0 0 0 0 0 6 0, .vcvt 0 0 0 1 1 0 0, .vsfu 0 0 0 9 0].all
    (fun i => ! i.wf) = true := by
  decide

/-- A row without an encoding has no word. -/
theorem test_illformed_event : (Instr.coldReset).wf = false := by decide

/-! ## Words written out from the encodings (12 R234, R235; 13 R251, R252) -/

theorem test_decode_integer : decode 0x04642DC6 = .ok (.sel 3 4 5 6) ∧ decode 0x04E84ECB = .ok (.ext 7 8 9 11)
    ∧ decode 0x18640085 = .ok (.shi 3 4 2 5) := ⟨rfl, rfl, rfl⟩
theorem test_decode_float : decode 0x28A63801 = .ok (.fadd 5 6 7 0 1) ∧ decode 0x28A64A42 = .ok (.fcvt 5 6 2 1 1) := ⟨rfl, rfl⟩
theorem test_decode_versions : decode 0x34A63840 = .ok (.stv 5 6 7) := rfl
theorem test_decode_jump : decode 0x54010000 = .ok (.jalr 0 1 0) := rfl
theorem test_decode_system : decode 0x58009000 = .ok (.trap 0x12) ∧ decode 0x58A020C0 = .ok (.mfs 5 4) ∧ decode 0x58A02900 = .ok (.mts 5 5)
    ∧ decode 0x58A00203 = .ok (.rdctr 5 3) ∧ decode 0x5CA63800 = .ok (.start 5 6 7) ∧ decode 0x5C060080 = .ok (.cont 6)
    ∧ decode 0x5CA600C0 = .ok (.launch 5 6) := ⟨rfl, rfl, rfl, rfl, rfl, rfl, rfl⟩
theorem test_decode_sync : decode 0x60A63801 = .ok (.amo 5 6 7 0 1) ∧ decode 0x60A6380B = .ok (.amoLock 5 6 7)
    ∧ decode 0x60A63841 = .ok (.amod 5 6 7 0 1) ∧ decode 0x60063881 = .ok (.red 6 7 0 1) ∧ decode 0x60A638C0 = .ok (.redf 5 6 7 0 0)
    ∧ decode 0x60000103 = .ok (.arrive 3) ∧ decode 0x60000243 = .ok (.fence 3) ∧ decode 0x60A63AC0 = .ok (.ecwait 5 6 7) :=
  ⟨rfl, rfl, rfl, rfl, rfl, rfl, rfl, rfl⟩
theorem test_decode_estates : decode 0x64A63800 = .ok (.hold 5 6 7) ∧ decode 0x64A60041 = .ok (.relq 5 6 1)
    ∧ decode 0x64A63882 = .ok (.heir 5 6 7 2) ∧ decode 0x64A638C0 = .ok (.promise 5 6 7) ∧ decode 0x64A63908 = .ok (.estq 5 6 7 1)
    ∧ decode 0x64A03901 = .ok (.estqPop 5 7) ∧ decode 0x64A60140 = .ok (.orphcl 5 6) := ⟨rfl, rfl, rfl, rfl, rfl, rfl, rfl⟩
theorem test_decode_messages : decode 0x68A60000 = .ok (.send 5 6) ∧ decode 0x68A00041 = .ok (.recv 5 0 1) := ⟨rfl, rfl⟩
theorem test_decode_rings : decode 0x70806000 = .ok (.hdef 2 6) ∧ decode 0x70820080 = .ok (.advp 2 1)
    ∧ decode 0x70085042 = .ok (.hwaitT 4 5) ∧ decode 0x700850C1 = .ok (.advcL 4 5) ∧ decode 0x70805100 = .ok (.hstat 2 5) :=
  ⟨rfl, rfl, rfl, rfl, rfl⟩
theorem test_decode_copies : decode 0x74A60000 = .ok (.bcopy 5 6) ∧ decode 0x74A600C1 = .ok (.cstat 5 6 1) := ⟨rfl, rfl⟩
theorem test_decode_matrix : decode 0x78084578 = .ok (.mma 2 1 5 3 1 1) ∧ decode 0x78880000 = .ok (.mdrain 4 0 0 0 0)
    ∧ decode 0x790A6000 = .ok (.wbload 5 6) ∧ decode 0x7A100380 = .ok (.mstat 8 7) := ⟨rfl, rfl, rfl, rfl⟩
theorem test_decode_privileged : decode 0x7CA60001 = .ok (.replay 5 6 1) ∧ decode 0x7CA63880 = .ok (.kill 5 6 7)
    ∧ decode 0x7CA60100 = .ok (.moncall 5 6) := ⟨rfl, rfl, rfl⟩
theorem test_decode_vector : decode 0x80C90A61 = .ok (.vfma 1 4 5 6 1) ∧ decode 0x9089C003 = .ok (.vlds 1 7 3)
    ∧ decode 0x90414003 = .ok (.vst 0 5 3) ∧ decode 0x8D00C221 = .ok (.vsel 0 3 1 2 1) ∧ decode 0x8E41C400 = .ok (.kpopc 7 2 0)
    ∧ decode 0x95024801 = .ok (.vmovx 0 9 4 1) ∧ decode 0x981A1201 = .ok (.vcvt 3 8 9 0 0 0 1)
    ∧ decode 0x985A92B1 = .ok (.vqnt 3 10 9 11 1) ∧ decode 0x98C08601 = .ok (.vsfu 0 2 3 0 1)
    ∧ decode 0x9C014003 = .ok (.vclaim 5 3) ∧ decode 0x9CC10000 = .ok (.vpopq 4 0) :=
  ⟨rfl, rfl, rfl, rfl, rfl, rfl, rfl, rfl, rfl, rfl, rfl⟩

/-- The steps of R233 in their order. -/
theorem test_decode_refusals : decode 0 = .error .majorZero ∧ decode 0xA0000000 = .error .majorReserved
    ∧ decode (0x04000000 + 30 * 64) = .error .opUnassigned ∧ decode 0x98D80001 = .error .typeIllegal
    ∧ decode 0x2800000E = .error .fieldIllegal ∧ decode 0x04000001 = .error .reservedNonzero := ⟨rfl, rfl, rfl, rfl, rfl, rfl⟩

/-- The first step after a word is placed runs it (R233): SEL of x4, x5 by x6 = 0 writes 0 to x3 and goes on at pc + 4. -/
theorem test_step : (match step (State.reset.withFetchWord 32 0x04642DC6) with
    | .next t => t.me.pc
    | _ => 0) = 0x100000004 := by decide

/-- StepRunsDecoded: a context that issues, and the word it fetches. -/
theorem witness_StepRunsDecoded :
    let s := State.reset.withFetchWord 32 0x04642DC6
    let s1 := s.nextTurn.2.pass s.nextTurn.1.dt
    let u := (s1.at 1 0).setMyCore { (s1.at 1 0).myCore with turn := 0 }
    s.nextTurn.1.event = none ∧ s.power.off = false ∧ u.still = false ∧ u.me.yielded = false ∧ u.takeFirst = none
      ∧ u.heldBack = none ∧ u.me.stall = 0
      ∧ (match (u.setMe { u.me with ir := none }).fetch with
        | .word w _ => decide (w = 0x04642DC6)
        | _ => false) = true := by decide
theorem witness_StepRunsDecoded_event : Instr.isEvent .tackBoundary = true ∧ State.reset.power.off = false := by decide
theorem witness_StepRunsDecoded_off :
    let s : State := { State.reset with power := { Power.reset with off := true } }
    s.power.off = true ∧ s.nextTurn.1.event = none := by decide
theorem test_power_off : (match step { State.reset with power := { Power.reset with off := true } } with
    | .fault f => decide (f = .poweredOff)
    | _ => false) = true := by decide
theorem witness_StepsKeepMemoryForm : Memory.wf thread.mem = true ∧ (match step thread with
    | .next t => Memory.wf t.mem
    | _ => false) = true := by decide
theorem witness_EncodeAndDecodeAgree : 0x04642DC6 < 2 ^ 32 ∧ decode 0x04642DC6 = .ok (.sel 3 4 5 6) := ⟨by decide, rfl⟩

/-! ## Integer instructions (14 R257, R258; 12 R237) -/

theorem test_add_wraps : (run (.add 3 1 2) (regs [(1, 0xFFFFFFFFFFFFFFFF), (2, 2)])).rd 3 = 1 := by decide
theorem test_sub : (run (.sub 1 1 2) (regs [(1, 3), (2, 5)])).rd 1 = 0xFFFFFFFFFFFFFFFE := by decide
theorem test_mul : (run (.mul 3 1 2) (regs [(1, 0x100000001), (2, 0x100000001)])).rd 3 = 0x200000001 := by decide
theorem test_mulh_signed : (run (.mulh 3 1 2) (regs [(1, 0xFFFFFFFFFFFFFFFF), (2, 7)])).rd 3 = 0xFFFFFFFFFFFFFFFF
    ∧ (run (.mulhn 3 1 2) (regs [(1, 0xFFFFFFFFFFFFFFFF), (2, 7)])).rd 3 = 6 := by decide
theorem test_div_corners : (run (.div 3 1 2) (regs [(1, 0x8000000000000000), (2, 0xFFFFFFFFFFFFFFFF)])).rd 3 = 0x8000000000000000
    ∧ (run (.div 3 1 2) (regs [(1, 9)])).rd 3 = 0xFFFFFFFFFFFFFFFF ∧ (run (.rem 3 1 2) (regs [(1, 9)])).rd 3 = 9
    ∧ (run (.rem 3 1 2) (regs [(1, 0x8000000000000000), (2, 0xFFFFFFFFFFFFFFFF)])).rd 3 = 0 := by decide
theorem test_div_rounds_to_zero : (run (.div 3 1 2) (regs [(1, 0xFFFFFFFFFFFFFFF9), (2, 2)])).rd 3 = 0xFFFFFFFFFFFFFFFD
    ∧ (run (.rem 3 1 2) (regs [(1, 0xFFFFFFFFFFFFFFF9), (2, 2)])).rd 3 = 0xFFFFFFFFFFFFFFFF := by decide
theorem test_divn : (run (.divn 3 1 2) (regs [(1, 0xFFFFFFFFFFFFFFF9), (2, 2)])).rd 3 = 0x7FFFFFFFFFFFFFFC
    ∧ (run (.remn 3 1 2) (regs [(1, 0xFFFFFFFFFFFFFFF9), (2, 2)])).rd 3 = 1 := by decide
theorem test_logic : (run (.and 3 1 2) (regs [(1, 12), (2, 10)])).rd 3 = 8 ∧ (run (.or 3 1 2) (regs [(1, 12), (2, 10)])).rd 3 = 14
    ∧ (run (.xor 3 1 2) (regs [(1, 12), (2, 10)])).rd 3 = 6 ∧ (run (.andn 3 1 2) (regs [(1, 12), (2, 10)])).rd 3 = 4 := by decide
theorem test_shifts : (run (.shl 3 1 2) (regs [(1, 3), (2, 65)])).rd 3 = 6
    ∧ (run (.shr 3 1 2) (regs [(1, 0x8000000000000000), (2, 63)])).rd 3 = 1
    ∧ (run (.shra 3 1 2) (regs [(1, 0x8000000000000000), (2, 63)])).rd 3 = 0xFFFFFFFFFFFFFFFF
    ∧ (run (.rotl 3 1 2) (regs [(1, 0x8000000000000001), (2, 1)])).rd 3 = 3 := by decide
theorem test_minmax : (run (.min 3 1 2) (regs [(1, 0xFFFFFFFFFFFFFFFF), (2, 2)])).rd 3 = 0xFFFFFFFFFFFFFFFF
    ∧ (run (.max 3 1 2) (regs [(1, 0xFFFFFFFFFFFFFFFF), (2, 2)])).rd 3 = 2
    ∧ (run (.minn 3 1 2) (regs [(1, 0xFFFFFFFFFFFFFFFF), (2, 2)])).rd 3 = 2
    ∧ (run (.maxn 3 1 2) (regs [(1, 0xFFFFFFFFFFFFFFFF), (2, 2)])).rd 3 = 0xFFFFFFFFFFFFFFFF := by decide
theorem test_slt : (run (.slt 3 1 2) (regs [(1, 0xFFFFFFFFFFFFFFFF), (2, 2)])).rd 3 = 1
    ∧ (run (.sltn 3 1 2) (regs [(1, 0xFFFFFFFFFFFFFFFF), (2, 2)])).rd 3 = 0 := by decide
theorem test_sel : (run (.sel 3 1 2 4) (regs [(1, 5), (2, 6)])).rd 3 = 6
    ∧ (run (.sel 3 1 2 4) (regs [(1, 5), (2, 6), (4, 1)])).rd 3 = 5 := by decide
theorem test_counts : (run (.clz 3 1) (regs [(1, 1)])).rd 3 = 63 ∧ (run (.clz 3 1) (regs [])).rd 3 = 64
    ∧ (run (.ctz 3 1) (regs [(1, 8)])).rd 3 = 3 ∧ (run (.ctz 3 1) (regs [])).rd 3 = 64
    ∧ (run (.popc 3 1) (regs [(1, 0xF0F)])).rd 3 = 8 := by decide
theorem test_bitfields : (run (.ext 3 1 2 7) (regs [(1, 0x12345), (2, 4)])).rd 3 = 0x34
    ∧ (run (.ins 3 1 2 7) (regs [(1, 0xAB), (2, 8), (3, 0xFFFFFFFF)])).rd 3 = 0xFFFFABFF := by decide
theorem test_adds_saturates : (run (.adds 3 1 2) (regs [(1, 0x7FFFFFFFFFFFFFFF), (2, 1)])).rd 3 = 0x7FFFFFFFFFFFFFFF
    ∧ (run (.adds 3 1 2) (regs [(1, 0x8000000000000000), (2, 0xFFFFFFFFFFFFFFFF)])).rd 3 = 0x8000000000000000 := by decide
theorem test_immediates : (run (.addi 3 1 0xFFFF) (regs [(1, 5)])).rd 3 = 4 ∧ (run (.andi 3 1 0xFFFF) (regs [(1, 0x12345)])).rd 3 = 0x2345
    ∧ (run (.ori 3 1 0x8000) (regs [(1, 1)])).rd 3 = 0x8001 ∧ (run (.xori 3 1 3) (regs [(1, 5)])).rd 3 = 6
    ∧ (run (.slti 3 1 0xFFFF) (regs [(1, 0)])).rd 3 = 0 ∧ (run (.sltni 3 1 0xFFFF) (regs [(1, 0)])).rd 3 = 1 := by decide
theorem test_shi : (run (.shi 3 1 0 4) (regs [(1, 0xF)])).rd 3 = 0xF0 ∧ (run (.shi 3 1 1 4) (regs [(1, 0xF0)])).rd 3 = 0xF
    ∧ (run (.shi 3 1 2 63) (regs [(1, 0x8000000000000000)])).rd 3 = 0xFFFFFFFFFFFFFFFF
    ∧ (run (.shi 3 1 3 4) (regs [(1, 0xF000000000000001)])).rd 3 = 0x1F := by decide
theorem test_movw : (run (.lit 3 2 0xABCD) (regs [(3, 7)])).rd 3 = 0xABCD00000000
    ∧ (run (.litk 3 1 0xABCD) (regs [(3, 0x1111222233334444)])).rd 3 = 0x11112222ABCD4444 := by decide
theorem test_x0 : (run (.addi 0 1 1) (regs [(1, 5)])).rd 0 = 0 ∧ (run (.addi 0 1 1) (regs [(1, 5)])).me.x = [(1, 5)] := by decide
theorem witness_RegisterFile : { Ctx.reset with status := 2 }.ui = true ∧ Ctx.reset.ui = false
    ∧ ({ Ctx.reset with status := 2 }.wr 24 9).rd 24 = 9 ∧ ({ Ctx.reset with status := 2 }.wr 23 9).shadow = [] := by decide

/-! ## Branches and jumps (14 R265, R266; 12 R232) -/

theorem test_branches : (run (.beq 1 2 4) (regs [])).me.pc = 0x100000010 ∧ (run (.bne 1 2 4) (regs [])).me.pc = 0x100000004
    ∧ (run (.blt 1 2 0xFFFF) (regs [(1, 0xFFFFFFFFFFFFFFFF)])).me.pc = 0xFFFFFFFC
    ∧ (run (.bge 1 2 4) (regs [(1, 0xFFFFFFFFFFFFFFFF)])).me.pc = 0x100000004
    ∧ (run (.bltn 1 2 4) (regs [(1, 0xFFFFFFFFFFFFFFFF)])).me.pc = 0x100000004
    ∧ (run (.bgen 1 2 4) (regs [(1, 0xFFFFFFFFFFFFFFFF)])).me.pc = 0x100000010 := by decide
theorem test_jal : (run (.jal 1 3) (regs [])).me.pc = 0x10000000C ∧ (run (.jal 1 3) (regs [])).rd 1 = 0x100000004 := by decide
theorem test_jalr : (run (.jalr 1 1 0xFFFC) (regs [(1, 0x2004)])).me.pc = 0x2000
    ∧ (run (.jalr 1 1 0xFFFC) (regs [(1, 0x2004)])).rd 1 = 0x100000004 := by decide
/-- Both clauses of a transfer: a target that is a multiple of 4 and one that is not (MISALIGNED, with TVEC = 0 a handler
fault, so the saved cause is looked at). -/
theorem witness_BranchesAndJumps : ((regs [(1, 0x2000)]).rd 1 + 0).toNat % 4 = 0 ∧ ((regs [(1, 2)]).rd 1 + 0).toNat % 4 ≠ 0
    ∧ cause (run (.jalr 5 1 0) (regs [(1, 2)])) = (3, 2) ∧ (run (.jalr 5 1 0) (regs [(1, 2)])).rd 5 = 0 := by decide

/-! ## Scalar floating point (14 R259 to R261) -/

theorem test_fadd : (run (.fadd 3 1 2 0 1) (regs [(1, 0x3FF0000000000000), (2, 0x4000000000000000)])).rd 3 = 0x4008000000000000
    ∧ (run (.fsub 3 1 2 0 0) (regs [(1, 0x3F800000), (2, 0x40000000)])).rd 3 = 0xBF800000 := by decide
/-- 1 + 2^-53 is a tie in FP64: 1 and NX (bit 4) under RNE, the next number under RU. -/
theorem test_fadd_rounds : (run (.fadd 3 1 2 0 1) (regs [(1, 0x3FF0000000000000), (2, 0x3CA0000000000000)])).rd 3 = 0x3FF0000000000000
    ∧ (run (.fadd 3 1 2 0 1) (regs [(1, 0x3FF0000000000000), (2, 0x3CA0000000000000)])).me.flags ≠ 0
    ∧ (run (.fadd 3 1 2 3 1) (regs [(1, 0x3FF0000000000000), (2, 0x3CA0000000000000)])).rd 3
        ≠ (run (.fadd 3 1 2 2 1) (regs [(1, 0x3FF0000000000000), (2, 0x3CA0000000000000)])).rd 3 := by decide
theorem test_fmul : (run (.fmul 3 1 2 0 0) (regs [(1, 0x40400000), (2, 0x40000000)])).rd 3 = 0x40C00000
    ∧ (run (.fdiv 3 1 2 0 0) (regs [(1, 0x40C00000), (2, 0x40000000)])).rd 3 = 0x40400000 := by decide
theorem test_fsqrt : (run (.fsqrt 3 1 0 0) (regs [(1, 0x41100000)])).rd 3 = 0x40400000 := by decide +kernel
/-- FFMA adds the destination: 2 × 3 + 1 = 7. -/
theorem test_ffma : (run (.ffma 3 1 2 0 0) (regs [(1, 0x40000000), (2, 0x40400000), (3, 0x3F800000)])).rd 3 = 0x40E00000 := by decide
theorem test_fminmax : (run (.fmin 3 1 2 0) (regs [(1, 0xBF800000), (2, 0x40000000)])).rd 3 = 0xBF800000
    ∧ (run (.fmax 3 1 2 0) (regs [(1, 0xBF800000), (2, 0x40000000)])).rd 3 = 0x40000000 := by decide
theorem test_fcmp : (run (.fcmp 3 1 2 0 0) (regs [(1, 0x3F800000), (2, 0x3F800000)])).rd 3 = 1
    ∧ (run (.fcmp 3 1 2 1 0) (regs [(1, 0x3F800000), (2, 0x3F800000)])).rd 3 = 0 := by decide
/-- FCVT from FP64 to FP32 (target code 0, source code 1): 2.0. -/
theorem test_fcvt : (run (.fcvt 3 1 0 1 0) (regs [(1, 0x4000000000000000)])).rd 3 = 0x40000000 := by decide
theorem witness_ScalarFloat : (0 : BitVec 3) ≠ 7 ∧ (Instr.fcvt 3 1 0 1 0).wf = true
    ∧ (regs []).me.en = 0 ∧ { Ctx.reset with status := 0x1F0000 }.en ≠ 0 := by decide

/-! ## Loads and stores (14 R262; 08 R150, R154) -/

/-- The thread with one more page, at 0x1_0001_0000, that its TLB maps to frame 8200 with the given PTE bits below LEAF. -/
def paged (bits : Nat) (l : List (Nat × W64)) : State :=
  let s := regs l
  let k := s.coreAt 1
  let e : TlbEnt := { ten := 0, page := 65537, level := 3, pte := BitVec.ofNat 64 (bits + 2 ^ 10 + 8200 * 65536) }
  (s.setCore 1 { k with tlb := e :: k.tlb }).setCluster 0 { s.clusterAt 0 with tlb := [e] }

/-- The page's address. -/
def pageVa : W64 := 0x100010000
/-- V, W and U. -/
def plain : Nat := 11
/-- V, W, U and a version depth of 2. -/
def deep : Nat := 11 + 32
/-- V, W, U and S: a sync page. -/
def syncPage : Nat := 11 + 512

/-- A store to the own pool and the load that it forwards to, sign-extended. -/
theorem test_st_ld : (run (.ld 3 2 0 1 8) (run (.st 1 2 0 8) (regs [(1, 0x180), (2, pool 64)]))).rd 3 = 0xFFFFFFFFFFFFFF80 := by decide
theorem test_ld_u : (run (.ld 3 2 1 0 0xFFE) (run (.st 1 2 1 0xFFE) (regs [(1, 0x18000), (2, pool 64)]))).rd 3 = 0x8000 := by decide
/-- The byte order is little-endian: byte 1 of 0x1234 at the next address. -/
theorem test_byte_order : (run (.ld 3 2 0 0 1) (run (.st 1 2 1 0) (regs [(1, 0x1234), (2, pageVa)] |> fun s =>
    s.setCore 1 ((paged plain []).coreAt 1 |> fun k => { k with ctxs := (s.coreAt 1).ctxs })))).rd 3 = 0x12 := by decide
/-- Address misalignment is no fault on plain pages; in a sync page it is. -/
theorem test_ld_misaligned_sync : cause (run (.ld 3 2 2 0 1) (paged syncPage [(2, pageVa)])) = (3, 0x100010001) := by decide
theorem witness_LoadsOfPlainBytes :
    let s := regs [(2, pool 64)]
    (Instr.ld 3 2 3 0 8).wf = true ∧ s.resolve s.core s.ctx (s.rd 2 + 8) 8 false false = .bytes (upTo (poolKey 1 72) 8)
      ∧ s.accessFree (upTo (poolKey 1 72) 8) = true
      ∧ ((s.claimKeys (upTo (poolKey 1 72) 8)).settle 1 0 (upTo (poolKey 1 72) 8)).tainted (upTo (poolKey 1 72) 8) = false := by decide
theorem witness_LoadsOfPlainBytes_outside :
    let s := paged plain [(2, pageVa)]
    s.resolve s.core s.ctx (s.rd 2) 1 false false = .bytes [8200 * 65536] ∧ poolOf (8200 * 65536) = none
      ∧ s.me.storeq.any (fun e => e.partOf [8200 * 65536]) = false ∧ s.accessFree [8200 * 65536] = true
      ∧ s.tainted [8200 * 65536] = false := by decide
theorem witness_LoadsSeeOwnStores :
    let e : StoreEnt := { key := 100, bytes := [1, 2], hbm := true }
    let s := ctxOf (fun x => { x with storeq := [e] })
    (s.ctxAt 1 0).storeq = [] ++ e :: [] ∧ (e.key ≤ 101 ∧ 101 < e.key + e.bytes.length) ∧ s.loadBytes 1 0 [101] = [2]
      ∧ (∀ f ∈ (s.ctxAt 1 0).storeq, ¬ (f.key ≤ 102 ∧ 102 < f.key + f.bytes.length))
      ∧ (∀ l ∈ (s.clusterAt (clusterOf 1)).port, l.at? 102 = none) := by decide
theorem witness_StoresOfPlainBytes :
    let s := regs [(1, 7), (2, pool 64)]
    (Instr.st 1 2 3 0).wf = true ∧ s.resolve s.core s.ctx (s.rd 2) 8 true false = .bytes (upTo (poolKey 1 64) 8)
      ∧ s.accessFree (upTo (poolKey 1 64) 8) = true
      ∧ (run (.st 1 2 3 0) s).me.storeq
        = [{ key := poolKey 1 64, bytes := [7, 0, 0, 0, 0, 0, 0, 0], hbm := false, va := pool 64, pc := 0x100000000 }] := by decide
/-- A drain to the pool writes memory; one to HBM enters the port buffer, and the line's drain writes memory. -/
theorem test_drains :
    let s := run (.storeQueueDrain 1 0) (ctxOf (fun x => { x with storeq := [{ key := poolKey 1 64, bytes := [9], hbm := false }] }))
    let h := run (.storeQueueDrain 1 0) (ctxOf (fun x => { x with storeq := [{ key := 1000, bytes := [9], hbm := true }] }))
    s.peek (poolKey 1 64) = 9 ∧ s.me.storeq = [] ∧ h.peek 1000 = 0 ∧ h.portByte 0 1000 = 9
      ∧ (run (.portLineDrain 0 0) h).peek 1000 = 9 ∧ ((run (.portLineDrain 0 0) h).clusterAt 0).port = [] := by decide
theorem witness_StoreQueueDrains :
    let e : StoreEnt := { key := 1000, bytes := [9], hbm := true }
    let s := ctxOf (fun x => { x with storeq := [e] })
    let h := run (.storeQueueDrain 1 0) s
    Memory.wf s.mem = true ∧ (s.ctxAt 1 0).storeq = [e] ∧ isArray 1 = true ∧ (s.clusterAt 0).port.length + 1 ≤ 32
      ∧ (h.clusterAt 0).port = [] ++ { line := 15, bytes := [(40, 9)], since := 0 } :: [] ∧ thread.me.storeq = []
      ∧ thread.cells = [] := by decide
/-- A load from another cluster's pool leaves its register pending, and the reply writes it (03 R59). -/
def farLoad : State := run (.ld 3 2 3 0 0) ((regs [(2, 0xFE010000000000)]).setTenant 0
  { thread.tenantAt 0 with trect := BitVec.ofNat 64 (2 ^ 16 + 15 * 2 ^ 8 + 15 * 2 ^ 12) })
theorem test_split_load : farLoad.me.pends.length = 1 ∧ farLoad.me.pc = 0x100000004
    ∧ ((run (.st 1 2 3 0) farLoad).me.stall, (run (.st 1 2 3 0) farLoad).me.storeq.length) = (1, 0)
    ∧ (run (.splitLoadReply 1 0 0 .here) farLoad).me.pends = [] ∧ (run (.splitLoadReply 1 0 0 .here) farLoad).rd 3 = 0 := by decide
theorem witness_SplitPhaseLoads :
    let s := (regs [(2, 0xFE010000000000)]).setTenant 0 { thread.tenantAt 0 with trect := BitVec.ofNat 64 (2 ^ 16 + 0xFF00) }
    s.resolve s.core s.ctx (s.rd 2) 8 false false = .place (.mem (poolKey 16 0)) ∧ (s.drainQueue 1 0).me.outstanding < 8
      ∧ (s.drainQueue 1 0).myCore.outstanding < 32
      ∧ (match (farLoad.ctxAt 1 0).pends with
        | [p] => decide (p.answer = none ∧ p.keep = false ∧ p.place = .mem (poolKey 16 0)
            ∧ (farLoad.coreAt 16).poolCheck 0 p.nb = none ∧ farLoad.poisoned (poolKey 16 0) p.nb = false)
        | _ => false) = true ∧ (farLoad.ctxAt 1 0).live = true := by decide

/-! ## Versioned words (14 R264; 08 R156, R157) -/

/-- The key of the first word of the versioned page. -/
def verKey : Nat := 8200 * 65536
/-- STV creates version 1 of a word whose CUR is 0, and LDV of it reads it back; VERQ shows FLOOR and CUR. -/
def created : State := run (.stv 3 1 2) (paged deep [(1, pageVa), (2, 77)])
theorem test_stv : created.rd 3 = 1 ∧ created.peekLe verKey 4 = 1 ∧ created.peekLe (verKey + 2 * 65536) 8 = 77
    ∧ (run (.ldv 4 1 3) created).rd 4 = 77 := by decide +kernel
theorem test_verq : (run (.verq 4 1) created).rd 4 = 1
    ∧ (run (.verq 4 1) (run (.reclaim 1 3) created)).rd 4 = 0x100000001 := by decide +kernel
theorem witness_VersionedWords :
    let s := paged deep [(1, pageVa), (2, 0)]
    let r (v : W64) := s.resolve s.core s.ctx v 8 false false
    let c := created.setMe { created.me with x := [(1, pageVa), (2, 5)] }
    (1 : W64).toNat % 8 ≠ 0 ∧ r pageVa = .place (.vers 8200 2 0) ∧ s.me.grant = none ∧ s.poisoned (verKey + 65536) 8 = false
      ∧ (paged plain []).resolve 1 0 pageVa 8 true false = .bytes (upTo verKey 8)
      ∧ (paged plain []).resolve 1 0 pageVa 8 false false = .bytes (upTo verKey 8)
      ∧ s.resolve 1 0 pageVa 8 true false = .place (.vers 8200 2 0) ∧ s.settledSystem 1 0 = true
      ∧ (s.performModule 1 0).waiters = [] ∧ Memory.wf (s.performModule 1 0).mem = true
      ∧ (s.performModule 1 0).mayCreate verKey ((s.performModule 1 0).ctxidOf 1) ((s.performModule 1 0).groupsOf 1 0) = true
      ∧ (run (.ldv 3 1 2) c).me.stall = 6 ∧ c.unitsFull verKey = false ∧ c.me.retryAt = none := by decide +kernel
/-- LDV of a version that is no longer retained, at depth 2 and CUR 3: VRETIRED. -/
theorem test_ldv_retired :
    let s := { (paged deep [(1, pageVa), (2, 1)]) with mem := [(verKey, 3)] }
    cause (run (.ldv 3 1 2) s) = (9, 0x100010000) := by decide +kernel

/-! ## Traps and system registers (09 R170 to R182; 14 R267 to R271) -/

/-- TRAP: what R174 saves, and the vector. -/
theorem test_trap :
    let t := (run (.trap 0x12) thread).me
    t.tcause = 0x14 ∧ t.tval = 0x12 ∧ t.taddr = 0x100000000 ∧ t.tstatus = 0x10 ∧ t.status = 5 ∧ t.pc = 0x200000000 := by decide
/-- TRET goes back with the saved status. -/
theorem test_tret :
    let t := (run .tret (run (.trap 0) thread)).me
    t.status = 0x10 ∧ t.pc = 0x100000000 := by decide
theorem test_tret_outside : cause (run .tret thread) = (0x13, 0x58000040) := by decide
theorem test_illegal_word : cause (run (.illegalInsnWord 0xA0000000) thread) = (1, 0xA0000000) := by decide
theorem witness_TrapEntry :
    let s := thread
    let h := run (.trap 0) ((thread.setCore 1 { thread.coreAt 1 with hchain := 0x1002 }))
    (25 < 256) ∧ s.me.tr = false ∧ s.myCore.tvec ≠ 0 ∧ s.myCore.pvec = 0
      ∧ h.me.tr = true ∧ 0 < chainLen h.myCore.hchain ∧ bitOn h.me.tcause 9 = false := by decide
theorem witness_TrapReturn :
    let h := run (.trap 0) thread
    let odd := h.setMe { h.me with taddr := 2 }
    let bad := h.setMe { h.me with tstatus := 0x80 }
    thread.me.status.getLsbD 0 = false ∧ thread.myCore.tvec ≠ 0 ∧ h.me.status.getLsbD 0 = true ∧ badStatus h.me.tstatus h.me.status = false
      ∧ h.me.heirless = false ∧ h.me.taddr.toNat % 4 = 0 ∧ odd.me.taddr.toNat % 4 ≠ 0 ∧ bad.me.tstatus.getLsbD 7 = true := by decide
/-- A user interrupt is taken at a boundary and returned from. -/
def uiCtx : State := ctxOf (fun x => { x with status := 0x30, uivec := 0x300000000, uiq := [{ src := 1, tag := 5 }] })
theorem test_user_interrupt :
    let t := run (.userInterruptTake 1 0) uiCtx
    t.me.pc = 0x300000000 ∧ t.me.uiaddr = 0x100000000 ∧ t.me.ui = true
      ∧ (run .uiret t).me.pc = 0x100000000 ∧ (run .uiret t).me.ui = false ∧ (run .uiret t).me.uiq = [] := by decide
theorem witness_TrapsAndUserInterrupts :
    let x := uiCtx.ctxAt 1 0
    let t := run (.userInterruptTake 1 0) uiCtx
    x.live = true ∧ x.stopped = false ∧ x.stall = 0 ∧ x.due = [] ∧ x.uie = true ∧ x.ui = false ∧ x.tr = false ∧ x.uivec ≠ 0
      ∧ x.uiq ≠ [] ∧ x.asyncs = [] ∧ thread.me.ui = false ∧ t.me.ui = true ∧ t.me.uiaddr.toNat % 4 = 0
      ∧ (t.setMe { t.me with uiaddr := 2 }).me.uiaddr.toNat % 4 ≠ 0 := by decide
/-- UISTAT of the entry (09 R181): source 1, one entry, tag 5. -/
theorem test_mfs : (run (.mfs 3 0x000) thread).rd 3 = 0x10 ∧ (run (.mfs 3 0x009) uiCtx).rd 3 = 0x50011
    ∧ (run (.mfs 3 0x014) thread).rd 3 = 0 ∧ (run (.mfs 3 0x015) thread).rd 3 = 1 ∧ (run (.mfs 3 0x031) thread).rd 3 = 7 := by decide
theorem witness_SystemRegisterReads : thread.me.pl < 1 ∧ 1 ≤ (service []).me.pl ∧ isArray (service []).core = false
    ∧ isArray thread.core = true ∧ cause (run (.mfs 3 0x005) thread) = (2, 0x586028C0)
    ∧ cause (run (.mfs 3 0x00B) thread) = (1, 0x586058C0) ∧ (run (.mfs 3 0x010) (service [])).rd 3 = 0 := by decide
/-- STATUS at PL 0: UIE, RM, FLAGS and EN are written, IE, INJ and PL stay. -/
theorem test_mts : (run (.mts 1 0x000) (regs [(1, 0x1FFBFF)])).me.status = 0x1FFB30
    ∧ (run (.mts 1 0x008) (regs [(1, 0x1003)])).me.uivec = 0x1000 ∧ (run (.mts 1 0x031) (regs [(1, 0xFB)])).myCore.awdAt 1 = 7
    ∧ (run (.mts 1 0x031) (regs [(1, 0xB)])).myCore.awdAt 1 = 0xB := by decide
theorem witness_SystemRegisterWrites : thread.me.pl < 1 ∧ 1 ≤ (service []).me.pl ∧ cause (run (.mts 1 0x005) thread) = (2, 0x58202900)
    ∧ cause (run (.mts 1 0x00B) thread) = (1, 0x58205900)
    ∧ (run (.mts 1 0x005) (service [(1, 0x1003)])).myCore.tvec = 0x1000
    ∧ (run (.mts 1 0x006) (service [(1, 0xFFFFFFFFFFFFFFFF)])).myCore.hchain = 0x1FFF1FFF1FFF1FFF := by decide

/-! ## Contexts, continuations, launches, messages, privileged instructions (14 R272 to R288; 03 R60, R61) -/

/-- The service core with a page of firmware memory at 0x10000 (frame 16). -/
def serviceMem (l : List (Nat × W64)) : State :=
  let s := service l
  let e : TlbEnt := { ten := 16, page := 1, level := 3, pte := BitVec.ofNat 64 (3 + 2 ^ 10 + 16 * 65536) }
  s.setCore 4096 { s.coreAt 4096 with tlb := [e], tvec := 0x40000 }

/-- The thread at PL 1. -/
def handler (l : List (Nat × W64)) : State := (regs l).setMe { (regs l).me with status := 0x14 }

theorem test_wfi : (run .wfi thread).me.stall % 16 = 15 ∧ (run .wfi thread).me.pc = 0x100000000
    ∧ (run .wfi (ctxOf (fun x => { x with asyncs := [{ cause := 0x18, val := 0 }] }))).me.pc = 0x100000004 := by decide
theorem test_yield : (run .yield thread).me.yielded = true ∧ (run .yield thread).me.pc = 0x100000004 := by decide
theorem test_halt : (run .halt thread).me.live = false := by decide
theorem test_start :
    let t := run (.start 3 1 2) (regs [(1, 0x5000), (2, 9)])
    t.rd 3 = 1 ∧ (t.ctxAt 1 1).live = true ∧ (t.ctxAt 1 1).pc = 0x5000 ∧ (t.ctxAt 1 1).rd 9 = 9 := by decide
theorem test_joinh : (run (.joinh 3 1) (regs [(1, 11)])).rd 3 = 2 ∧ (run (.joinh 3 1) (regs [(1, 4), (3, 9)])).rd 3 = 0
    ∧ (run (.joinh 3 4) ((run (.start 3 1 2) (regs [(1, 0x5000), (4, 1)])))).me.stall = 9 := by decide
theorem test_rdctr : (run (.rdctr 3 0) (regs [(3, 7)])).rd 3 = 0 ∧ (run (.rdctr 3 0) (regs [])).me.pc = 0x100000004 := by decide
theorem witness_ContextControl :
    let h := ctxOf (fun x => { x with kind := .helper })
    let full := thread.setCore 1 { thread.coreAt 1 with ctxs := (upTo 0 11).map (fun i => (i, { Ctx.reset with live := true })) }
    isArray thread.core = true ∧ isArray (service []).core = false ∧ thread.me.asyncs = [] ∧ thread.me.outstanding = 0
      ∧ farLoad.me.outstanding ≠ 0 ∧ h.me.kind ≠ .control ∧ thread.me.kind = .control ∧ (1 : W64).toNat % 4 ≠ 0
      ∧ (∀ n ∈ upTo 1 10, (Tab.find full.myCore.ctxs n).any (fun y => y.live) = true)
      ∧ (Tab.find thread.myCore.ctxs 1).any (fun y => y.live) = false ∧ (thread.launchOf 1).isSome = true
      ∧ thread.me.grant = none := by decide

/-- A continuation record in the own pool: ENTRY 0x5000, KEY in cluster 0's memory. -/
def contMem : List Host.Cell := memPutN (memPutN [] (poolKey 1 0) (leBytes 8 0x5000)) (poolKey 1 8) (leBytes 8 (0xFD * 2 ^ 48))
/-- A tile of the pool that the thread has claimed already, so that its bytes are kept. -/
def withTile (s : State) : State := s.setCore 1 { s.coreAt 1 with holders := [(0, .running)] }
theorem test_cont :
    let t := run (.cont 2) (withTile { (regs [(2, pool 0)]) with mem := contMem })
    t.me.stall = 9 ∧ t.contFlight.length = 1 ∧ (t.contFlight.map (fun r => (r.home, recNat r.bytes 0 8))) = [(0, 0x5000)] := by
  decide
theorem test_launch_malformed : (run (.launch 3 2) (regs [(2, pool 0), (3, 9)])).rd 3 = 3 := by decide
/-- A record of one thread (NLEV 1, VWT 1, MW 1, MH 1; one core): it enters Halyard and the tenant has room. -/
def goodRecord : List Byte := leBytes 8 (1 + 2 ^ 8 + 2 ^ 16 + 2 ^ 24) ++ leBytes 8 0x5000 ++ leBytes 48 0 ++ leBytes 8 1 ++ leBytes 120 0
def launcher (depth : Nat) : State :=
  let s := withTile { (regs [(2, pool 0)]) with mem := memPutN [] (poolKey 1 0) goodRecord }
  s.setTenant 0 { s.tenantAt 0 with tsubcfg := BitVec.ofNat 64 depth }
theorem test_launch : (run (.launch 3 2) (launcher 4)).rd 3 = 0x200000000 ∧ (run (.launch 3 2) (launcher 4)).launches.length = 2
    ∧ (run (.launch 3 2) (launcher 0)).rd 3 = 5 ∧ cause (run (.launch 3 2) (regs [(2, pool 4)])) = (3, 0xFF000000000004) := by
  decide +kernel
theorem witness_ContinuationsAndLaunches :
    let s := withTile { (regs [(2, pool 0)]) with mem := contMem }
    let l := loadedLaunch State.reset
    isArray s.core = true ∧ (s.rd 2).toNat % 64 = 0 ∧ (pool 4).toNat % 64 ≠ 0 ∧ s.me.grant = none
      ∧ s.contFlight = [] ∧ s.me.pends = [] ∧ s.launchOf s.core = some l ∧ s.keyModule (BitVec.ofNat 64 (0xFD * 2 ^ 48)) = some s.modid
      ∧ (s.modsOf l).contains s.modid = true ∧ (launcher 4).depthFull 0 = false ∧ (launcher 0).depthFull 0 = true
      ∧ ((launcher 4).enterLaunch 0 (pool 0) goodRecord 0 none 17 0).1 = 0
      ∧ ((launcher 4).enterLaunch 0 (pool 0) (leBytes 192 0) 0 none 17 0).1 ≠ 0 := by decide +kernel
/-- A record as its words read one after the other: its bytes and the state after. -/
def recordAt (s : State) (va : W64) (n : Nat) (acc : List Byte) : Option (List Byte × State) :=
  match n with
  | 0 => some (acc, s.dropKept)
  | m + 1 => match s.recordWord va with
    | .stop _ => none
    | .word w t => recordAt t (va + 8) m (acc ++ leBytes 8 w.toNat)
/-- A record that reads as bytes reads so for whatever reads it. -/
theorem recordAt_reads (n : Nat) : ∀ (s u : State) (va : W64) (acc bytes : List Byte), recordAt s va n acc = some (bytes, u) →
    ∀ k, s.readRecord va n acc k = k bytes u := by
  induction n with
  | zero => intro s u va acc bytes h k; cases h; rfl
  | succ m ih =>
    intro s u va acc bytes h k
    simp only [recordAt] at h
    simp only [State.readRecord]
    cases hw : s.recordWord va with
    | stop o => rw [hw] at h; cases h
    | word w t => rw [hw] at h; exact ih _ _ _ _ _ h k
/-- The record of a CONT, of a LAUNCH, and of a monitor call can be read. -/
theorem witness_reads_as : (recordAt (withTile { (regs [(2, pool 0)]) with mem := contMem }) (pool 0) 8 []).isSome = true
    ∧ (recordAt (launcher 4) (pool 0) 24 []).isSome = true ∧ (recordAt (serviceMem []) 0x10000 8 []).isSome = true := by
  decide +kernel

/-- SEND to the own core's window 15, and its delivery. -/
def mqVa : W64 := 0xFF000F00000000
def sent : State := run (.send 3 2) (regs [(2, mqVa)])
theorem test_messages : sent.rd 3 = 0 ∧ sent.myCore.injq.length = 1 ∧ (run (.messageDeliver 1) sent).myCore.recvq.length = 1
    ∧ (run (.messageDeliver 1) sent).myCore.injq = [] ∧ (run (.recv 4 1 0) (run (.messageDeliver 1) sent)).myCore.recvq = []
    ∧ (run (.recv 4 0 0) (run (.messageDeliver 1) sent)).rd 4 = 0x8000000000001000 := by decide
theorem test_recv_empty : (run (.recv 4 0 1) thread).me.stall = 15 ∧ (run (.recv 4 0 0) (regs [(4, 1)])).rd 4 = 0
    ∧ (run (.qstat 4) sent).rd 4 = 1 := by decide
theorem witness_Messages :
    let v := mqVa
    let far := regs [(2, 0xFE010F00000000)]
    let full := thread.setCore 1 { thread.coreAt 1 with injq := List.replicate 16 (OutMsg.mk 0 1 (Msg.mk [] 1 0 false none) 0 none false) }
    let crowded := sent.setCore 1 { sent.coreAt 1 with recvq := List.replicate 64 { bytes := [], srcCore := 1, srcMod := 0, remote := false } }
    let late := { sent with now := 2000 }.setCore 1 { sent.coreAt 1 with rejAt := some 0 }
    bitsAt v 32 4 = 15 ∧ bitsAt v 0 32 = 0 ∧ bitsAt v 56 8 = 0 ∧ bitsAt v 48 8 = 0xFF ∧ bitsAt v 36 12 = 0
      ∧ bitsAt (pool 0) 32 4 ≠ 15 ∧ far.inRect (far.tenOf 1) (16 / 16) = false ∧ 16 ≤ full.myCore.injq.length
      ∧ thread.myCore.injq.length < 16 ∧ thread.myCore.recvq = []
      ∧ (match (sent.coreAt 1).injq with
        | [m] => decide (m.sent = false ∧ m.node = sent.modid ∧ m.core = 1)
        | _ => false) = true
      ∧ (sent.coreAt 1).rejAt = none ∧ 64 ≤ (crowded.coreAt 1).recvq.length ∧ (late.coreAt 1).rejAt = some 0
      ∧ (run (.messageResend 1) late).myCore.injq = [] := by decide

theorem test_privileged_at_pl0 : cause (run (.replay 3 1 0) thread) = (2, 0x7C610000) ∧ (run (.kill 3 1 2) (handler [(1, 9)])).rd 3 = 1 := by decide
/-- A token that was never issued, whatever the check value is; and one that was. -/
theorem test_replay_no_token (v : W64) : (handler [(1, v)]).tokenPage v = none := by
  have h : ∀ t, ((handler [(1, v)]).tenantAt t).tokens = [] := fun t => match t with
    | 0 => rfl
    | _ + 1 => rfl
  simp only [State.tokenPage, h]
  by_cases hc : bitsAt v 36 28 ≠ Config.tokenCheck (v.setWidth 32) (bitsAt v 32 4) % 2 ^ 28
  · rw [if_pos hc]
  · rw [if_neg hc]; rfl
theorem token_is_page (s : State) (c : Nat) (hc : c < 2 ^ 28) (ht : (s.tenantAt 0).tokens = [(0, 65537)])
    (hg : Config.tokenCheck 0 0 % 2 ^ 28 = c) : s.tokenPage (BitVec.ofNat 64 (c * 2 ^ 36)) = some (0, 65537) := by
  have h1 : (BitVec.ofNat 64 (c * 2 ^ 36)).toNat = c * 2 ^ 36 := by rw [BitVec.toNat_ofNat]; omega
  have h2 : bitsAt (BitVec.ofNat 64 (c * 2 ^ 36)) 32 4 = 0 := by simp only [bitsAt, h1]; omega
  have h3 : bitsAt (BitVec.ofNat 64 (c * 2 ^ 36)) 36 28 = c := by simp only [bitsAt, h1]; omega
  have h4 : (BitVec.ofNat 64 (c * 2 ^ 36)).setWidth 32 = (0 : W32) := by
    apply BitVec.eq_of_toNat_eq; simp only [BitVec.toNat_setWidth, h1]; simp; omega
  simp only [State.tokenPage, h2, h3, h4, hg, ht]
  simp
theorem witness_PrivilegedInstructions_token : ∃ (s : State) (v : W64), s.tokenPage v = some (0, 65537) :=
  ⟨{ State.reset with tenants := [(0, { Tenant.reset with tokens := [(0, 65537)] })] }, _,
    token_is_page _ _ (Nat.mod_lt _ (by decide)) rfl rfl⟩
/-- TLBINV of everything: the thread's page has to be walked again. -/
theorem test_tlbinv : (run (.tlbinv 1 2) (handler [])).myCore.tlb = [] ∧ cause (run (.tlbinv 1 2) (handler [(1, 8)])) = (3, 8)
    ∧ cause (run (.tlbinv 1 2) (handler [(2, 2 ^ 40)])) = (5, 2 ^ 40) := by decide
/-- KILL of the own launch: the context is gone. -/
theorem test_kill : (run (.kill 3 1 2) (handler [(1, 1)])).me.live = false ∧ (run (.kill 3 1 2) (handler [(1, 1)])).kills.length = 1 := by
  decide
/-- FQPOP of a tenant's one entry: its 32 bytes are written, FQHEAD moves. -/
def faulted : State :=
  let s := serviceMem [(2, 0x10000)]
  s.setTenant 0 { s.tenantAt 0 with fqcfg := 0x108, fqtail := 1, fq := [newFault 0x20000 1 1 1 1] }
theorem test_fqpop : (run (.fqpop 3 1 2) faulted).rd 3 = 1 ∧ ((run (.fqpop 3 1 2) faulted).tenantAt 0).fqhead = 1
    ∧ (run (.fqpop 3 1 2) (serviceMem [(2, 0x10000), (3, 7)])).rd 3 = 0 := by decide
theorem test_moncall : (run (.moncall 3 2) (serviceMem [(2, 0x10000)])).me.stall = 15
    ∧ recNat (Tab.get ((run (.moncall 3 2) (serviceMem [(2, 0x10000)])).mboxAt 0 3).ents [] 0) 0 1 = 0x20 := by decide
theorem witness_PrivilegedInstructions :
    let h := handler [(1, 1)]
    let w := h.injectKill 0 1 1 0x1A false
    let m := serviceMem [(2, 0x10000)]
    thread.me.pl = 0 ∧ h.me.pl ≠ 0 ∧ isArray h.core = true ∧ (service []).me.pl ≠ 0 ∧ isArray (service []).core = false
      ∧ h.launchBy 0 1 ≠ none ∧ h.launchBy 0 2 = none ∧ w.me.live = false ∧ (faulted.tenantAt 0).fqhead ≠ (faulted.tenantAt 0).fqtail
      ∧ (faulted.tenantAt 0).fqcfg.getLsbD 8 = true
      ∧ faulted.resolve 4096 0 0x10000 8 true false = .bytes (upTo (16 * 65536) 8) ∧ m.me.grant = none
      ∧ ((m.mboxAt 0 3).tail - (m.mboxAt 0 3).head).toNat < 64 ∧ (run (.moncall 3 2) m).me.grant = some 0
      ∧ h.tenOf 1 = 0 ∧ (2 ^ 36 : W64).toNat / 2 ^ 36 ≠ 0 := by decide


/-! ## Atomics, reduction cells, barriers, fences, event counters (19 R364 to R370; 03 R57; 08 R160 to R162) -/

/-- A pool word that holds 5, in a tile that the thread has claimed. -/
def five (l : List (Nat × W64)) : State := withTile { (regs l) with mem := [(poolKey 1 64, 5)] }
/-- The same word in a sync page. -/
def fiveSync (l : List (Nat × W64)) : State := { (paged syncPage l) with mem := [(verKey, 5)] }
/-- x1 the pool word, x2 a value, x3 a comparand or reply address. -/
def amoRegs (v r : W64) : List (Nat × W64) := [(1, pool 64), (2, v), (3, r)]

theorem test_amo_add : (run (.amo 4 1 2 0 1) (five (amoRegs 7 0))).peek (poolKey 1 64) = 12
    ∧ (run (.amo 4 1 2 0 1) (five (amoRegs 7 0))).rd 4 = 5 := by decide
/-- smax.w4 of 5 and −1 keeps 5; umax takes 0xFFFFFFFF. -/
theorem test_amo_max : (run (.amo 4 1 2 1 6) (five (amoRegs 0xFFFFFFFF 0))).peekLe (poolKey 1 64) 4 = 5
    ∧ (run (.amo 4 1 2 1 8) (five (amoRegs 0xFFFFFFFF 0))).peekLe (poolKey 1 64) 4 = 0xFFFFFFFF := by decide
theorem test_amo_cas : (run (.amo 3 1 2 0 9) (five (amoRegs 9 5))).peek (poolKey 1 64) = 9
    ∧ (run (.amo 3 1 2 0 9) (five (amoRegs 9 6))).peek (poolKey 1 64) = 5 ∧ cause (run (.amo 3 1 2 0 9) (five [(1, pool 65)])) = (3, 0xFF000000000041) := by
  decide
theorem test_red : (run (.red 1 2 0 3) (five (amoRegs 8 0))).peek (poolKey 1 64) = 13 ∧ (run (.red 1 2 0 3) (five (amoRegs 8 0))).rd 2 = 8 := by
  decide
theorem test_amod : (run (.amod 3 1 2 0 0) (five (amoRegs 8 (pool 128)))).me.amodReply = [(pool 128, 5)]
    ∧ cause (run (.amod 3 1 2 0 0) (five (amoRegs 8 4))) = (3, 4) := by decide
theorem test_amod_reply :
    let t := run (.amodReplyStore 1 0) (run (.amod 3 1 2 0 0) (five (amoRegs 8 (pool 128))))
    t.me.amodReply = [] ∧ t.peek (poolKey 1 64) = 8 ∧ t.peek (poolKey 1 128) = 5 := by decide
theorem witness_AtomicOperations :
    let s := five (amoRegs 7 (pool 128))
    let y := fiveSync [(1, pageVa), (2, 7)]
    let far := ctxOf (fun x => { x with amodReply := [(0xFE010000000000, 3)] })
    let far1 := far.setTenant 0 { thread.tenantAt 0 with trect := BitVec.ofNat 64 (2 ^ 16 + 0xFF00) }
    (Instr.amo 4 1 2 0 1).wf = true ∧ (Instr.red 1 2 0 1).wf = true ∧ (Instr.amod 3 1 2 0 9).wf = true
      ∧ s.resolve s.core s.ctx (s.rd 1) 8 true false = .bytes (poolKey 1 64 :: upTo (poolKey 1 65) 7)
      ∧ s.accessFree (upTo (poolKey 1 64) 8) = true ∧ s.poisoned (poolKey 1 64) 8 = false
      ∧ y.resolve y.core y.ctx (y.rd 1) 8 true false = .place (.sync verKey) ∧ y.accessFree (upTo verKey 8) = true
      ∧ far1.unread (far1.ctxAt 1 0).pends (upTo (poolKey 16 0) 8) = false
      ∧ (recordAt (five [(1, pool 64)]) (pool 64) 1 []).isSome = true
      ∧ far1.resolve 1 0 0xFE010000000000 8 true false = .place (.mem (poolKey 16 0))
      ∧ (paged deep [(1, pageVa)]).resolve 1 0 pageVa 8 true false = .place (.vers 8200 2 0) := by decide +kernel

/-- Two requests of clusters 0 and 1 of die 0 wait in the butterfly of die 0. -/
def bfReq (core v : Nat) : BfReq :=
  { port := clusterOf core, stage := 0, pa := verKey, width := 8, add := BitVec.ofNat 64 v, amo := true, ten := 0,
    leaves := [(core, 0, (0, 1, 0))], tag := none }
def flying : State := { (fiveSync [(1, pageVa), (2, 7)]) with bf := [(0, [bfReq 1 7, bfReq 16 3])] }
def combinedOnce : State := run (.butterflyCombine 0 1 0) flying
/-- The first turn enters the butterfly; the next performs the add; a grant ends it. -/
theorem test_butterfly :
    let s := fiveSync [(1, pageVa), (2, 7)]
    let t := run (.amo 4 1 2 0 1) s
    (t.me.stall, (Tab.get t.bf [] 0).length, t.peek verKey) = (stCleat, 1, 5) ∧ (run (.amo 4 1 2 0 1) t).peek verKey = 12
      ∧ (run (.amo 4 1 2 0 1) t).rd 4 = 5 := by decide
theorem test_combine : keyDie verKey = 0 ∧ (Tab.get combinedOnce.bf [] 0).map (fun r => (r.add, r.leaves.length)) = [(10, 2)]
    ∧ (Tab.get combinedOnce.bfWait [] 0).map (fun e => (e.a1, e.reply, e.first.port)) = [(7, none, 0)] := by decide
/-- The sum of the two is performed: 5 + 7 + 3, and the wait buffer takes the old value. -/
def summed : State := run (.amo 4 1 2 0 1) combinedOnce
theorem test_summed : summed.peek verKey = 15 ∧ (Tab.get summed.bfWait [] 0).map (fun e => e.reply) = [some 5] := by decide
/-- The earlier request, of cluster 0, receives 5; the later one 5 + 7. -/
def combinedWaiting : State :=
  let s := summed.setMe { summed.me with stall := stCleat }
  let s1 := s.setCore 1 { s.coreAt 1 with thread := some (0, 1, 0) }
  let s2 := s1.setCtx 16 0 { Ctx.reset with live := true, stall := stCleat }
  s2.setCore 16 { s2.coreAt 16 with thread := some (0, 1, 0) }
theorem test_combined_reply : ((run (.combinedReply 0 0) combinedWaiting).ctxAt 1 0).grant = some 5
    ∧ ((run (.combinedReply 0 0) combinedWaiting).ctxAt 16 0).grant = some 12 := by decide
theorem witness_ButterflyAdds :
    let s := fiveSync [(1, pageVa), (2, 7)]
    let t := run (.amo 4 1 2 0 1) s
    let full : State := { flying with bfWait := [(0, List.replicate 32
      { tag := 0, switch := bfSwitch (meetStage 0 1) 0 verKey, a1 := 0, first := bfReq 1 0, second := bfReq 16 0, reply := none })] }
    let w := combinedWaiting
    (s.rd 1).toNat % 8 = 0 ∧ s.resolve 1 0 (s.rd 1) 8 true false = .place (.sync verKey) ∧ s.poisoned verKey 8 = false
      ∧ s.accessFree (upTo verKey 8) = true ∧ s.me.grant = none ∧ Tab.get s.bf [] 0 = [] ∧ Tab.get s.bfWait [] 0 = []
      ∧ (∃ r, (Tab.get t.bf [] 0).find? t.myReq = some r ∧ r.tag = none) ∧ s.unheard verKey true = false
      ∧ (∃ r, (Tab.get combinedOnce.bf [] 0).find? combinedOnce.myReq = some r ∧ r.tag = some 0) ∧ Memory.wf flying.mem = true
      ∧ (Tab.get flying.bf [] 0)[0]? = some (bfReq 1 7) ∧ (Tab.get flying.bf [] 0)[1]? = some (bfReq 16 3)
      ∧ (bfReq 1 7).port < (bfReq 16 3).port ∧ (bfReq 1 7).combines (bfReq 16 3) = true ∧ (bfReq 1 7).combines (bfReq 2 3) = false
      ∧ 32 ≤ ((Tab.get full.bfWait [] 0).filter (fun e => e.switch == bfSwitch (meetStage 0 1) 0 verKey)).length
      ∧ (match (Tab.get w.bfWait [] 0)[0]? with
        | some e => decide (e.reply = some 5 ∧ e.first.tag = none ∧ e.second.tag = none ∧ e.first.leaves = [(1, 0, (0, 1, 0))]
            ∧ e.second.leaves = [(16, 0, (0, 1, 0))])
        | none => false) = true
      ∧ (w.ctxAt 1 0).live = true ∧ (w.ctxAt 16 0).live = true ∧ (w.coreAt 1).thread = some (0, 1, 0)
      ∧ (w.coreAt 16).thread = some (0, 1, 0) ∧ (w.ctxAt 1 0).stall = stCleat ∧ (w.ctxAt 16 0).stall = stCleat := by
  refine ⟨?_, ?_, ?_, ?_, ?_, ?_, ?_, ⟨_, rfl, rfl⟩, ?_, ⟨_, rfl, rfl⟩, ?_⟩ <;> decide

/-- A reduction cell of P participants from LCORE 0. -/
def cellOf (p : Nat) : State := { (paged syncPage [(1, pageVa), (2, 7)]) with mem := memPutN [] verKey (leBytes 4 p) }
theorem test_redf : (run (.redf 4 1 2 2 0) (cellOf 1)).rd 4 = 7 ∧ (run (.redf 4 1 2 2 0) (cellOf 1)).peek (verKey + 8) = 1
    ∧ (run (.redf 4 1 2 2 0) (cellOf 1)).peek (verKey + 16) = 7 ∧ (run (.redf 4 1 2 2 0) (cellOf 2)).me.stall = 15 := by decide
theorem test_redf_rank : cause (run (.redf 4 1 2 2 0) (cellOf 0)) = (5, 0x100010000) := by decide
theorem witness_ReductionCells :
    let s := cellOf 2
    let key := verKey
    let got := (cellOf 2).setCell { key := key, op := 0, type := 2, contribs := [], uncollected := [(0, 9)] }
    (Instr.redf 4 1 2 2 0).wf = true ∧ (s.rd 1).toNat % 64 = 0 ∧ s.resolve 1 0 (s.rd 1) 64 true false = .place (.sync key)
      ∧ (s.performModule 1 0).peekLe key 4 = 2 ∧ s.lcoreOf 1 = 0 ∧ (s.performModule 1 0).cellAt key 
          = { key := key, op := 0, type := 0, contribs := [], uncollected := [] }
      ∧ ((cellOf 1).performModule 1 0).peekLe key 4 = 1 ∧ Memory.wf ((cellOf 1).performModule 1 0).mem = true
      ∧ ((cellOf 1).performModule 1 0).waiters = []
      ∧ Tab.find ((got.performModule 1 0).cellAt key).uncollected 0 = some 9
      ∧ (run (.redf 4 1 2 2 0) got).rd 4 = 9
      ∧ farLoad.resolve 1 0 0xFE010000000040 64 true false = .place (.mem (poolKey 16 64))
      ∧ farLoad.accessFree (upTo (poolKey 16 64) 64) = true ∧ s.accessFree (upTo key 64) = true := by decide

/-- The thread with tree 3 in BM, alone in its launch. -/
def barred : State := thread.setCore 1 { thread.coreAt 1 with bm := 8 }
/-- The same with another member that has not arrived, on core 2. -/
def barredTwo : State := (barred.setCore 2 { Core.reset with thread := barred.myCore.thread, bm := 8, ctxs := [(0, { Ctx.reset with live := true })] })
theorem test_arrive : (run (.arrive 3) barredTwo).myCore.arr = 8 ∧ (run (.arrive 3) barred).myCore.arr = 0
    ∧ (run (.arrive 3) thread).myCore.arr = 0 := by decide
theorem test_waitb : (run (.waitb 3) (run (.arrive 3) barredTwo)).me.stall = 7 ∧ (run (.waitb 3) barredTwo).me.pc = 0x100000004 := by decide
theorem test_bmask : (run (.bmask 2) (regs [(2, 8)])).myCore.bm = 8 ∧ cause (run (.bmask 2) (regs [(2, 65536)])) = (5, 65536)
    ∧ (run (.bmask 2) (run (.arrive 3) barredTwo)).me.stall = 7 := by decide
theorem witness_Barriers :
    let up := run (.arrive 3) barredTwo
    bitOn barred.myCore.bm 3 = true ∧ bitOn barred.myCore.arr 3 = false ∧ bitOn thread.myCore.bm 3 = false
      ∧ bitOn up.myCore.bm 3 = true ∧ bitOn up.myCore.arr 3 = true ∧ thread.myCore.arr = 0
      ∧ barredTwo.myCore.thread = some (0, 1, 0) ∧ (barredTwo.coreAt 2).thread = some (0, 1, 0) := by decide

theorem test_fence : (run (.fence 3) (run (.st 1 2 3 0) (regs [(1, 7), (2, pool 64)]))).me.storeq = []
    ∧ (run (.fence 0) (run (.st 1 2 3 0) (regs [(1, 7), (2, pool 64)]))).me.storeq ≠ [] ∧ (run (.fence 0) farLoad).me.stall = 11 := by
  decide
theorem test_fenceh : (run (.fenceh 1) (run (.st 1 2 3 0) (regs [(1, 7), (2, pool 64)]))).me.storeq = []
    ∧ (run (.fenceh 1) (ctxOf (fun x => { x with amodReply := [(0, 0)] }))).me.stall = 11 := by decide
theorem test_fencel : (run .fencel thread).me.pc = 0x100000004 := by decide
theorem witness_Fences : (Instr.fence 4).wf = true ∧ thread.me.outstanding = 0 ∧ thread.me.amodReply = []
    ∧ thread.outward thread.core thread.ctx = false ∧ thread.sending thread.core thread.ctx true = false
    ∧ thread.copying thread.core thread.ctx = false ∧ farLoad.me.outstanding ≠ 0
    ∧ (∀ c ∈ thread.fenceCores 3, ∀ p ∈ (thread.coreAt c).ctxs, p.2.live = true → thread.unperformed 3 c p.1 = false) := by decide
/-- FENCEH waits for a reply store of another context of the tenant. -/
theorem witness_Fences_others :
    let s := (ctxOf (fun x => { x with amodReply := [(0, 0)] })).setCtx 1 3 thread.me
    let t := { s with ctx := 3 }
    t.me.outstanding = 0 ∧ ¬ (∀ c ∈ t.fenceCores 3, ∀ p ∈ (t.coreAt c).ctxs, p.2.live = true → t.unperformed 3 c p.1 = false)
      ∧ (run (.fenceh 3) t).me.stall = 11 := by decide

/-- The tenant has four counters from number 0; x1 names counter 2. -/
def counting (l : List (Nat × W64)) : State :=
  let s := regs l
  s.setTenant 0 { s.tenantAt 0 with tecr := 4 * 2 ^ 16 }
theorem test_tecr_fields : (tecrBase ((counting []).tenantAt 0).tecr, tecrCount ((counting []).tenantAt 0).tecr) = (0, 4) := by
  decide
theorem test_ecadd : (run (.ecadd 4 1 2) (counting [(1, 2), (2, 5), (4, 9)])).rd 4 = 0
    ∧ ((run (.ecadd 4 1 2) (counting [(1, 2), (2, 5)])).counterAt 2).val = 5
    ∧ cause (run (.ecadd 4 1 2) (counting [(1, 4)])) = (5, 4) := by decide
theorem test_ecwait : (run (.ecwait 4 1 2) (counting [(1, 2), (2, 1)])).me.stall = 8
    ∧ (run (.ecwait 4 1 2) (counting [(1, 2), (4, 9)])).rd 4 = 0 := by decide
theorem test_ectrig : (run (.ectrig 4 1 2) (counting [(1, 0x2002), (2, 9), (4, 1)])).rd 4 = 0
    ∧ ((run (.ectrig 4 1 2) (counting [(1, 0x2002), (2, 9)])).counterAt 2).trigs.length = 1
    ∧ cause (run (.ectrig 4 1 2) (counting [(1, 2)])) = (5, 2) := by decide
theorem witness_EventCounters :
    let s := counting [(1, 2), (2, 5)]
    let n := s.tenantAt (s.tenOf s.core)
    let trig := counting [(1, 0x2002), (2, 9)]
    let launchTrig := counting [(1, 0x1002), (2, 9), (4, 64)]
    let armed := run (.ectrig 4 1 2) (run (.ectrig 4 1 2) trig)
    s.tenOf s.core < 16 ∧ 2 < tecrCount n.tecr ∧ tecrCount n.tecr ≤ 4 ∧ s.me.grant = none ∧ s.waiters = []
      ∧ (s.counterAt 2).val.toNat < (s.rd 2).toNat ∧ (trig.rd 1).toNat / 2 ^ 12 % 4 = 2 ∧ (trig.rd 1).toNat / 2 ^ 21 = 0
      ∧ (trig.counterAt 2).trigs.length < 2 ∧ 2 ≤ (armed.counterAt 2).trigs.length ∧ (launchTrig.rd 1).toNat / 2 ^ 12 % 4 = 1
      ∧ (launchTrig.rd 4).toNat % 64 = 0 ∧ launchTrig.depthFull 0 = true
      ∧ (launchTrig.setTenant 0 { launchTrig.tenantAt 0 with tsubcfg := 4 }).depthFull 0 = false := by decide

/-! ## Estates (10 R193 to R207; 19 R371 to R377) -/

/-- A tenant with a share of 256 entries; its word at `pageVa` in a page with the given bits. x1 the reference, x2 an heir
specification (mode 1, the parent), x4 an output in the own pool. -/
def owning (bits : Nat) (l : List (Nat × W64)) : State :=
  let s := paged bits ([(1, pageVa), (2, 0x10000000), (5, pool 64)] ++ l)
  s.setTenant 0 { s.tenantAt 0 with testr := 256 }
def locked : State := run (.amoLock 3 1 2) (owning syncPage [(3, 9)])
/-- Change the one entry of die 0. -/
def entry (s : State) (f : Estate → Estate) : State := s.setEstates 0 ((s.estatesAt 0).map f)

theorem test_lock : locked.rd 3 = 0 ∧ (locked.estatesAt 0).map (fun e => (e.kind, e.state, e.heir, e.home)) = [(1, 1, 0x10000000, verKey)]
    ∧ (run (.amoLock 3 1 2) (entry locked (fun e => { e with bereaved := true }))).rd 3 = 1
    ∧ (run (.amoLock 3 1 2) (entry locked (fun e => { e with holder := 5 }))).me.stall = 15 := by decide
theorem test_trylock : (run (.amoTrylock 3 1 2) (entry locked (fun e => { e with holder := 5 }))).rd 3 = 4
    ∧ (run (.amoTrylock 3 1 2) (entry locked (fun e => { e with state := 2 }))).rd 3 = 2 := by decide
theorem test_unlock : (run (.amoUnlock 3 1 2) locked).rd 3 = 0 ∧ (run (.amoUnlock 3 1 2) locked).estatesAt 0 = []
    ∧ (run (.amoUnlock 3 1 2) (owning syncPage [])).rd 3 = 5 := by decide
/-- The tenant's share is full: 3; a bad heir specification: 6. -/
theorem test_lock_refused : (run (.amoLock 3 1 2) (paged syncPage [(1, pageVa), (2, 0x10000000)])).rd 3 = 3
    ∧ (run (.amoLock 3 1 2) (paged syncPage [(1, pageVa), (2, 0x30000000)])).rd 3 = 6 := by decide
/-- The thread as a handler at PL 1, which may clear an orphaned lock. -/
def orphanedAt1 : State :=
  let s := entry locked (fun e => { e with state := 2 })
  s.setMe { s.me with status := 0x14 }
theorem test_orphcl : (run (.orphcl 3 1) orphanedAt1).rd 3 = 0 ∧ (run (.orphcl 3 1) orphanedAt1).estatesAt 0 = []
    ∧ (run (.orphcl 3 1) locked).me.tcause = 2 := by decide
theorem witness_Locks :
    let s := owning syncPage []
    let u := s.performModule 1 0
    isArray (service []).core = false ∧ isArray s.core = true ∧ s.registered = false ∧ s.me.pl = 0 ∧ orphanedAt1.me.pl ≠ 0
      ∧ (s.rd 1).toNat % 8 = 0 ∧ s.resolve 1 0 (s.rd 1) 8 true false = .place (.sync verKey) ∧ s.accessFree (upTo verKey 8) = true ∧ s.me.grant = none ∧ s.waiters = []
      ∧ u.heirOk (keyDie verKey) 0 (s.rd 2) = true ∧ u.heirOk (keyDie verKey) 0 0x30000000 = false ∧ u.estateAt 1 verKey = none
      ∧ u.estatesFull 0 (keyDie verKey) = false ∧ (paged syncPage []).estatesFull 0 (keyDie verKey) = true
      ∧ (match (locked.performModule 1 0).estateAt 1 verKey with
        | some e => decide (e.state ≠ 2 ∧ e.ctxid = locked.ctxidOf 1 ∧ e.holder = locked.groupOf 1 0)
        | none => false) = true
      ∧ (orphanedAt1.performModule 1 0).waiters = [] := by decide

/-- An object header of FLAGS 0, OVER 0 at `pageVa`. -/
def held : State := run (.hold 3 1 2) (owning plain [(3, 9)])
theorem test_hold : held.rd 3 = 0 ∧ held.peek verKey = 2 ∧ held.peek (verKey + 12) = 1 ∧ (run (.hold 3 1 2) held).rd 3 = 4 := by decide
theorem test_promise : (run (.promise 3 1 2) (owning deep [(3, 9)])).rd 3 = 0
    ∧ ((run (.promise 3 1 2) (owning deep [])).estatesAt 0).map (fun e => (e.kind, e.home)) = [(3, verKey)]
    ∧ cause (run (.promise 3 1 2) (owning plain [])) = (5, 0x100010000) := by decide
theorem test_relq : (run (.relq 3 1 2) held).rd 3 = 0 ∧ (run (.relq 3 1 2) held).peek verKey = 0
    ∧ (run (.relq 3 1 2) held).peek (verKey + 12) = 2 ∧ (run (.relq 3 1 2) (owning plain [])).rd 3 = 5 := by decide
theorem test_heir : ((run (.heir 3 1 6 2) (held.setMe (held.me.wr 6 0x20000000))).estatesAt 0).map (fun e => e.heir) = [0x20000000]
    ∧ (run (.heir 3 1 6 2) (held.setMe (held.me.wr 6 0x40000000))).rd 3 = 6 := by decide
theorem witness_HoldingsAndPromises :
    let s := owning plain []
    let p := owning deep []
    let promised := run (.promise 3 1 2) p
    let poisonFlag : State := { s with mem := memPutN [] verKey [8] }
    Memory.wf s.mem = true ∧ isArray s.core = true ∧ (3 : W64).toNat % 16 ≠ 0 ∧ (s.rd 1).toNat % 16 = 0
      ∧ s.resolve 1 0 (s.rd 1) 8 true false = .bytes (upTo verKey 8) ∧ s.deaf (keyDie verKey) 0 (s.ctxidOf 1) = false ∧ poolOf verKey = none ∧ s.poisoned verKey 16 = false ∧ s.accessFree (upTo verKey 16) = true
      ∧ s.resolve 1 0 (s.rd 1) 16 true false = .bytes (verKey :: upTo (verKey + 1) 15) ∧ s.waiters = [] ∧ s.me.grant = none
      ∧ p.resolve 1 0 (p.rd 1) 8 true false = .place (.vers 8200 2 0) ∧ verKey = 8200 * 65536 + 0 / 8 * 8
      ∧ ((s.performModule 1 0).peekLe verKey 2).testBit 0 = false ∧ ((poisonFlag.performModule 1 0).peekLe verKey 2).testBit 3 = true
      ∧ (s.performModule 1 0).estateAt 2 verKey = none ∧ (s.performModule 1 0).estatesFull 0 (keyDie verKey) = false
      ∧ (p.performModule 1 0).estateAt 3 verKey = none ∧ ((held.performModule 1 0).estateAt 2 verKey).isSome = true
      ∧ ((promised.performModule 1 0).estateAt 3 verKey).isSome = true ∧ ((held.performModule 1 0).peekLe verKey 2).testBit 1 = true
      ∧ ((locked.performModule 1 0).estateAt 1 verKey).isSome = true
      ∧ (run (.relq 3 1 1) (entry locked (fun e => { e with state := 2 }))).rd 3 = 2 := by decide

/-- The lock's entry is written to the pool: LCORE group 0, kind 1 in bits 58 to 56, state 1 in bits 60 to 59. -/
theorem test_estq : (run (.estq 3 1 5 1) locked).rd 3 = 1 ∧ (run (.estq 3 1 5 1) locked).peek (poolKey 1 79) = 9
    ∧ (run (.estq 3 1 5 1) (owning syncPage [(3, 7)])).rd 3 = 0 ∧ cause (run (.estq 3 1 6 1) (owning syncPage [(6, 8)])) = (3, 8) := by
  decide +kernel
/-- An arrival of the thread's group waits. -/
def arrived : State :=
  { (owning plain [(3, 9)]) with arrivals := [(0, { dseq := 7, dctx := 1, dgroup := 3, nrec := 2, hctx := 1, hgroup := 0, time := 0 })] }
theorem test_estq_pop : (run (.estqPop 3 5) arrived).rd 3 = 1 ∧ (run (.estqPop 3 5) arrived).arrivals = []
    ∧ (run (.estqPop 3 5) arrived).peek (poolKey 1 64) = 7 ∧ (run (.estqPop 3 5) (owning plain [(3, 9)])).rd 3 = 0 := by decide +kernel
theorem test_estq_wait : (run (.estqWait 3 5) (owning plain [])).me.stall = 15 ∧ (run (.estqWait 3 5) arrived).rd 3 = 1 := by decide +kernel
/-- Records that can be written to the own pool: no word of them is refused, and storing them ends. -/
theorem witness_EstateQueries :
    let s := locked
    let u := s.performModule 1 0
    let a := arrived.performModule 1 0
    isArray s.core = true ∧ (s.rd 5).toNat % 32 = 0 ∧ (s.rd 1).toNat % 8 = 0
      ∧ s.resolve 1 0 (s.rd 1) 8 false false = .place (.sync verKey) ∧ s.accessFree (upTo verKey 8) = true ∧ (u.estateAt 1 verKey).isSome = true
      ∧ u.outCheck (s.rd 5) 4 = none ∧ (u.storeWords (s.rd 5) [1, 2, 3, 4]).isSome = true
      ∧ a.outCheck (a.rd 5) 4 = none ∧ ((a.storeWords (a.rd 5) [1, 2, 3, 4]).map (fun w => w.arrivals)) = some arrived.arrivals
      ∧ arrived.ctxidOf 1 = 1 ∧ arrived.groupOf 1 0 = 0 := by decide +kernel

/-- The thread's group has died; nothing has applied the death. -/
def dying (s : State) : State :=
  { s with deaths := [{ dseq := 0, ten := 0, ctxid := 1, group := 0, applied := [], got := [], heirless := [] }] }
/-- The heir of mode 1 is the root group, 0x08000000: the lock becomes its, bereaved. -/
theorem test_death : ((run (.deathEvent 0) (dying locked)).estatesAt 0).map (fun e => (e.holder, e.bereaved, e.state)) = [(0x8000000, true, 1)]
    ∧ ((run (.deathEvent 0) (dying (entry locked (fun e => { e with heir := 0x20000000 })))).estatesAt 0).map (fun e => e.state) = [2] := by
  decide
/-- A held object without an heir is poisoned and no longer held. -/
theorem test_death_object : (run (.deathEvent 0) (dying (entry held (fun e => { e with heir := 0x20000000 })))).peek verKey = 8
    ∧ (run (.deathEvent 0) (dying held)).peek verKey = 6 := by decide
/-- After the four dies have applied it, the root hears of one holding. -/
def appliedBy (die : BitVec 2) (s : State) : State := after (execDeathEvent die s)
def applied4 : State := appliedBy 3 (appliedBy 2 (appliedBy 1 (appliedBy 0 (dying locked))))
theorem test_arrival : (run .arrivalPost applied4).arrivals.map (fun a => (a.2.dgroup, a.2.hgroup, a.2.nrec)) = [(0, 0x8000000, 1)]
    ∧ (run .arrivalPost (dying locked)).deaths.length = 1 := by decide
theorem witness_Deaths :
    let s := dying locked
    let o := dying (entry held (fun e => { e with heir := 0x20000000 }))
    Memory.wf s.mem = true ∧ Memory.wf o.mem = true
      ∧ (match s.deaths with
        | [d] => decide (d.applied.contains 0 = false ∧ (s.estatesAt 0).filter (fun f =>
            decide (f.ten = d.ten ∧ f.ctxid = d.ctxid ∧ f.holder = d.group ∧ f.state = 1)) = s.estatesAt 0)
        | _ => false) = true
      ∧ (match s.estatesAt 0, o.estatesAt 0 with
        | [e], [f] => decide (s.estateAt e.kind e.home = some e ∧ keyDie e.home = 0 ∧ o.estateAt f.kind f.home = some f ∧ f.kind = 2)
        | _, _ => false) = true
      ∧ thread.deaths = []
      ∧ (match applied4.deaths with
        | [d] => (upTo 0 4).all (fun i => d.applied.contains i)
        | _ => false) = true := by decide

/-! ## Graphs (19 R343 to R363) -/

/-- One page of the tenant at `pageVa`, plain: a descriptor at its start with an arena at +0x8000 and a record at +0x4000,
a layout table at +0x2000 whose type 0 has one data word, and an object of type 0 at +0x3000 that holds 77. -/
def graphMem (aux : Nat) : List Host.Cell :=
  let d := leBytes 8 0x100018000 ++ leBytes 8 0x10001F000 ++ leBytes 8 0x100018200 ++ leBytes 8 0 ++ leBytes 8 0
    ++ leBytes 8 0x100014000 ++ leBytes 8 4096 ++ leBytes 8 aux
  memPutN (memPutN (memPutN [] verKey d) (verKey + 0x2000) (leBytes 8 (1 + 2 ^ 41)))
    (verKey + 0x3000) (leBytes 8 65536 ++ leBytes 8 (5 * 2 ^ 32) ++ leBytes 8 77)
def graphing (aux : Nat) (l : List (Nat × W64)) : State :=
  let s := { (paged plain ([(1, pageVa), (2, 0x100013000)] ++ l)) with mem := graphMem aux }
  s.setTenant 0 { s.tenantAt 0 with lmapb := 0x100012000 }
/-- An engine's access ends well, with the value. -/
def okWith {α : Type} [DecidableEq α] (x : Except GErr α) (v : α) : Bool := match x with
  | .ok y => decide (y = v)
  | .error _ => false
/-- The first object of the arena, behind the chain heads and 16 bytes aligned. -/
def arena0 : Nat := verKey + 0x8200

/-- OALLOC of one word at ABUMP: two units; then the arena is full for a big object. -/
theorem test_oalloc :
    let t := run (.oalloc 3 1 4) (graphing 0 [(4, 65536)])
    t.rd 3 = 0x100018200 ∧ t.peekLe (verKey + 16) 8 = 0x100018220 ∧ t.peekLe arena0 8 = 65536
      ∧ (run (.oalloc 3 1 4) (graphing 0 [(3, 9), (4, 0xFFFF0000)])).rd 3 = 0 := by decide
theorem test_ostp :
    let t := run (.ostp 3 2 4) (graphing 0 [(4, 99)])
    t.peekLe (verKey + 0x3010) 8 = 99 ∧ t.peekLe (verKey + 0x300C) 4 = 6 ∧ t.rd 3 = 6
      ∧ cause (run (.ostp 3 2 4) (graphing 0 [(3, 1)])) = (16, 0x100013000) := by decide
theorem test_gstat : (run (.gstat 3 2) (graphing 0 [])).rd 3 = 0x500000000 ∧ cause (run (.gstat 3 5) (graphing 0 [(5, 8)])) = (3, 8) := by
  decide
theorem witness_ObjectInstructions :
    let s := graphing 0 [(4, 65536)]
    let freed := { s with mem := memPutN s.mem (verKey + 0x3000) [1] }
    let chained := { s with mem := memPutN s.mem (verKey + 0x8008) (leBytes 8 0x100018300) }
    isArray s.core = true ∧ isArray (service []).core = false ∧ Memory.wf s.mem = true ∧ (s.rd 2).toNat % 16 = 0 ∧ bitsAt (s.rd 2) 56 8 = 0
      ∧ s.resolve 1 0 (s.rd 2) 16 true false = .bytes ((verKey + 0x3000) :: upTo (verKey + 0x3001) 15)
      ∧ s.accessFree (upTo (verKey + 0x3000) 16) = true
      ∧ s.poisoned (verKey + 0x3000) 16 = false ∧ (s.performModule 1 0).poisoned (verKey + 0x3000) 16 = false
      ∧ ((freed.performModule 1 0).peekLe (verKey + 0x3000) 2).testBit 0 = true ∧ ((s.performModule 1 0).peekLe (verKey + 0x3000) 2).testBit 0 = false
      ∧ okWith ((s.performModule 1 0).engKeys s.engMe (s.rd 1) 64 true false) [(verKey, 64)] = true
      ∧ okWith ((s.performModule 1 0).engWord s.engMe (BitVec.ofNat 64 0x100018008) false) 0 = true
      ∧ okWith ((chained.performModule 1 0).engWord s.engMe (BitVec.ofNat 64 0x100018008) false) 0x100018300 = true
      ∧ okWith ((chained.performModule 1 0).engWord s.engMe (0x100018300 + 8) true) 0 = true
      ∧ ((chained.performModule 1 0).engWrite s.engMe (BitVec.ofNat 64 0x100018008) (leBytes 8 0) false).toOption.isSome = true
      ∧ (run (.oalloc 3 1 4) chained).rd 3 = 0x100018300
      ∧ okWith (s.engKeys s.engMe 0x100018200 24 true false) [(arena0, 24)] = true := by decide +kernel
/-- OSTP through a far cluster memory is to a word that `resolve` names as memory. -/
theorem witness_ObjectInstructions_word :
    let s := (regs [(2, 0xFD010000000000)]).setTenant 0 { thread.tenantAt 0 with trect := BitVec.ofNat 64 (2 ^ 16 + 0xFF00) }
    s.resolve 1 0 (s.rd 2) 16 true false = .place (.mem (cmemKey 1 0)) ∧ s.accessFree (upTo (cmemKey 1 0) 24) = true ∧ s.resolve 1 0 (s.rd 2 + 16) 8 true false = .place (.mem (cmemKey 1 16))
      ∧ poolOf (cmemKey 1 0) = none := by decide

/-- A walk of `op` after its first turn, and after its second. -/
def walked (i : Instr) (aux : Nat) : State := run i (graphing aux [])
def copied : State :=
  let s := run (.gcopy 3 1 2 0) (walked (.gcopy 3 1 2 0) 0)
  after (execGraphWalkComplete 1 0 s)
/-- The copy is the object with FLAGS and OVER 0, at ABUMP; STATE 2, COUNT 1. -/
theorem test_gcopy : copied.rd 3 = 0x100018200 ∧ copied.peekLe arena0 8 = 65536 ∧ copied.peekLe (arena0 + 8) 8 = 0
    ∧ copied.peekLe (arena0 + 16) 8 = 77 ∧ copied.peekLe (verKey + 32) 8 = 0x100000002 := by decide +kernel
theorem test_gcmp : (run (.gcmp 3 1 4 0) (graphing 0 [(3, 9)])).rd 3 = 0 ∧ (run (.gcmp 3 1 2 0) (graphing 0 [])).rd 3 = 1
    ∧ (run (.gcmp 3 1 2 0) (graphing 0x100013000 [])).me.stall = stGraph := by decide +kernel
/-- The SHA-256 of the empty string, for a null root. -/
theorem test_ghash : (run (.ghash 3 1 4 0) (graphing 0x100011000 [])).peekN (verKey + 0x1000) 4 = [0xE3, 0xB0, 0xC4, 0x42] := by decide +kernel
theorem test_gsend : (run (.gsend 3 1 4 0) (graphing 0 [])).me.tcause = 5 ∧ (run (.gsend 3 6 4 0) (regs [(6, 8)])).me.tcause = 3 := by decide
/-- GFREE of an object in its arena (here the arena's first object): it is freed and heads the chain of two units. -/
def freeing : State :=
  let s := graphing 0 [(4, 65536)]
  run (.oalloc 2 1 4) s
theorem test_gfree :
    let s := run (.gfree 3 1 2) (run (.gfree 3 1 2) freeing)
    let t := run (.graphWalkComplete 1 0) s
    t.rd 3 = 1 ∧ hasFlag (t.peekLe arena0 2) 1 = true ∧ t.peekLe (verKey + 0x8008) 8 = 0x100018200 := by decide +kernel
theorem test_graphWalkComplete : (run (.graphWalkComplete 1 0) thread).me.pc = 0x100000000
    ∧ ((run (.graphWalkComplete 1 0) (walked (.gcopy 3 1 2 0) 0)).walks.length) = 1 := by decide +kernel
def idleWalk : GWalk :=
  { core := 1, ctx := 5, reg := 0, op := 0, v := false, root := 0, desc := [], dkey := 0, rrun := [], base := 0, stack := [],
    visited := [], snaps := [], skip := 0, off := 0, result := none, hash := [], hashed := 0, torn := false, part := 0, more := false, ready := false,
    waiting := none, err := none }
theorem witness_GraphWalks :
    let s := graphing 0x100013000 []
    let u := s.performModule 1 0
    let sendDesc := leBytes 24 0 ++ leBytes 16 0 ++ leBytes 8 0x100014000 ++ leBytes 8 4096 ++ leBytes 8 0x4100000100010000
    let busy : State := { s with walks := List.replicate 4 idleWalk }
    isArray s.core = true ∧ s.walkOf 1 0 = none ∧ (s.rd 1).toNat % 64 = 0 ∧ s.quadWalks 1 < 4 ∧ 4 ≤ busy.quadWalks 1
      ∧ busy.walkOf 1 0 = none ∧ okWith (u.engKeys u.engMe (s.rd 1) 64 true false) [(verKey, 64)] = true ∧ descBad (u.peekN verKey 64) 0 = false
      ∧ descBad (leBytes 64 1) 0 = true ∧ descBad sendDesc 1 = false
      ∧ okWith (u.engKeys u.engMe (BitVec.ofNat 64 0x100014000) 4096 true false) [(verKey + 0x4000, 4096)] = true ∧ Memory.wf s.mem = true
      ∧ (match (walked (.gcopy 3 1 2 0) 0).walkOf 1 0 with
        | some w => decide (w.err = none ∧ w.ready = false ∧ w.op = 0)
        | none => false) = true
      ∧ (match (run (.gcopy 3 1 2 0) (walked (.gcopy 3 1 2 0) 0)).walkOf 1 0 with
        | some w => decide (w.err = none ∧ w.ready = true ∧ w.v = false)
        | none => false) = true := by decide +kernel
/-- The first visit of a walk ends without an error, in the issuing context, with no result yet. -/
theorem witness_GraphWalks_visit :
    let s := graphing 0 []
    let u := s.performModule 1 0
    (match (walked (.gcopy 3 1 2 0) 0).walkOf 1 0 with
      | some w =>
        let w0 : GWalk := { w with stack := [], visited := [], snaps := [], off := 0 }
        let s1 := (u.recWrite w0 0 w0.header).pokeLe (verKey + 32) 8 1
        ! (s1.putWalk w0).walkInterrupted 1 0 && (match (s1.putWalk w0).visit u.engMe w0 w0.root 0 none with
          | .ok (_, w) => decide (w.core = 1 ∧ w.ctx = 0 ∧ w.result = none)
          | .error _ => false)
      | none => false) = true := by
  decide +kernel

/-- The receiver's side: the descriptor of `graphMem`, a sender of module 1. -/
def opening : GraphOpen := { src := 1, ten := 0, ctxid := 9, desc := 0x4000000100010000, pl := 0 }
/-- The page by the page tables is not there: the engine's accesses at the receiver walk them; here the descriptor and the
arena lie in cluster memory 0 of a tenant whose rectangle has it. -/
def receiving : State :=
  let base := 0xFD000000000000
  let d := leBytes 8 base ++ leBytes 8 (base + 0x1000) ++ leBytes 8 (base + 512) ++ leBytes 40 0
  let s := { State.reset with mem := memPutN [] (cmemKey 0 0x2000) d }
  s.setTenant 0 { s.tenantAt 0 with trect := BitVec.ofNat 64 (2 ^ 16 + 0xFF00) }
def toCmem (o : GraphOpen) : GraphOpen := { o with desc := 0x40FD000000002000 }
def opened : State := after (execGsendOpen (toCmem opening) receiving)
def object0 : GraphObject :=
  { src := 1, ten := 0, ctxid := 9, desc := 0x40FD000000002000, index := 0, offset := 0, word0 := 65536, words := [77],
    classes := [0], nullWeak := false, pl := 0 }
theorem test_gsendOpen : opened.grecvs.length = 1 ∧ opened.peek (cmemKey 0 0x2020) = 0x11 ∧ (run (.gsendOpen (toCmem opening)) opened).grecvs.length = 1 := by
  decide +kernel
theorem test_gsendObject : (run (.gsendObject object0) opened).peekLe (cmemKey 0 528) 8 = 77 ∧ (run (.gsendObject object0) receiving).mem = receiving.mem := by
  decide +kernel
theorem test_gsendFinish :
    let f : GraphFinish := { src := 1, ten := 0, ctxid := 9, desc := 0x40FD000000002000, count := 1, pl := 0 }
    let t := run (.gsendFinish f) (run (.gsendObject object0) opened)
    t.grecvs = [] ∧ t.peekLe (cmemKey 0 0x2010) 8 = 0xFD000000000220 ∧ t.peek (cmemKey 0 0x2020) = 0x12 := by decide +kernel
theorem witness_GraphReceivers :
    let q : EngWho := { ten := 0, pl := 0, core := none }
    let d := localVa 0x40FD000000002000
    let l := [(cmemKey 0 0x2000, 64)]
    let s := opened
    d.toNat % 64 = 0 ∧ okWith (receiving.engKeys q d 64 true false) l = true ∧ descReserved (receiving.runBytes l) = false
      ∧ arenaBad (receiving.runBytes l) = false ∧ receiving.grecvs = [] ∧ recNat (receiving.runBytes l) 32 8 % 16 = 0
      ∧ (match s.grecvs with
        | [g] => decide (g.src = 1 ∧ g.ten = 0 ∧ g.ctxid = 9 ∧ g.desc = d ∧ g.base = 0xFD000000000200
            ∧ (s.rewrite q g.fwd g.fwd).toOption.map (fun y => y.grecvs) = some s.grecvs)
        | _ => false) = true
      ∧ okWith (s.engKeys q d 64 true false) l = true ∧ recNat (s.runBytes l) 32 8 % 16 = 1
      ∧ object0.classes.length = object0.words.length ∧ okWith (s.engKeys q 0xFD000000000200 24 true false) [(cmemKey 0 0x200, 24)] = true := by
  decide +kernel

/-! ## Rings and copies (17 R319 to R323, R334 to R342) -/

/-- A ring image: BASE 10, SLOTT 2, NSLOT 3, both sides threads (0x3020A); with bit 50 the consumer is the engine. -/
def ringed (img : W64) (l : List (Nat × W64)) : State := run (.hdef 2 6) (regs ((6, img) :: l))
theorem test_hdef : (run (.hstat 2 5) (ringed 0x3020A [])).rd 5 = 0x3020A
    ∧ cause (ringed (2 ^ 13) []) = (12, 0x204) ∧ (ringed (0x3020A + 2 ^ 49) []).myCore.eTiles.length = 6
    ∧ cause (ringed (0x3020A + 2 ^ 49 + 2 ^ 50) []) = (12, 0x209) := by decide
theorem test_hwait : (run (.hwait 2 1) (ringed 0x3020A [])).me.stall = 4 ∧ cause (run (.hwait 3 1) (ringed 0x3020A [])) = (12, 0x301)
    ∧ cause (run (.hwait 2 4) (ringed 0x3020A [])) = (12, 0x202) ∧ (run (.hwait 2 0) (ringed 0x3020A [])).me.pc = 0x100000008 := by decide
theorem test_hwaitP : (run (.hwaitP 2 3) (ringed 0x3020A [])).me.pc = 0x100000008
    ∧ (run (.hwaitP 2 3) (run (.advp 2 1) (ringed 0x3020A []))).me.stall = 5 := by decide
theorem test_hwaitT : (run (.hwaitT 2 5) (ringed (0x3020A + 2 ^ 49) [(5, 10)])).me.stall = 4
    ∧ (run (.hwaitT 2 5) (regs [(5, 10)])).me.pc = 0x100000004 ∧ cause (run (.hwaitT 4 5) (regs [(5, 252)])) = (12, 7) := by decide
/-- ADVP: PROD 2, FILL 2; with an engine consumer the four tiles are E. -/
theorem test_advp :
    let t := run (.advp 2 2) (ringed (0x3020A + 2 ^ 50) [])
    ((t.myCore.ringAt 2).prod, (t.myCore.ringAt 2).fill) = (2, 2) ∧ t.myCore.eTiles = [10, 11, 12, 13]
      ∧ cause (run (.advp 2 1) (ringed (0x3020A + 2 ^ 49) [])) = (12, 0x203) := by decide +kernel
theorem test_advc :
    let t := run (.advc 2 1) (run (.advp 2 2) (ringed 0x3020A []))
    ((t.myCore.ringAt 2).cons, (t.myCore.ringAt 2).fill) = (1, 1) ∧ (run (.advc 2 1) (ringed 0x3020A [])).me.stall = 4 := by decide
/-- ADVC.L: a landing tile of a partition with one accumulator area (scratch 238) goes back to the engine. -/
def landing (l : List (Nat × W64)) : State := (regs l).setCore 1 { (regs l).coreAt 1 with partw := 4 }
theorem test_advcL : cause (run (.advcL 1 5) (regs [(5, 10)])) = (12, 7) := by decide
theorem test_hstat : (run (.hstat 4 5) (regs [(5, 9)])).rd 5 = 0 ∧ (run (.hstat 2 5) (run (.advp 2 2) (ringed 0x3020A []))).rd 5 ≠ 0x3020A := by
  decide
theorem witness_Rings :
    let s := ringed 0x3020A [(5, 10)]
    let eng := ringed (0x3020A + 2 ^ 50) []
    let prodE := ringed (0x3020A + 2 ^ 49) []
    let view := ringed (2 ^ 51) []
    let partner := view.setCore 0 { view.coreAt 0 with rings := [(2, s.myCore.ringAt 2)] }
    let full := run (.advp 2 3) s
    let k := { thread.myCore with partw := 0 }
    isArray s.core = true ∧ isArray (service []).core = false ∧ (s.myCore.ringAt 2).peer = false ∧ (s.myCore.ringAt 2).slott ≠ 0
      ∧ (view.myCore.ringAt 2).peer = true ∧ ((view.coreAt (partnerOf 1)).ringAt 2).slott = 0 ∧ partnerOf 1 = 0
      ∧ ((partner.coreAt (partnerOf 1)).ringAt 2).slott ≠ 0 ∧ ((partner.coreAt (partnerOf 1)).ringAt 2).peer = false
      ∧ (s.myCore.ringAt 3).slott = 0 ∧ (s.myCore.ringAt 2).nslot = 3 ∧ (s.myCore.ringAt 2).fill = 0 ∧ (full.myCore.ringAt 2).fill = 3
      ∧ (eng.myCore.ringAt 2).cside = true ∧ (prodE.myCore.ringAt 2).pside = true ∧ s.me.outstanding = 0 ∧ s.me.amodReply = []
      ∧ farLoad.me.outstanding ≠ 0 ∧ 10 + 2 ≤ s.myCore.windowTiles ∧ k.scratch = 254
      ∧ (∀ x ∈ upTo 10 2, s.myCore.tileE x = false) ∧ (∃ x ∈ upTo 10 2, prodE.myCore.tileE x = true) ∧ s.ringNamed 1 2 = false
      ∧ (∀ x ∈ upTo 10 6, (s.performModule 1 0).claimWaits 1 (x * 1024) 1024 = false) := by decide
theorem witness_Rings_landing :
    let s := landing [(5, 239)]
    s.myCore.scratch ≤ 239 ∧ 239 + 1 ≤ s.myCore.windowTiles ∧ (run (.advcL 1 5) s).myCore.tileE 239 = true := by decide
/-- A queued MMA names ring 2. -/
theorem witness_Rings_named :
    let m : MCmd := { insn := .mma 2 1 0 0 0 0, core := 1, ctx := 0, vals := [], rm := 0, base := 0, seed := 0, owner := (0, 1, 0),
                      seq := 0, pl := 0, parked := none }
    (thread.setCore 1 { thread.coreAt 1 with mqueue := [m] }).ringNamed 1 2 = true := by decide

/-- A descriptor of a BCOPY of 16 bytes within the tenant's page, from +0x100 to +0x200, with checksums; DEAL and BCAST words. -/
def copyDesc (aux : Nat) : List Byte :=
  leBytes 8 0x100010100 ++ leBytes 8 0x100010200 ++ leBytes 4 16 ++ leBytes 4 8 ++ leBytes 16 0 ++ leBytes 8 aux ++ leBytes 16 0
def copier (aux : Nat) : State :=
  { (paged plain [(1, pageVa)]) with mem := memPutN (memPutN [] verKey (copyDesc aux)) (verKey + 0x100) [1, 2, 3, 4] }
def copying : State := run (.bcopy 3 1) (copier 0)
theorem test_bcopy : copying.rd 3 = 0 ∧ copying.myCore.copyTag = 1 ∧ copying.myCore.copies.map (fun m => (m.tag, m.op, m.state)) = [(0, 0, 1)]
    ∧ cause (run (.bcopy 3 1) (copier 1)) = (5, pageVa.toNat) := by decide
theorem test_bcast : cause (run (.bcast 3 1) (copier 0)) = (5, pageVa.toNat) ∧ (run (.bcast 3 1) (copier 2)).myCore.copies.length = 1 := by decide
theorem test_deal : cause (run (.deal 3 2) (regs [(2, 8)])) = (3, 8) ∧ cause (run (.deal 3 1) (copier 0)) = (5, pageVa.toNat) := by decide
def copyDone : State := after (execCopyCommandComplete 1 0 [] copying)
/-- The bytes have moved, the command is done, and both checksums are equal (13 bytes of zeros follow 1, 2, 3, 4). -/
theorem test_copy : copyDone.peekN (verKey + 0x200) 5 = [1, 2, 3, 4, 0] ∧ copyDone.peekN (verKey + 0x100) 5 = [1, 2, 3, 4, 0]
    ∧ copyDone.myCore.copies.map (fun m => (m.state, decide (m.scrc = m.dcrc))) = [(2, true)] := by decide +kernel
theorem test_cstat : (run (.cstat 4 3 0) copying).rd 4 = 1 ∧ (run (.cstat 4 3 1) copying).me.stall = 15
    ∧ (run (.cstat 4 3 0) (regs [(4, 9)])).rd 4 = 0 := by decide
/-- CRC-32C of the nine digits (11: the check value of the polynomial is 0xE3069283). -/
theorem test_crc32c : crc32c [0x31, 0x32, 0x33, 0x34, 0x35, 0x36, 0x37, 0x38, 0x39] = 0xE3069283 := by decide +kernel
def idleCopy : CopyCmd :=
  { tag := 0, op := 0, owner := (0, 1, 0), ctx := 0, pl := 0, desc := [], state := 1, cause := 0, scrc := 0, dcrc := 0, mask := 0,
    badTiles := [], parked := none, rm := 0, base := 0, seed := 0, phase := 0, out := [], got := [], bad := none, farBad := false }
theorem witness_CopyCommands :
    let s := copier 0
    let busy := s.setCore 1 { s.coreAt 1 with copies := List.replicate 8 idleCopy }
    isArray s.core = true ∧ (s.rd 1).toNat % 64 = 0 ∧ (s.myCore.copies.filter (fun m => m.state == 1)).length < 8
      ∧ 8 ≤ (busy.myCore.copies.filter (fun m => m.state == 1)).length
      ∧ (match recordAt s (s.rd 1) 8 [] with
        | some (b, u) => decide (b = copyDesc 0 ∧ u.myCore.thread = some (0, 1, 0))
        | none => false) = true
      ∧ (Instr.cstat 4 3 5).wf = true ∧ (copying.myCore.copyTag - (copying.rd 3).setWidth 16).toNat = 1
      ∧ (match copying.myCore.copies with
        | [m] => decide (m.tag = 0 ∧ m.state = 1 ∧ m.badTiles = [] ∧ m.farBad = false)
        | _ => false) = true := by decide
theorem witness_CopyEngine :
    let s := copying
    let bad : State := { (copier 0) with mem := memPutN (copier 0).mem verKey (leBytes 8 0xFD000000400100) }
    let b := run (.bcopy 3 1) bad
    Memory.wf s.mem = true ∧ (s.clusterAt (clusterOf 1)).halted = false ∧ (s.clusters.all (fun p => p.2.port.isEmpty)) = true
      ∧ (s.coreAt 2).copies = []
      ∧ (match (s.coreAt 1).copies.find? (fun m => decide (m.tag = 0 ∧ m.state = 1)) with
        | some m =>
          let q : EngWho := { ten := m.owner.1, pl := m.pl, core := some 1 }
          decide (m.parked = none ∧ m.phase = 0 ∧ m.out = [] ∧ m.op = 0 ∧ bitsAt (cSrc m.desc) 56 8 = 0 ∧ bitsAt (cSrc m.desc) 48 8 < 0xFE
            ∧ (cSrc m.desc).toNat % 65536 + cLen m.desc ≤ 65536)
          && (match s.copyPart q m.owner (cSrc m.desc) (cLen m.desc) false, s.copyPart q m.owner (cDst m.desc) (cLen m.desc) true with
            | .ok (.key a), .ok (.key b) => decide (a = verKey + 0x100 ∧ b = verKey + 0x200)
            | _, _ => false)
        | none => false) = true
      ∧ (match (b.coreAt 1).copies.find? (fun m => decide (m.tag = 0 ∧ m.state = 1)) with
        | some m => (match b.copyPart { ten := m.owner.1, pl := m.pl, core := some 1 } m.owner (cSrc m.desc) (cLen m.desc) false with
          | .error (.trap c _) => decide (c < 256)
          | _ => false)
        | none => false) = true := by decide +kernel

/-! ## The matrix engine (17 R324 to R333; 11 R227) -/

/-- Ring 2: twelve tiles from tile 0, one slot, the engine the consumer; its slot filled and handed over. -/
def fed : State := run (.advp 2 1) (run (.hdef 2 6) (regs [(6, 0x10C00 + 2 ^ 50)]))
/-- The issue core of a cluster whose weight slot 5 is full, of type bf16 (1). -/
def armed (s : State) : State :=
  s.setCluster 0 { s.clusterAt 0 with slots := [(5, { WSlot.reset with type := 1, state := 2 })] }
theorem test_mma : (run (.mma 2 1 5 1 1 1) fed).myCore.mqueue.length = 1 ∧ cause (run (.mma 3 1 5 1 1 1) fed) = (12, 0x301)
    ∧ cause (run (.mma 2 2 5 1 1 1) fed) = (12, 0x202) ∧ cause (run (.mma 2 1 5 4 1 1) fed) = (12, 0x206) := by decide +kernel
/-- The control context of a stage core. -/
def staged : State :=
  let s := thread.setCore 2 (thread.coreAt 1)
  { s with core := 2 }
theorem test_matrix_role : (run .mclr staged).me.tcause = 13 ∧ (run (.mchk 1) staged).me.tcause = 13 := by decide
theorem test_mclr : (run .mclr thread).myCore.mqueue.map (fun m => m.insn) = [.mclr] ∧ (run .mswap thread).myCore.mqueue.length = 1 := by decide
theorem test_mdrain : cause (run (.mdrain 1 0 0 0 0) (regs [(1, 2 ^ 19)])) = (5, 2 ^ 19)
    ∧ (run (.mdrain 1 0 0 0 6) (regs [(1, 64)])).me.rndctr = 128 := by decide
theorem test_mmap : (run (.mmap 4) (regs [(4, 1), (5, 2), (7, 4)])).myCore.mqueue.map (fun m => m.vals) = [[1, 2, 0, 4]] := by decide
theorem test_wbload : cause (run (.wbload 1 2) (regs [(1, 32)])) = (3, 32) ∧ cause (run (.wbload 1 2) (regs [(2, 2 ^ 22)])) = (5, 2 ^ 22) := by
  decide
theorem test_mpert : (run (.mpert 1 2) thread).me.tcause = 2
    ∧ (run (.mpert 1 2) (thread.setMe { thread.me with status := 0x50 })).myCore.mqueue.length = 1 := by decide
theorem test_mchk : (run (.mchk 1) (regs [(1, 7)])).myCore.mqueue.map (fun m => m.vals) = [[7]] := by decide
theorem test_mstat : (run (.mstat 1 2) (armed (regs [(1, 0x105)]))).rd 2 = 0x11000000 ∧ cause (run (.mstat 1 2) (regs [(1, 4096)])) = (5, 4096)
    ∧ (run (.mstat 1 2) (run .mclr thread)).me.stall = 15 := by decide
theorem witness_MatrixIssue :
    let s := fed
    let r := s.myCore.ringAt 2
    let full := s.setCore 1 { s.coreAt 1 with mqueue := List.replicate 4 (nth (run .mclr thread).myCore.mqueue
      { insn := .mclr, core := 1, ctx := 0, vals := [], rm := 0, base := 0, seed := 0, owner := (0, 1, 0), seq := 0, pl := 0, parked := none } 0) }
    (Instr.mma 2 1 5 1 1 1).wf = true ∧ (Instr.mdrain 1 0 0 0 0).wf = true ∧ (Instr.mmap 4).wf = true ∧ isArray s.core = true ∧ s.core % 2 = 1
      ∧ staged.core % 2 = 0 ∧ isArray staged.core = true ∧ isArray (service []).core = false
      ∧ r.peer = false ∧ r.pside = false ∧ r.cside = true ∧ r.slott = 12 ∧ r.nslot = 1 ∧ (s.myCore.ringAt 3).slott = 0
      ∧ s.myCore.mqueue.length < 4 ∧ 4 ≤ full.myCore.mqueue.length ∧ s.myCore.thread = some (0, 1, 0)
      ∧ (0x50 : W64).getLsbD 6 = true ∧ thread.me.status.getLsbD 6 = false ∧ (run .mclr thread).mBusy 1 = true ∧ s.mBusy 1 = false := by
  decide +kernel

/-- The engine with a command on bank 0, which the launch holds. -/
def engaged (i : Instr) (vals : List W64) : State :=
  let m : MCmd := { insn := i, core := 1, ctx := 0, vals := vals, rm := 0, base := 0, seed := 0, owner := (0, 1, 0), seq := 0, pl := 0, parked := none }
  let s := armed fed
  let k := s.clusterAt 0
  let r : MRun := { cmd := m, bank := 0, opA := none, pert := none, errs := [], rows := [], map := [], sent := 0 }
  let b : Bank := { Bank.reset with holder := some (0, 1), elems := [(0, 5)], flags := 3 }
  s.setCluster 0 { k with bank0 := b, active := [(0, 1, 0)], run := some r }
theorem test_complete_clear :
    let t := run (.matrixCommandComplete 0) (engaged .mclr [])
    (t.clusterAt 0).bank0.elems = [] ∧ (t.clusterAt 0).bank0.flags = 3 ∧ (t.clusterAt 0).run = none := by decide +kernel
theorem test_complete_map :
    let t := run (.matrixCommandComplete 0) (engaged (.mmap 4) [0x10, 0, 0, 0xF])
    (t.clusterAt 0).bank0.map.length = 64 ∧ (Tab.get (t.clusterAt 0).bank0.map 0 1, Tab.get (t.clusterAt 0).bank0.map 0 48) = (1, 15) := by
  decide +kernel
/-- Taking the MMA's operand A: with adv, the twelve tiles are T again and the ring's consumer side has advanced. -/
theorem test_read_a :
    let t := run (.mmaAReadEnd 0) (engaged (.mma 2 1 5 1 1 1) [])
    t.myCore.eTiles = [] ∧ (t.myCore.ringAt 2).fill = 0 ∧ ((t.clusterAt 0).run.map (fun r => r.opA.isSome)) = some true := by decide +kernel
/-- The first command of a queue is taken, with a fresh bank. -/
theorem test_take :
    let t := run (.matrixCommandTake 0) (run .mclr fed)
    t.myCore.mqueue = [] ∧ (t.clusterAt 0).bank0.holder = some (0, 1) ∧ (t.clusterAt 0).run.isSome = true := by decide +kernel

/-- A weight stream of bf16 (1) with ceiling 3: 192 blocks of zeros of 8 bytes each, 24 lines, in the tenant's page at +0x100. -/
def zeroStream : List Byte :=
  leBytes 4 1600 ++ [3, 1, 0] ++ List.replicate 57 0 ++ (List.replicate 192 ([2, 6] ++ List.replicate 6 (0 : Byte))).flatten
def loading (l : List Byte) : State :=
  let m : MCmd := { insn := .wbload 1 2, core := 1, ctx := 0, vals := [0x100010100, 5 + 3 * 64], rm := 0, base := 0, seed := 0, owner := (0, 1, 0),
                    seq := 0, pl := 0, parked := none }
  let s := { (paged (plain + 2 ^ 6) []) with mem := memPutN [] (verKey + 0x100) l }
  s.setCluster 0 { s.clusterAt 0 with wbload := some m }
theorem test_wbload_end : (Tab.get ((run (.wbloadComplete 0) (loading (leBytes 64 1))).clusterAt 0).slots WSlot.reset 5).state = 3 := by
  decide +kernel
theorem test_stream : (parseStream zeroStream).map (fun st => (st.type, st.records.length)) = some (1, 1536) ∧ parseStream (leBytes 64 64) = none := by
  decide +kernel
theorem witness_MatrixEngine :
    let s := engaged .mclr []
    let a := engaged (.mma 2 1 5 1 1 1) []
    let q := run .mclr fed
    let q1 := q.setCluster 0 { q.clusterAt 0 with active := [(0, 1, 0)] }
    (s.clusterAt 0).run.isSome = true ∧ ((s.clusterAt 0).bank 0).holder = some (0, 1)
      ∧ (match (a.clusterAt 0).run with
        | some r => decide (r.opA = none ∧ (a.coreAt r.cmd.core).thread = some r.cmd.owner)
        | none => false) = true
      ∧ (a.coreAt 1).engineOk (upTo 0 12) = true ∧ (∀ x ∈ upTo 0 12, Tab.get (a.coreAt 1).holders .free x = .running)
      ∧ ((a.coreAt 1).tilesT (upTo 0 12)).engineOk (upTo 0 12) = false ∧ a.poisoned (poolKey 1 0) (1024 * 12) = false
      ∧ (q1.clusterAt 0).run = none ∧ (q1.clusterAt 0).wbload = none ∧ (q1.clusterAt 0).halted = false ∧ (q1.clusterAt 0).gatedAt = none
      ∧ (q1.coreAt 1).mqueue.length = 1 ∧ (q1.cores.all (fun p => p.1 == 1 || p.2.mqueue.isEmpty)) = true ∧ (q1.clusterAt 0).reload = []
      ∧ (q1.clusterAt 0).activeOf (0, 1) = some 0 := by decide +kernel
theorem witness_MatrixEngine_stream :
    let s := loading (leBytes 64 1)
    (match (s.clusterAt 0).wbload with
      | some m => decide (m.parked = none)
      | none => false) = true
      ∧ (match s.readStream { ten := 0, pl := 0, core := some 1 } 0x100010100 with
        | .error (.trap c _) => decide (c = 14)
        | _ => false) = true := by decide +kernel
/-- One product of 2 and 3 added to an accumulator of 0, and of an infinity and 0 (11 R227). -/
theorem test_dot : (accumulate 0 (dotSum { } [.fin false 1 1] [.fin false 3 0]).value.1 0).1 = (fa56.encode 0 0 false (.fin false 6 0)).1
    ∧ (dotSum { } [.inf false] [.fin false 0 0]).value = (.nan false 1 1, fNV) := by decide +kernel
theorem take_drop_nth (n : Nat) : ∀ (l : List Byte) (a : Nat), a < l.length → (l.drop a).take (n + 1) = nth l 0 a :: (l.drop (a + 1)).take n
  | [], _, h => absurd h (Nat.not_lt_zero _)
  | _ :: _, 0, _ => rfl
  | _ :: r, a + 1, h => take_drop_nth n r a (Nat.lt_of_succ_lt_succ h)
/-- The page holds the stream. -/
theorem loading_peekN (l : List Byte) (n : Nat) : ∀ a, a + n ≤ l.length → (loading l).peekN (verKey + 0x100 + a) n = (l.drop a).take n := by
  induction n with
  | zero => intro a _; rw [List.take_zero]; rfl
  | succ m ih =>
    intro a h
    have hm : (loading l).peek (verKey + 0x100 + a) = nth l 0 a := by
      show memGet (memPutN [] (verKey + 0x100) l) (verKey + 0x100 + a) = _
      rw [memGet_memPutN rfl, if_pos (by omega), Nat.add_sub_cancel_left]
    rw [take_drop_nth m l a (by omega), ← ih (a + 1) (by omega), ← hm]
    rfl
theorem loading_read (l : List Byte) (a n : Nat) (va : W64) (h : a + n ≤ l.length)
    (hr : (loading l).streamRuns { ten := 0, pl := 0, core := some 1 } va n (n / 65536 + 2) = .ok [(verKey + 0x100 + a, n)]) :
    (loading l).streamRead { ten := 0, pl := 0, core := some 1 } va n = .ok ((l.drop a).take n) := by
  have e : (loading l).engByte { ten := 0, pl := 0, core := some 1 } = (loading l).peek := by
    funext k
    show (if isArray 1 && isHbm k then (loading l).portByte 0 k else (loading l).peek k) = _
    split <;> rfl
  have p : (upTo (verKey + 0x100 + a) n).map (loading l).peek = (l.drop a).take n := loading_peekN l n a h
  simp only [State.streamRead, hr, e, List.flatMap_cons, List.flatMap_nil, p, List.append_nil]
  rfl
theorem loading_stream (l : List Byte) (st : Machine.Stream) (hl : l.length = 1600) (h3 : streamLen ((l.drop 0).take 64) = some 1600)
    (h4 : parseStream ((l.drop 0).take 64 ++ (l.drop 64).take 1536) = some st) :
    (loading l).readStream { ten := 0, pl := 0, core := some 1 } 0x100010100 = .ok ((l.drop 0).take 64 ++ (l.drop 64).take 1536, st) := by
  have h1 := loading_read l 0 64 0x100010100 (by omega) rfl
  have h2 := loading_read l 64 1536 (0x100010100 + 64) (by omega) rfl
  unfold State.readStream
  rw [h1]
  dsimp only
  rw [h3]
  dsimp only
  rw [show (1600 - 64 : Nat) = 1536 from rfl, h2]
  dsimp only
  rw [h4]
/-- The stream of zeros can be read, fits a slot of ceiling 3, and is of the declared type. -/
theorem witness_MatrixEngine_fits : ∃ raw st, (loading zeroStream).readStream { ten := 0, pl := 0, core := some 1 } 0x100010100 = .ok (raw, st)
    ∧ st.ceild ≤ 3 ∧ st.records.length / 64 ≤ 511 := by
  have h4 : (parseStream ((zeroStream.drop 0).take 64 ++ (zeroStream.drop 64).take 1536)).map (fun st => (st.ceild, st.records.length))
      = some (3, 1536) := by decide +kernel
  cases hs : parseStream ((zeroStream.drop 0).take 64 ++ (zeroStream.drop 64).take 1536) with
  | none => rw [hs] at h4; cases h4
  | some st =>
    rw [hs] at h4
    simp only [Option.map_some, Option.some.injEq, Prod.mk.injEq] at h4
    exact ⟨_, st, loading_stream zeroStream st (by decide +kernel) (by decide +kernel) hs, by omega, by omega⟩

/-! ## Vectors (16 R293 to R318; 06 R110 to R112) -/

/-- Core 1 with eight vector registers (tiles 246 to 253), G = 16, and v0 = 5, −1; v1 = 7, 3; v3 = 1.0, 2.0; v4 = 2.0, 3.0 (f32). -/
def lanes (l : List (Nat × W64)) : State :=
  let s := regs l
  let k := s.coreAt 1
  let k1 : Core := { k with partw := 1, holders := (upTo 246 8).map (fun t => (t, Holder.running)) }
  let v := fun (m : List Host.Cell) (r a b : Nat) => memPutN m (poolKey 1 ((246 + r) * 1024)) (leBytes 4 a ++ leBytes 4 b)
  let s1 : State := { (s.setCore 1 k1) with
    mem := v (v (v (v [] 0 5 0xFFFFFFFF) 1 7 3) 3 0x3F800000 0x40000000) 4 0x40000000 0x40400000 }
  s1.setMe { s1.me with vgrant := 16 }
/-- A command of context 0 with its one pass bound. -/
def vcmd (i : Instr) (v1 v2 : W64) : VCmd :=
  { insn := i, ctx := 0, v1 := v1, v2 := v2, grant := 16, rm := 0, base := 0, bound := 1, done := 0, parked := none }
/-- The state with the command at the head of the queue. -/
def headed (i : Instr) (v1 v2 : W64) : State := (lanes []).setCore 1 { (lanes []).coreAt 1 with vq := [vcmd i v1 v2] }
/-- The state after its last pass. -/
def passed (i : Instr) (v1 v2 : W64) : State := after (execVectorPassComplete 1 (headed i v1 v2))
/-- Elements 0 and 1 of v2, of width 32. -/
def v2of (s : State) : Nat × Nat := (s.vGet 1 2 32 0, s.vGet 1 2 32 1)

theorem test_vadd : v2of (passed (.vaddI 0 2 0 1 0) 0 0) = (12, 2) ∧ v2of (passed (.vsubI 0 2 0 1 0) 0 0) = (0xFFFFFFFE, 0xFFFFFFFC)
    ∧ v2of (passed (.vsubI 3 2 0 1 0) 128 0) = (0, 0xFFFFFFFC) := by decide +kernel
theorem test_vmul : v2of (passed (.vmulI 0 2 0 1 0) 0 0) = (35, 0xFFFFFFFD) ∧ v2of (passed (.vmulh 0 2 0 1 0) 0 0) = (0, 0xFFFFFFFF)
    ∧ v2of (passed (.vmulh 3 2 0 1 0) 0 0) = (0, 2) := by decide +kernel
theorem test_vminmax : v2of (passed (.vminI 0 2 0 1 0) 0 0) = (5, 0xFFFFFFFF) ∧ v2of (passed (.vmaxI 0 2 0 1 0) 0 0) = (7, 3)
    ∧ v2of (passed (.vabsI 0 2 0 0) 0 0) = (5, 1) := by decide +kernel
theorem test_vbits : v2of (passed (.vand 0 2 0 1 0) 0 0) = (5, 3) ∧ v2of (passed (.vor 0 2 0 1 0) 0 0) = (7, 0xFFFFFFFF)
    ∧ v2of (passed (.vxor 0 2 0 1 0) 0 0) = (2, 0xFFFFFFFC) ∧ v2of (passed (.vshl 0 2 0 1 0) 0 0) = (640, 0xFFFFFFF8) := by decide +kernel
theorem test_vshift : v2of (passed (.vshr 0 2 0 1 0) 0 0) = (0, 0x1FFFFFFF) ∧ v2of (passed (.vshra 0 2 0 1 0) 0 0) = (0, 0xFFFFFFFF) := by
  decide +kernel
/-- f32: 1 + 2 = 3, 2 + 3 = 5; 1 − 2 = −1; 1·2 = 2, 2·3 = 6. -/
theorem test_vfloat : v2of (passed (.vaddF 0 2 3 4 0) 0 0) = (0x40400000, 0x40A00000) ∧ (v2of (passed (.vsubF 0 2 3 4 0) 0 0)).1 = 0xBF800000
    ∧ v2of (passed (.vmulF 0 2 3 4 0) 0 0) = (0x40000000, 0x40C00000) := by decide +kernel
theorem test_vfloat2 : (v2of (passed (.vfma 0 2 3 4 0) 0 0)).1 = 0x40000000 ∧ (v2of (passed (.vdiv 0 2 3 4 0) 0 0)).1 = 0x3F000000
    ∧ (v2of (passed (.vsqrt 0 2 3 0) 0 0)).1 = 0x3F800000 ∧ (v2of (passed (.vabsF 0 2 3 0) 0 0)).1 = 0x3F800000 := by decide +kernel
theorem test_vminmaxF : v2of (passed (.vminF 0 2 3 4 0) 0 0) = (0x3F800000, 0x40000000) ∧ v2of (passed (.vmaxF 0 2 3 4 0) 0 0) = (0x40000000, 0x40400000) := by
  decide +kernel
/-- exp2(1) = 2 and exp2(2) = 4 (R314). -/
theorem test_vsfu : (passed (.vsfu 0 2 3 0 0) 0 0).vGet 1 2 32 0 = 0x40000000 ∧ (passed (.vsfu 0 2 3 0 0) 0 0).vGet 1 2 32 1 = 0x40800000 := by
  decide +kernel
/-- f32 to i32: 1, 2; and i32 to f32: 5.0. -/
theorem test_vcvt : v2of (passed (.vcvt 0 2 3 1 0 0 0) 0 0) = (1, 2) ∧ (v2of (passed (.vcvt 0 2 0 0 1 0 0) 0 0)).1 = 0x40A00000 := by decide +kernel
theorem test_vperm : v2of (passed (.vperm 0 2 0 1 0) 0 0) = (0, 0) ∧ v2of (passed (.vslide 0 2 0 0) 0 1) = (0xFFFFFFFF, 0)
    ∧ v2of (passed (.vbcast 0 2 0) 0 9) = (9, 9) ∧ v2of (passed (.vidx 0 2 0) 0 0) = (0, 1) := by decide +kernel
theorem test_vsel : v2of (passed (.vsel 0 2 0 1 0) 0 0) = (5, 0xFFFFFFFF) ∧ v2of (passed (.vsel 0 2 0 1 0) 1 0) = (7, 3) := by decide +kernel
theorem test_vcmp : ((passed (.vcmpeq 0 1 1 0 0 0) 0 0).ctxAt 1 0).krd 1 = 0xFFFF ∧ ((passed (.vcmpne 0 1 1 0 1 0) 0 0).ctxAt 1 0).krd 1 = 3
    ∧ ((passed (.vcmplt 0 1 1 0 1 0) 0 0).ctxAt 1 0).krd 1 = 3 ∧ ((passed (.vcmple 3 1 1 0 1 0) 0 0).ctxAt 1 0).krd 1 = 0xFFFD := by decide +kernel
/-- Mask logic on k0 (all ones) and k1 (zero). -/
theorem test_kmask : ((passed (.kand 2 0 0 0) 0 0).ctxAt 1 0).krd 2 = 0xFFFF ∧ ((passed (.kor 2 1 1 0) 0 0).ctxAt 1 0).krd 2 = 0
    ∧ ((passed (.kxor 2 0 1 0) 0 0).ctxAt 1 0).krd 2 = 0xFFFF ∧ ((passed (.knot 2 1 0) 0 0).ctxAt 1 0).krd 2 = 0xFFFF := by decide +kernel
/-- The x result of a command whose instruction has gone on. -/
def awaiting (i : Instr) (v1 : W64) : State :=
  let s := headed i v1 0
  let p : Pend := { reg := 9, va := 0, nb := 8, signed := false, place := .vec, pc := 0, keep := false, answer := none, got := [], ui := false }
  s.setMe { s.me with pends := [p] }
theorem test_kpopc : (after (execVectorPassComplete 1 (awaiting (.kpopc 9 0 0) 0))).rd 9 = 16
    ∧ (after (execVectorPassComplete 1 (awaiting (.vmovx 0 9 0 0) 1))).rd 9 = 0xFFFFFFFFFFFFFFFF := by decide +kernel
/-- The sum of v0 is 4; its least element −1; the product of floats 1·2 with fourteen zeros. -/
theorem test_vred : (v2of (passed (.vred 0 2 0 1 0 0) 0 0)).1 = 4 ∧ (v2of (passed (.vred 0 2 0 1 1 0) 0 0)).1 = 0xFFFFFFFF
    ∧ (v2of (passed (.vred 0 2 3 0 0 0) 0 0)).1 = 0x40400000 := by decide +kernel
/-- VQNT of 1.0, 2.0, 0, … to e4m3 (3): the scale is chosen; VDQNT gives the values back. -/
def quantised : State := passed (.vqnt 3 2 3 5 0) 0 0
theorem test_vqnt : quantised.vGet 1 2 8 2 = 0 ∧ (quantised.vGet 1 2 8 1) = quantised.vGet 1 2 8 0 + 8 := by decide +kernel
theorem test_vdqnt :
    let m := vcmd (.vdqnt 3 6 2 5 0) 0 0
    let t := after (execVectorPassComplete 1 (quantised.setCore 1 { quantised.coreAt 1 with vq := [m] }))
    (t.vGet 1 6 32 0, t.vGet 1 6 32 1) = (0x3F800000, 0x40000000) := by decide +kernel

/-- The control context issues: the command is queued and the instruction completes. -/
theorem test_vissue : (run (.vaddI 0 2 0 1 1) (lanes [])).myCore.vq.length = 1 ∧ cause (run (.vaddI 0 8 0 1 1) (lanes [])) = (10, 8)
    ∧ (run (.vaddI 0 2 0 1 1) (lanes [(2, 0x10)])).me.tcause = 1 := by decide +kernel
theorem test_vissue_x : (run (.kpopc 9 0 1) (lanes [])).me.pends.map (fun p => p.reg) = [9] ∧ (run (.vmovx 0 9 0 1) (lanes [(2, 256)])).me.tcause = 1 := by
  decide +kernel
theorem test_vmemory_issue : (run (.vld 0 2 1) (lanes [])).me.stall = stVec ∧ (run (.vst 0 2 1) (lanes [])).me.pc = 0x100000000
    ∧ (run (.vlds 0 2 1) (lanes [(3, 2 ^ 51)])).me.tcause = 1 := by decide +kernel
theorem witness_VectorIssue :
    let s := lanes [(2, 0), (3, 0)]
    let full := s.setCore 1 { s.coreAt 1 with vq := List.replicate 16 (vcmd (.vaddI 0 2 0 1 1) 0 0) }
    isArray s.core = true ∧ isArray (service []).core = false ∧ (Instr.vaddI 0 2 0 1 1).wf = true ∧ s.myCore.nvr = 8
      ∧ s.myCore.vq.length < 16 ∧ 16 ≤ s.me.vgrant.toNat ∧ (∀ m ∈ full.myCore.vq, m.passes ≠ 0) ∧ 16 ≤ full.myCore.vq.length
      ∧ s.me.grant = none ∧ s.vWaiting = none ∧ (s.rd (pairHi 1)).toNat / 2 ^ 51 = 0
      ∧ Nat.land (s.rd (pairLo 1)).toNat (2 ^ 64 - 1 - 0x8F) = 0 ∧ (Instr.vld 0 2 1).wf = true ∧ (Instr.vscat 0 2 1 1).wf = true
      ∧ (Instr.vgath 0 2 1 1).wf = true ∧ (Instr.vsts 0 2 1).wf = true ∧ (Instr.kor 1 2 3 0).wf = true := by decide +kernel

/-- G = 20 asks for 32; alone in the octet with VWT 1 the cap is 256. -/
theorem test_vclaim : (run (.vclaim 5 1) (lanes [(2, 20)])).rd 5 = 32 ∧ (run (.vclaim 5 1) (lanes [(2, 20)])).me.vgrant = 32
    ∧ (run (.vclaim 5 1) (lanes [])).me.vgrant = 0 := by decide
theorem test_vstat : (run (.vstat 5 0) (headed (.vaddI 0 2 0 1 1) 0 0)).rd 5 = 0x100121 := by decide
theorem test_vfence : (run (.vfence 0) (lanes [])).me.pc = 0x100000004 ∧ (run (.vfence 0) (headed (.vaddI 0 2 0 1 1) 0 0)).me.stall = 15 := by decide
/-- The octet's accumulator queue holds a row of ones. -/
def accumulated : State :=
  let s := lanes []
  s.setOctet 0 { s.octetAt 0 with accq := [List.replicate 64 1] }
theorem test_vpopq : (run (.vpopq 2 0) (lanes [])).me.stall = 15 ∧ (run (.vpopq 2 0) accumulated).myCore.vq.length = 1
    ∧ cause (run (.vpopq 9 0) accumulated) = (10, 9) := by decide
theorem witness_VectorControl :
    let s := lanes [(2, 20)]
    let h := headed (.vaddI 0 2 0 1 1) 0 0
    (Instr.vclaim 5 1).wf = true ∧ (Instr.vfence 0).wf = true ∧ (Instr.vpopq 2 0).wf = true ∧ (Instr.vstat 5 0).wf = true
      ∧ isArray s.core = true ∧ s.me.grant = none ∧ s.myCore.vq = [] ∧ h.vWaiting = none ∧ 0 < h.myCore.vq.length
      ∧ (∀ m ∈ h.myCore.vq, m.passes ≠ 0) ∧ s.myCore.nvr = 8 ∧ (s.octetAt (octetOf 1)).accq.length = 0
      ∧ (accumulated.octetAt (octetOf 1)).accq.length = 1 ∧ octetOf 1 = 0 := by decide
theorem witness_VectorArithmetic :
    let s := headed (.vaddI 0 2 0 1 0) 0 0
    let m := vcmd (.vaddI 0 2 0 1 0) 0 0
    Memory.wf s.mem = true ∧ (s.coreAt 1).vq = m :: [] ∧ m.done + 1 = m.passes ∧ m.done < m.bound ∧ m.parked = none ∧ m.grant ≤ 256
      ∧ (∀ n ∈ (s.coreAt 1).vTiles m, Tab.get (s.coreAt 1).holders .free n = .running) ∧ (s.coreAt 1).nvr ≤ 32 ∧ m.insn.wf = true
      ∧ (∀ v ∈ [(2 : BitVec 5), 0, 1], v.toNat < (s.coreAt 1).nvr) := by decide +kernel
theorem witness_VectorMasksAndReductions :
    let s := awaiting (.kpopc 9 0 0) 0
    let m := vcmd (.kpopc 9 0 0) 0 0
    let q := headed (.vqnt 3 2 3 5 0) 0 0
    Memory.wf s.mem = true ∧ (s.coreAt 1).vq = m :: [] ∧ m.done + 1 = m.passes ∧ (s.ctxAt 1 0).pends.length = 1
      ∧ (s.ctxAt 1 0).pends.all (fun g => decide (g.place = .vec ∧ g.keep = false ∧ g.nb = 8)) = true
      ∧ (∀ n ∈ (q.coreAt 1).vTiles (vcmd (.vqnt 3 2 3 5 0) 0 0), Tab.get (q.coreAt 1).holders .free n = .running)
      ∧ (Instr.vqnt 3 2 3 5 0).wf = true ∧ (Instr.vcmpeq 0 1 1 0 0 0).wf = true ∧ (Instr.kand 2 0 0 0).wf = true
      ∧ (Instr.vred 0 2 0 1 0 0).wf = true ∧ (Instr.vred 0 2 3 0 0 0).wf = true ∧ (Instr.vdqnt 3 6 2 5 0).wf = true
      ∧ (Instr.vmovx 0 9 0 0).wf = true := by decide +kernel

theorem test_bind :
    let s := (headed (.vaddI 0 2 0 1 0) 0 0).setCore 1 { (headed (.vaddI 0 2 0 1 0) 0 0).coreAt 1 with vq := [{ vcmd (.vaddI 0 2 0 1 0) 0 0 with bound := 0 }] }
    (run (.vectorPassBind 0) s).myCore.vq.map (fun m => m.bound) = [1] ∧ (run (.vectorPassBind 1) s).myCore.vq.map (fun m => m.bound) = [0] := by
  decide +kernel
/-- VLD from the own cluster's memory, and VST to it. -/
def cmemVa : W64 := 0xFD000000000000
def vloading (i : Instr) : State :=
  let s := headed i cmemVa 0
  { s with mem := memPutN s.mem (cmemKey 0 0) (leBytes 4 9 ++ leBytes 4 8) }
theorem test_vld : v2of (after (execVectorPassComplete 1 (vloading (.vld 0 2 0)))) = (9, 8)
    ∧ (after (execVectorPassComplete 1 (vloading (.vld 0 2 0)))).me.grant = some 0 := by decide +kernel
theorem test_vst : (after (execVectorPassComplete 1 (vloading (.vst 0 1 0)))).peekLe (cmemKey 0 4) 4 = 3
    ∧ (after (execVectorPassComplete 1 (headed (.vst 0 1 0) (cmemVa + 1) 0))).me.due = [(3, cmemVa + 1, 0x100000000)] := by decide +kernel
/-- Stride 4 and an offset register of zeros; v5 holds 0, so that all elements of the gather come from the base. -/
theorem test_vstride : v2of (after (execVectorPassComplete 1 ((headed (.vlds 0 2 0) cmemVa 4).pokeN (cmemKey 0 0) [1, 0, 0, 0, 2]))) = (1, 2)
    ∧ v2of (after (execVectorPassComplete 1 (vloading (.vgath 0 2 5 0)))) = (9, 9) := by decide +kernel
theorem test_vscatter : (after (execVectorPassComplete 1 (vloading (.vscat 0 1 5 0)))).peekLe (cmemKey 0 0) 4 = 0
    ∧ (after (execVectorPassComplete 1 (vloading (.vsts 0 1 0)))).peekLe (cmemKey 0 0) 4 = 0 := by decide +kernel
def cells16 (s : State) (wr : Bool) : Bool := (upTo 0 16).all (fun i =>
  match s.vPlace 1 0 (cmemVa + BitVec.ofNat 64 (4 * i)) 4 wr with
  | .ok [(0, .key k)] => decide (k = cmemKey 0 (4 * i))
  | _ => false)
theorem witness_VectorPasses :
    let s := vloading (.vld 0 2 0)
    let b := (headed (.vaddI 0 2 0 1 0) 0 0).setCore 1 { s.coreAt 1 with vq := [{ vcmd (.vaddI 0 2 0 1 0) 0 0 with bound := 0 }] }
    Memory.wf s.mem = true ∧ isArray 1 = true ∧ s.poison = [] ∧ cells16 s false = true ∧ cells16 (vloading (.vst 0 1 0)) true = true
      ∧ (match s.vPlace 1 0 (cmemVa + 1) 4 false with
        | .trap c _ => decide (c = 3)
        | _ => false) = true
      ∧ poolOf (cmemKey 0 0) = none ∧ isHbm (cmemKey 0 0) = false ∧ s.cells = [] ∧ (b.coreAt 1).vNext.isSome = true ∧ b.vwtOf 1 ≠ 0
      ∧ (b.cores.all (fun p => p.1 == 1 || p.2.vNext.isNone)) = true := by decide +kernel

/-! ## Power, virtual functions, register writes (01 R12 to R19; 03 R54; 04 R65 to R76; 09 R183) -/

/-- The module in A2, DLTOL 100. -/
def asleep : State := { State.reset with power := { Power.reset with cur := 2, dltol := 100 } }
/-- Every cluster gated since clk 0, DLTOL 250 µs, and 400,000 clk later. -/
def gated : State :=
  { State.reset with now := 400000, power := { Power.reset with dltol := 250 }, clusters := (upTo 0 256).map (fun i => (i, { Cluster.reset with gatedAt := some 0 })) }

/-- A write of the host wakes the module (01 R17), whatever it writes. -/
theorem test_tolerances : (run (.dltolWrite 5) asleep).power.waking = some 40000 ∧ (run (.dltolWrite 50) asleep).power.waking = some 40000
    ∧ (run (.dltolWrite 0xFF000005) asleep).power.dltol = 5 ∧ ((run (.tltolWrite 2 7) asleep).tenantAt 2).tltol = 7 := by decide
/-- A tolerance of an enabled tenant ends an entry under way; one of a tenant that is not enabled is only written. -/
theorem test_tltol_wakes :
    (run (.tltolWrite 2 7) asleep).power.waking = some 40000 ∧ (run (.tltolWrite 2 7) State.reset).power.waking = none := by decide
theorem test_gating : ((run (.clusterClockGate 3) { State.reset with now := 64 }).clusterAt 3).gatedAt = some 64
    ∧ ((run (.clusterClockGate 3) { State.reset with now := 63 }).clusterAt 3).gatedAt = none
    ∧ ((run (.a1Exit 0) (thread.setCluster 0 { thread.clusterAt 0 with gatedAt := some 0 })).clusterAt 0).gatedAt = none := by decide
theorem test_sleep : (run .sleepEntry gated).power.entering = some 3 := by decide +kernel
theorem test_sleep_done : (run .sleepEntry { gated with power := { gated.power with entering := some 3 } }).power.cur = 3 := by decide +kernel
theorem test_wake : (run .wakeExitComplete (run (.dltolWrite 5) asleep)).power.cur = 0 ∧ (run .wakeExitComplete asleep).power.cur = 2 := by decide
theorem test_limiter : (run (.powerLimiterInterval 3201) State.reset).power.lim = true ∧ (run (.powerLimiterInterval 3200) State.reset).power.lim = false := by
  decide
theorem test_removal : (run .powerRemoval thread).power.off = true ∧ (run .coldReset thread).now = 0 ∧ (run .coldReset thread).core = 1 := by decide
theorem test_moduleReset : ∃ t, exec .moduleReset thread = .next t := ⟨_, rfl⟩
theorem witness_PowerAndResets :
    let off := { thread with power := { Power.reset with off := true } }
    asleep.power.waking = none ∧ asleep.power.entering = none ∧ asleep.power.dltol.toNat < 20000 ∧ Memory.wf off.mem = true
      ∧ gated.power.entering = none ∧ gated.power.waking = none ∧ gated.power.cur < 3 ∧ bitsAt gated.fabric.fpod 8 3 = 0
      ∧ gated.clusters.all (fun p => decide (p.2.gatedAt = some 0)) = true ∧ max 0 gated.power.dwell + 400000 ≤ gated.now
      ∧ gated.launches = [] ∧ gated.fabric.unacked = [] ∧ gated.fabric.sendq = [] ∧ gated.tenants = []
      ∧ (State.reset.clusterIdle 3) = true ∧ (thread.clusterIdle 0) = false ∧ off.power.off = true ∧ asleep.power.off = false := by decide +kernel

/-- Tenant 2 enabled, with counters 8 to 11, pages 0 and 1, its entry 0 of MSI-X unmasked. -/
def hosted : State :=
  State.reset.setTenant 2 { Tenant.reset with
    vf := true, tecr := 8 + 4 * 2 ^ 16, tsubcfg := 16 + 2 * 2 ^ 16, msix := [(0, { Msix.reset with masked := false, addr := 0xFEE00000, data := 7 })] }
def ten2 (s : State) : Tenant := s.tenantAt 2
theorem test_vfEnable : (ten2 (run (.vfEnable 2) State.reset)).vf = true ∧ (run (.vfEnable 2) hosted).tenants = hosted.tenants := by decide
theorem test_vfDisable : (ten2 (run (.vfDisable 2) hosted)).vf = false ∧ (ten2 (run (.vfDisable 2) hosted)).msix = []
    ∧ (ten2 (run (.vfDisable 2) hosted)).tecr = 8 + 4 * 2 ^ 16 := by decide
theorem test_tenantReset : (ten2 (run (.tenantReset 2) hosted)).vf = true ∧ (ten2 (run (.tenantReset 2) hosted)).msix = []
    ∧ (((run (.tenantReset 2) (run (.ecincWrite 2 1 5) hosted)).counterAt 9).val) = 0 := by decide
theorem test_ecinc : ((run (.ecincWrite 2 1 5) hosted).counterAt 9).val = 5 ∧ (ten2 (run (.ecincWrite 2 4 5) hosted)).terr = 4
    ∧ (run (.ecincWrite 2 4 5) hosted).msixOut = [(2, 0, 0xFEE00000, 7)] := by decide
theorem test_cqhead : (ten2 (run (.cqheadWrite 2 1 1) hosted)).terr = 2 ∧ ((ten2 (run (.cqheadWrite 2 1 0) hosted)).pageAt 1).cqhead = 0 := by decide
theorem test_cqcfg : ((ten2 (run (.cqcfgWrite 2 1 false 0x15) hosted)).pageAt 1).cqcfg = 0x15 ∧ (ten2 (run (.cqcfgWrite 2 1 false 3) hosted)).terr = 2
    ∧ ((ten2 (run (.cqcfgWrite 2 1 true 0x12345) hosted)).pageAt 1).cqbase = 0x12000 := by decide
theorem test_posted : (ten2 (run (.submissionPageWrite 2 1) hosted)).terr = 1 ∧ (run (.submissionPageWrite 3 1) hosted).tenants = hosted.tenants := by decide
theorem test_unmask : ((ten2 (run (.msixVectorUnmask 2 5) hosted)).msixAt 5).masked = false
    ∧ (run (.msixVectorUnmask 2 0) (hosted.setTenant 2 { ten2 hosted with msix := [(0, { Msix.reset with pending := true, addr := 9 })] })).msixOut
      = [(2, 0, 9, 0)] := by decide
theorem witness_VirtualFunctions :
    let out := hosted.setTenant 2 { ten2 hosted with pages := [(1, { Page.reset with out := 1 })] }
    (ten2 hosted).vf = true ∧ (State.reset.tenantAt 2).vf = false ∧ bitsAt (ten2 hosted).tecr 16 13 = 4 ∧ (hosted.counterAt 9).trigs = []
      ∧ hosted.waiters = [] ∧ ((ten2 out).pageAt 1).out ≠ 0 ∧ ((ten2 hosted).pageAt 1).out = 0 ∧ State.reset.prevec = 0 := by decide

theorem test_trect : (ten2 (run (.trectWrite 2 0x1F0F0) State.reset)).trect = 0x1F0F0 ∧ (run (.trectWrite 2 0x10001) State.reset).mcerr = true
    ∧ (run (.trectWrite 3 0x1F0F0) (run (.trectWrite 2 0x1F0F0) State.reset)).mcerr = true := by decide
theorem test_trect_disable : (run (.trectWrite 0 0) thread).tenantAt 0 ≠ thread.tenantAt 0 ∧ ((run (.trectWrite 0 0) thread).tenantAt 0).trectNew = some 0 := by
  decide
theorem test_tecr : (ten2 (run (.tecrWrite 2 0x40008) State.reset)).tecr = 0x40008 ∧ (run (.tecrWrite 3 0x40009) hosted).mcerr = true := by decide
theorem test_tsubcfg : (ten2 (run (.tsubcfgWrite 2 0x10FFFF) State.reset)).tsubcfg = 0 ∧ (ten2 (run (.tsubcfgWrite 2 0x10F100) State.reset)).tsubcfg = 0x101100 := by
  decide
theorem test_testr : (ten2 (run (.testrWrite 2 0x20003) State.reset)).testr = 3 ∧ (run (.testrWrite 2 0x10001) State.reset).mcerr = true := by decide
theorem test_tfwin : (ten2 (run (.tfwinWrite 2 0x20000100000) State.reset)).tfwin = 0x20000100000 ∧ (run (.tfwinWrite 2 0x10000100000) State.reset).mcerr = true := by
  decide
theorem test_smpcfg : (ten2 (run (.smpcfgWrite 2 0x20A) State.reset)).smpcfg = 0x20A ∧ (ten2 (run (.smpcfgWrite 2 0x201) State.reset)).smpcfg = 512 := by decide
theorem test_prevec : (run (.prevecWrite 7) State.reset).prevec = 4 ∧ (run (.prevecWrite 3) State.reset).prevec = 0 := by decide
/-- A fault that waits in a tenant whose queue is enabled is written at the tail. -/
def waiting1 : State :=
  hosted.setTenant 2 { ten2 hosted with fqcfg := 0x108, fqWait := [newFault 0x20000 1 1 1 1] }
theorem test_faultEntry : (ten2 (run (.faultEntryWrite 2) waiting1)).fqtail = 1 ∧ (ten2 (run (.faultEntryWrite 2) waiting1)).fq.length = 1
    ∧ (ten2 (run (.faultEntryWrite 2) hosted)).fqtail = 0 := by decide
theorem test_mbreg : ((run (.mbregWrite 5 2 0x100000001) State.reset).mboxAt 5 2).tail = 1 ∧ ((run (.mbregWrite 5 2 0x100000001) State.reset).mboxAt 5 2).wake = true
    ∧ ((run (.mbregWrite 5 2 65) State.reset).mboxAt 5 2).tail = 0 ∧ ((run (.mbregWrite 5 0 0x10000) State.reset).mboxAt 5 0).head = 0 := by decide
theorem test_registerWrite : (ten2 (run (.registerWrite (.vf0 2) 0x200 4 2) (run (.cqheadWrite 2 1 1) hosted))).terr = 0
    ∧ (run (.registerWrite .pf 0x1004 4 0x1F40000) State.reset).power.plim = 1000 ∧ (run (.registerWrite .pf 0x1000 4 9) State.reset).power.dltol = 9 := by
  decide
/-- A handler at PL 1 registers, answers a trap message of core 2's context 0, and ends a restore. -/
def supervising (sv : Option (Nat × Nat)) : State :=
  let s := handler []
  let m : TrapMsg := { faddr := 0, fval := 0, tstatus := 0, taddr := 0, tval := 0, fcause := 0, ocause := 0, hop := 0, len := 0, origin := 2, octx := 0, ten := 0,
                       ctxid := 1, time := 0, since := 0, chain := 0 }
  let s1 := s.setCore 1 { s.coreAt 1 with inbox := [m], saving := sv }
  s1.setCore 2 { Core.reset with tvec := 0x7000, ctxs := [(0, { Ctx.reset with live := true, stopped := true })] }
theorem test_chreply : ((run (.chreplyWrite 1 0 1) (supervising none)).ctxAt 2 0).pc = 0x7000 ∧ (run (.chreplyWrite 1 0 2) (supervising none)).myCore.inbox.length = 1
    ∧ (run (.chreplyWrite 1 0 0) (supervising none)).kills.length = 1 := by decide
theorem test_esth : ((run (.esthWrite 1 0 (2 ^ 48)) (supervising none)).tenantAt 0).esth = 0x1000000010001
    ∧ ((run (.esthWrite 1 0 0) (supervising none)).tenantAt 0).esth = 0 := by decide
theorem test_prectl : (run (.prectlWrite 1 0 1) (supervising none)).myCore.cxerr = true ∧ (run (.prectlWrite 1 0 1) (supervising (some (1, 0)))).myCore.saving = none := by
  decide
theorem witness_RegisterWrites :
    let s := supervising none
    let idle := (handler []).setCore 1 { (handler []).coreAt 1 with saving := some (0, 0) }
    (s.ctxAt 1 0).live = true ∧ 1 ≤ (s.ctxAt 1 0).pl ∧ (s.coreAt 1).inbox.length = 1 ∧ (s.ctxAt 2 0).stopped = true
      ∧ (s.ctxAt 1 0).kind = .control ∧ (s.coreAt 1).thread = some (0, 1, 0) ∧ (thread.ctxAt 1 0).pl = 0 ∧ (thread.coreAt 1).inbox = []
      ∧ (idle.coreAt 1).saving = some (0, 0) ∧ (idle.coreAt 1).vq = [] ∧ (idle.coreAt 1).ctxs.length = 1
      ∧ bitOn (ten2 waiting1).fqcfg 8 = true ∧ ((ten2 waiting1).fqtail - (ten2 waiting1).fqhead).toNat < 2 ^ bitsAt (ten2 waiting1).fqcfg 0 4
      ∧ (ten2 waiting1).fqWait.length = 1 ∧ thread.tenantLive 0 = true ∧ State.reset.tenantLive 0 = false
      ∧ bitsAt (thread.tenantAt 0).trect 16 1 = 1 ∧ State.reset.tenWrite 2 0 (List.replicate 64 0) = none := by decide

/-! ## Submissions (04 R69 to R73, R79; 06 R102) -/

/-- A submission: its first word, TAG 9, P0, P1, P2. -/
def subm (w0 p0 p1 p2 : Nat) : List Byte := leBytes 8 w0 ++ leBytes 8 9 ++ leBytes 8 0 ++ leBytes 8 p0 ++ leBytes 8 p1 ++ leBytes 8 p2 ++ leBytes 80 0
/-- Page 0 of tenant 0 enabled with 16 places and a completion area at 0x5000; counters 8 to 11; DEPTH 4; a record in core 1's pool. -/
def pageOn : State :=
  let s := launcher 4
  s.setTenant 0 { s.tenantAt 0 with
    vf := true, tecr := 8 + 4 * 2 ^ 16, tsubcfg := 4 + 2 ^ 16, pages := [(0, { Page.reset with cqcfg := 0x14, cqbase := 0x5000 })] }
def page0 (s : State) : Page := (s.tenantAt 0).pageAt 0
/-- The page with its submission at the head. -/
def posted (l : List Byte) : State := run (.submission 0 0 0 l) pageOn
/-- LAUNCH of the record in core 1's pool. -/
def launchSub (a : Nat) : List Byte := subm 0x101 (0xFE001000000000 + a) 0 0

theorem test_submission : (page0 (posted (subm 4 0 0 0))).queue.length = 1 ∧ (page0 (posted (subm 4 0 0 0))).out = 1
    ∧ page0 (run (.submission 0 0 4 (subm 4 0 0 0)) pageOn) = page0 pageOn ∧ page0 (run (.submission 0 0 0 [0]) pageOn) = page0 pageOn := by
  decide +kernel
theorem test_submitNop : (page0 (run (.submitNop 0 0) (posted (subm 4 0 0 0)))).out = 0
    ∧ (page0 (run (.submitNop 0 0) (posted (subm 0x104 0 0 0)))).cqtail = 1
    ∧ (run (.submitNop 0 0) (posted (subm 0x104 0 0 0))).peekLe (hostKey 0x5000) 8 = 9
    ∧ (run (.submitNop 0 0) (posted (subm 0x104 0 0 0))).peekLe (hostKey 0x501C) 4 = 2 ^ 31 := by decide +kernel
/-- A NOP with P2 is malformed (status 3); a gate on a counter beyond the tenant's four is BADINDEX (6). -/
theorem test_submit_refused : (run (.submitNop 0 0) (posted (subm 0x104 0 0 1))).peekLe (hostKey 0x5008) 1 = 3
    ∧ (run (.submitNop 0 0) (posted (subm (0x504 + 4 * 2 ^ 16) 0 0 0))).peekLe (hostKey 0x5008) 1 = 6 := by decide +kernel
theorem test_submitEcadd : ((run (.submitEcadd 0 0) (posted (subm 0x102 3 7 0))).counterAt 11).val = 7
    ∧ (run (.submitEcadd 0 0) (posted (subm 0x102 4 7 0))).peekLe (hostKey 0x5008) 1 = 6 := by decide +kernel
theorem test_submitEcarm : ((run (.submitEcarm 0 0) (posted (subm 0x103 (1 + 2 * 4096 + 3 * 65536) 7 0))).counterAt 9).trigs.map (fun g => (g.thr, g.action, g.arg))
      = [(7, 2, 3)] := by decide +kernel
theorem test_submitLaunch : (run (.submitLaunch 0 0) (posted (launchSub 0))).launches.length = 2
    ∧ (run (.submitLaunch 0 0) (posted (launchSub 64))).peekLe (hostKey 0x5008) 1 = 3 := by decide +kernel
/-- An entry that fits no rectangle is REJECTED: 31 by 31 clusters. -/
def tooLarge : State :=
  let s := posted (launchSub 0)
  { s with mem := memPutN s.mem (poolKey 1 0) (leBytes 4 (1 + 2 ^ 8 + 31 * 2 ^ 16 + 31 * 2 ^ 24)) }
theorem test_submitLaunch_rejected : (run (.submitLaunch 0 0) tooLarge).peekLe (hostKey 0x5008) 1 = 4 ∧ (run (.submitLaunch 0 0) tooLarge).launches.length = 1 := by
  decide +kernel

/-- The head of the page is dispatchable. -/
def headIs (s : State) : Bool := (page0 s).queue.length == 1 && (page0 s).since == some 0 && s.awake
theorem witness_Submissions :
    let full := pageOn.setTenant 0 { pageOn.tenantAt 0 with pages := [(0, { page0 pageOn with out := 16 })] }
    let b (s : State) : Subm := nth (page0 s).queue { bytes := [], seq := 0 } 0
    let bad := posted (subm 0x104 0 0 1)
    let gate := posted (subm (0x504 + 4 * 2 ^ 16) 0 0 0)
    let add := posted (subm 0x102 3 7 0)
    let add' := posted (subm 0x102 4 7 0)
    let arm := posted (subm 0x103 (1 + 2 * 4096 + 3 * 65536) 7 0)
    (pageOn.tenantAt 0).vf = true ∧ 0 < bitsAt (pageOn.tenantAt 0).tsubcfg 16 5 ∧ bitOn (page0 pageOn).cqcfg 4 = true ∧ bitOn (pageOn.tenantAt 0).tsubcfg 12 = false
      ∧ (page0 pageOn).out ≠ 16 ∧ pageOn.depthFull 0 = false ∧ (page0 full).out = 2 ^ bitsAt (page0 full).cqcfg 0 4 ∧ (page0 pageOn).queue = []
      ∧ headIs bad = true ∧ (b bad).malformed = true ∧ headIs gate = true ∧ (b gate).malformed = false ∧ (b gate).kind = 4 ∧ (b gate).gidx = 4
      ∧ headIs (posted (subm 4 0 0 0)) = true ∧ headIs add = true ∧ headIs add' = true ∧ headIs arm = true ∧ (b add).kind = 2 ∧ (b arm).kind = 3
      ∧ bitsAt ((b add).word 3) 0 12 = 3 ∧ bitsAt ((b add').word 3) 0 12 = 4 ∧ (add.counterAt 11).trigs = [] ∧ add.waiters = []
      ∧ (b add).malformed = false ∧ (b add').malformed = false ∧ (b arm).malformed = false ∧ (b add).flag 10 = false
      ∧ (arm.counterAt 9).val.toNat < ((b arm).word 4).toNat := by decide +kernel
theorem witness_Submissions_launch :
    let s := posted (launchSub 0)
    let b (s : State) : Subm := nth (page0 s).queue { bytes := [], seq := 0 } 0
    let l (s : State) : Option Launch := (s.agentWords 0 ((b s).word 3) 24).map (fun r =>
      { ten := 0, ctxid := 5, record := r.take 128 ++ sliceBytes (b s).bytes 64 64, recVa := (b s).word 3, prio := 0, sub := none, queue := 0, state := .queued,
        since := 0, origin := 0, placedAt := none, ended := none, faulted := false, held := false, saved := [], evicted := [], records := [], finished := [] })
    headIs s = true ∧ headIs tooLarge = true ∧ (b s).malformed = false ∧ (b s).kind = 1 ∧ (b s).flag 10 = false
      ∧ (l s).map (fun x => (x.malformed, s.rejects x)) = some (false, false)
      ∧ (l tooLarge).map (fun x => (x.malformed, tooLarge.rejects x)) = some (false, true)
      ∧ (l (posted (launchSub 64))).map (fun x => x.malformed) = some true
      ∧ (posted (launchSub 0x200000)).agentWords 0 (BitVec.ofNat 64 0xFE001000200000) 24 = none := by decide +kernel

/-! ## Monitor calls and service commands (04 R82, R83; 05 R84 to R89) -/

/-- The firmware's mailbox entry at the head of a ring of service core 0. -/
def entryOn (s : State) (ring : Nat) (e : List Byte) : State := s.setMbox 0 ring { s.mboxAt 0 ring with tail := 1, ents := [(0, e)] }
/-- An entry with its type, code, tenant and arguments. -/
def entryOf (type code ten a0 a1 a2 a3 : Nat) : List Byte :=
  leBytes 8 type ++ leBytes 2 code ++ leBytes 2 ten ++ leBytes 4 0 ++ leBytes 8 a0 ++ leBytes 8 a1 ++ leBytes 8 a2 ++ leBytes 8 a3 ++ leBytes 16 0
/-- Tenant 2's table: root in frame 16, VA 0 to 0xFFFF mapped W and U to frame 0x1000; its window the 256 frames from there. -/
def mapped : State :=
  let s := State.reset
  let m := memPutN (memPutN (memPutN [] (16 * 65536) (leBytes 8 (1 + 17 * 65536))) (17 * 65536) (leBytes 8 (1 + 18 * 65536)))
    (18 * 65536) (leBytes 8 (1 + 2 + 8 + 1024 + 0x1000 * 65536))
  { s with mem := m, pool := [19, 20], boot := { s.boot with frames := [(0, 0x2000)] },
           tenants := [(2, { Tenant.reset with ptbase := 16 * 65536, tfwin := 0x1000 + 0x100 * 2 ^ 20 + 2 ^ 40 })] }
def call (func ten a0 a1 a2 : Nat) : State := entryOn mapped 3 (entryOf 0x20 func ten a0 a1 a2 0)
/-- STATUS and RES0 of the completed call. -/
def answer (s : State) : Nat × Nat := let e := Tab.get (s.mboxAt 0 3).ents [] 0
                                      (recNat e 12 2, recNat e 48 8)
def pteOf (frame bits : Nat) : Nat := 1 + bits + 1024 + frame * 65536

/-- BADARG for a misaligned VA; DENIED outside the window; ATTR for a versioned leaf on a plain frame. -/
theorem test_mappte_refused : answer (run (.mappte 0) (call 1 2 1 (pteOf 0x1001 2) 3)) = (2, 0) ∧ answer (run (.mappte 0) (call 1 2 0x10000 (pteOf 0x1100 2) 3)) = (1, 0)
    ∧ answer (run (.mappte 0) (call 1 2 0x10000 (pteOf 0x1001 0x20) 3)) = (3, 0) := by decide +kernel
/-- A new leaf in the bottom table; the old one returned; a table from the pool; the pool empty. -/
theorem test_mappte : (run (.mappte 0) (call 1 2 0x10000 (pteOf 0x1001 2) 3)).peekLe (18 * 65536 + 8) 8 = pteOf 0x1001 2
    ∧ answer (run (.mappte 0) (call 1 2 0 (pteOf 0x1001 2) 3)) = (0, pteOf 0x1000 10)
    ∧ (run (.mappte 0) (call 1 2 (2 ^ 29) (pteOf 0x1001 2) 3)).pool = [20]
    ∧ answer (run (.mappte 0) { call 1 2 (2 ^ 42) (pteOf 0x1001 2) 3 with pool := [] }) = (5, 0) := by decide +kernel
theorem test_frattr : (run (.frattr 0) (call 2 2 0x1000 5 0)).attr = [] ∧ answer (run (.frattr 0) (call 2 2 0x1001 0x80 0)) = (2, 0) := by decide +kernel
theorem test_frattr_sets : Tab.get (run (.frattr 0) (call 2 2 0x1001 0x65 0)).attr 0 0x1001 = 0x25 := by decide +kernel
theorem test_tencfg : ((run (.tencfg 0) (call 5 3 1 0x40008 0)).tenantAt 3).tecr = 0x40008 ∧ answer (run (.tencfg 0) (call 5 0xFFFF 1 0x40008 0)) = (2, 0)
    ∧ answer (run (.tencfg 0) (call 5 3 1 0x1FFF0001 0)) = (1, 0) := by decide +kernel
theorem test_quote_refused : answer (run (.quote 0) (call 4 2 0x20000 64 0)) = (2, 0) ∧ answer (run (.quote 0) (call 4 2 0 8 0)) = (2, 0) := by decide +kernel
/-- An unknown function, and a reserved bit of the entry: BADARG. A reserved TYPE goes to the die's log. -/
theorem test_monitor_heads : answer (run (.frattr 0) (call 6 2 0 0 0)) = (2, 0)
    ∧ answer (run (.quote 0) (entryOn mapped 3 (entryOf 0x220 2 2 0 0 0 0))) = (2, 0)
    ∧ (run (.quote 0) (entryOn mapped 3 (entryOf 0x30 2 2 0 0 0 0))).dieLog.length = 1 := by decide +kernel

/-- A 3,072-bit modulus whose factors this file forgot. -/
def testModulus : Nat :=
  ([0xbcc19303f77bbaccc5f6b198f3e6cdc4b28f0758c8408b66c8e88b7b330a8b0e,
   0x5152826de6990811cd9bc52dc1c15c85e6c5e6a5007964d3dc18ccf416f220ac,
   0xde819224a3af6975316427f1e7206b12cf19d750f4e785377a96ffdde8544de5,
   0xba032e2ef9ffa46d5378dd5e06194dd4b4a9c44a6ef57e3d16cd0566b7d03ce2,
   0x6a5bb3151b4e7d08cbadf6606cc1fe88ac6d93907e2486a30195b8fed62c9ac7,
   0x1bb2777de7bd54be5f8dd756996243426aff61b098374a07bafc1ab0c7053e95,
   0xd67ed8e1df5d8bac02440abd5f159ef3e1fcfc934597bbadcfebb8c21f051b83,
   0x6056b66af170f744561d5691c3a0fa55c14bfe9587206c23d288c5e8c1723077,
   0x9fec99e1edfd22736428da1bbd64b7342cf651a7fd7252c645fb5b8df8882ef6,
   0x5406f87582b392a55598fcbe206c1475ee5bbe85fd6765e4de0f26f627070650,
   0xc80390be6a86afea2e0b3103ad99844d669e5c33637541b8f9da608ea75ca1e5,
   0xd5180509e2316300ebae905af985c19b945a547d96ec401171f7da1b5341f873] : List Nat).foldl (fun a x => a * 2 ^ 256 + x) 0
/-- Its RSASSA-PSS signature, salt 1 to 32, over the 64 bytes of `testSegment`, made outside Lean. -/
def testSignature : Nat :=
  ([0x51ad7769d4cf7e8a58f27d8381a15231a2bc6b5b1b7de0e96bd33a6ba04dce6d,
   0xad822519ffb8d58dfe440781e5ac04a2f03b2a58916e147699f8d46867747db6,
   0x7612c0cc127b683fcdaaaf76ff206da943e9d9910bc18bf1dcda55b112185ed7,
   0x41435474510eaf710cffeef0f850f39436500ad676b01087b4e18b703fede71f,
   0xc22e4cced1e3c54b6ce0fd72b4f1ddf8870dff92f0b4e4da47e2a7ab110324a7,
   0x69761219ad558a749ccf0f14edb24ba667d11ff2bf09be3b797c2bebb07da218,
   0xd5183283a88cf5ad7726619bec8982c0add0178262902dac7f9742065d974587,
   0xe18d1c8603615aa5bc7a6bf6f81e37c0a24dd1a681d626bf05fa5cade9742d7b,
   0x41593f0f56de469b4b329029026df97aa478e5da69e2b1565da0ee3d149c24d6,
   0x5d9f19a3d2e42d27e6f54f7b62d8b8ef329f50d164de7553f7f95987251a2e24,
   0xb3e7d4685059117412066de6e426599541cf90b047ce439be83b271e6816f9de,
   0x73e9aae640a49207923bdd5a97d072ba3432490de814e5bf895ab5772d8d6121] : List Nat).foldl (fun a x => a * 2 ^ 256 + x) 0
/-- SHA-256 of the bytes 0 to 63. -/
def chunkMeas : Nat := 0xfdeab9acf3710362bd2658cdc9a29e8f9c757fcf9811603a8c447cd1d9151108
/-- A manifest's entry of one chunk, those bytes, for LOADVA 0x10000 (05 R94). -/
def chunkEntry : List Byte := leBytes 4 0 ++ leBytes 4 1 ++ leBytes 8 0x10000 ++ leBytes 8 64 ++ toBe 32 chunkMeas ++ leBytes 8 0
/-- SHA-256 of that entry. -/
def testMeas : Nat := 0x6b343099658e7887d9d9369417c5c8c9a669b6a2b3c1385df7db0ec7810d7d6d
/-- A DATA segment of that entry for VA 0x400, at offset 960 of its container (05 R87). -/
def testSegment : List Byte := leBytes 8 2 ++ leBytes 8 0x400 ++ leBytes 8 64 ++ leBytes 8 960 ++ toBe 32 testMeas
def testContainer : List Byte :=
  leBytes 4 0x4E435244 ++ leBytes 2 1 ++ leBytes 2 1 ++ leBytes 8 1024 ++ leBytes 48 0 ++ toBe 384 testModulus ++ leBytes 64 0 ++ testSegment
    ++ toBe 384 testSignature
/-- The container up to the measurement of its segment. -/
def testFront : List Byte :=
  leBytes 4 0x4E435244 ++ leBytes 2 1 ++ leBytes 2 1 ++ leBytes 8 1024 ++ leBytes 48 0 ++ toBe 384 testModulus ++ leBytes 64 0
    ++ (leBytes 8 2 ++ leBytes 8 0x400 ++ leBytes 8 64 ++ leBytes 8 960)
theorem nth_skip (a l : List Byte) (j : Nat) : nth (a ++ l) 0 (a.length + j) = nth l 0 j := by
  induction a with
  | nil => simp
  | cons b r ih => rw [List.length_cons, Nat.add_right_comm]; exact ih
theorem map_upTo (l : List Byte) : ∀ k (f : Nat → Byte), (∀ j, j < l.length → f (k + j) = nth l 0 j) → (upTo k l.length).map f = l := by
  induction l with
  | nil => intros; rfl
  | cons b r ih =>
    intro k f h
    show f k :: (upTo (k + 1) r.length).map f = b :: r
    rw [show f k = b from h 0 (Nat.succ_pos _), ih (k + 1) f (fun j hj => by
      rw [Nat.add_assoc, Nat.add_comm 1 j]; exact h (j + 1) (Nat.succ_lt_succ hj))]
theorem nth_append (l c : List Byte) : ∀ j, j < l.length → nth (l ++ c) 0 j = nth l 0 j := by
  induction l with
  | nil => intro j h; exact absurd h (Nat.not_lt_zero _)
  | cons b r ih =>
    intro j h
    cases j with
    | zero => rfl
    | succ j => exact ih j (Nat.lt_of_succ_lt_succ h)
theorem slice_mid (a b c : List Byte) (o n : Nat) (ha : a.length = o) (hb : b.length = n) : sliceBytes (a ++ (b ++ c)) o n = b := by
  subst ha hb
  exact map_upTo b _ _ (fun j hj => by rw [nth_skip, nth_append b c j hj])
theorem leBytes_len (n : Nat) : ∀ v, (leBytes n v).length = n := by
  induction n with
  | zero => intro; rfl
  | succ n ih => intro v; exact congrArg (· + 1) (ih _)
theorem toBe_len (n v : Nat) : (toBe n v).length = n := by rw [toBe, List.length_reverse, leBytes_len]
theorem testSegment_len : testSegment.length = 64 := by simp only [testSegment, List.length_append, leBytes_len, toBe_len]
theorem testContainer_front : testContainer = testFront ++ (toBe 32 testMeas ++ toBe 384 testSignature) := by
  simp only [testContainer, testFront, testSegment, List.append_assoc]
theorem testFront_len : testFront.length = 544 := by simp only [testFront, List.length_append, leBytes_len, toBe_len]
theorem testContainer_len : testContainer.length = 960 := by
  rw [testContainer_front, List.length_append, List.length_append, testFront_len, toBe_len, toBe_len]
theorem chunkEntry_len : chunkEntry.length = 64 := by simp only [chunkEntry, List.length_append, leBytes_len, toBe_len]
theorem testContainer_meas : sliceBytes testContainer 544 32 = toBe 32 testMeas := by
  rw [testContainer_front]; exact slice_mid _ _ _ _ _ testFront_len (toBe_len _ _)
theorem chunk_meas : sha256 chunkEntry = toBe 32 testMeas := by decide +kernel
/-- The signature is the signer's for these bytes. -/
theorem test_rsa : rsaVerify (toBe 384 testModulus) testSegment (toBe 384 testSignature) = true := by decide +kernel
/-- Cells of bytes from a key. -/
def cellsFrom (k : Nat) (l : List Byte) : List Host.Cell := match l with
  | [] => []
  | b :: r => if b = 0 then cellsFrom (k + 1) r else (k, b) :: cellsFrom (k + 1) r
theorem memGet_cellsFrom_low (l : List Byte) : ∀ k j, j < k → memGet (cellsFrom k l) j = 0 := by
  induction l with
  | nil => intros; rfl
  | cons b r ih =>
    intro k j h
    unfold cellsFrom
    split
    · exact ih _ _ (by omega)
    · unfold memGet; rw [if_neg (by omega)]; exact ih _ _ (by omega)
theorem read_cellsFrom (l : List Byte) : ∀ k (f : Nat → Byte), (∀ j, k ≤ j → f j = memGet (cellsFrom k l) j) → (upTo k l.length).map f = l := by
  induction l with
  | nil => intros; rfl
  | cons b r ih =>
    intro k f h
    have hk := h k (Nat.le_refl k)
    have h0 : f k = b := by
      rw [hk]; unfold cellsFrom
      split
      · rename_i hb; rw [memGet_cellsFrom_low r _ _ (by omega)]; exact hb.symm
      · unfold memGet; rw [if_pos rfl]
    have h1 := ih (k + 1) f (fun j hj => by
      rw [h j (by omega)]
      conv => lhs; unfold cellsFrom
      split
      · rfl
      · conv => lhs; unfold memGet
        rw [if_neg (by omega)])
    show f k :: (upTo (k + 1) r.length).map f = b :: r
    rw [h0, h1]
theorem memGet_append (p q : List Host.Cell) (k : Nat) (h : p.all (fun c => c.1 != k) = true) : memGet (p ++ q) k = memGet q k := by
  induction p with
  | nil => rfl
  | cons c r ih =>
    simp only [List.all_cons, Bool.and_eq_true, bne_iff_ne] at h
    have e : memGet (c :: (r ++ q)) k = memGet (r ++ q) k := by
      conv => lhs; unfold memGet
      rw [if_neg (Ne.symm h.1)]
    exact e.trans (ih h.2)
/-- SEGLOAD of it by tenant 2, whose page 0 holds it; the segment's bytes lie behind it, at VA 0x400. -/
def segPage : List Byte := testContainer ++ leBytes 64 0 ++ chunkEntry
def segLoading : State :=
  let s := call 3 2 0 0 0
  { s with mem := s.mem ++ cellsFrom 0x10000000 segPage }
theorem segLoading_peek (j : Nat) (h : 0x10000000 ≤ j) : segLoading.peek j = memGet (cellsFrom 0x10000000 segPage) j := by
  refine memGet_append _ _ _ ?_
  have hb : (call 3 2 0 0 0).mem.all (fun c => decide (c.1 < 0x10000000)) = true := by decide +kernel
  rw [List.all_eq_true] at hb ⊢
  intro c hc
  have := of_decide_eq_true (hb c hc)
  simp only [bne_iff_ne]; omega
theorem segLoading_page : segLoading.peekN 0x10000000 1088 = segPage := by
  have hl : segPage.length = 1088 := by simp only [segPage, List.length_append, testContainer_len, leBytes_len, chunkEntry_len]
  unfold State.peekN
  rw [← hl]
  exact read_cellsFrom segPage _ _ segLoading_peek
theorem test_segload_keys : segLoading.tenKeys 2 0 false 960 2 = some [(0x10000000, 960)]
    ∧ segLoading.tenKeys 2 0x400 false 64 2 = some [(0x10000400, 64)] := by decide +kernel
/-- BADARG for a container that cannot be read, and for an index beyond it. -/
theorem test_segload_refused : answer (run (.segload 0) (call 3 2 0x20000 0 0)) = (2, 0) ∧ containerOk testContainer 1024 1 = false := by decide +kernel
theorem test_segload_container : containerOk testContainer 1024 0 = true ∧ (segLoading.attestOf 2).log.length < 1024 := by decide +kernel
/-- The key hash is fused, a constant without a value: with it the test's key's, the signer is accepted. -/
theorem test_key (k : List Byte) (h : Config.vendorKeyHash = sha256 k) : keyAccepted k false = true := by
  unfold keyAccepted; rw [h, beq_self_eq_true]; rfl
/-- The segment's bytes have the measurement, its container is in order, and the steps of R89 all pass where the fused hash is the
key's (the signature: test_rsa). -/
theorem witness_MonitorCalls_segload (h : Config.vendorKeyHash = sha256 (sliceBytes testContainer 64 384)) :
    segLoading.peekN 0x10000000 1088 = segPage ∧ segLoading.tenKeys 2 0 false 960 2 = some [(0x10000000, 960)]
      ∧ segLoading.tenKeys 2 0x400 false 64 2 = some [(0x10000400, 64)] ∧ containerOk testContainer 1024 0 = true
      ∧ keyAccepted (sliceBytes testContainer 64 384) false = true
      ∧ sha256 (chunkEntry) = sliceBytes testContainer 544 32 ∧ (segLoading.attestOf 2).log.length < 1024 :=
  ⟨segLoading_page, test_segload_keys.1, test_segload_keys.2, test_segload_container.1, test_key _ h, chunk_meas.trans testContainer_meas.symm,
    test_segload_container.2⟩
theorem witness_MonitorCalls :
    let m (s : State) := s.mboxAt 0 3
    let e (s : State) : List Byte := sliceBytes (Tab.get (m s).ents [] 0) 0 64
    let s := call 1 2 0x10000 (pteOf 0x1001 2) 3
    (State.reset.mboxAt 0 3).head = (State.reset.mboxAt 0 3).tail ∧ (m s).head ≠ (m s).tail ∧ recNat (e s) 0 1 = 0x20 ∧ recNat (e s) 8 2 = 1
      ∧ recNat (e s) 0 8 / 2 ^ 9 % 2 ^ 7 = 0 ∧ recNat (e s) 0 8 / 2 ^ 29 % 8 = 0 ∧ recNat (e s) 14 2 = 0 ∧ recNat (e s) 10 2 = 2
      ∧ (s.tableEntry (s.rootOf 2) 0x10000 3).isSome = true ∧ s.leafAbove (s.rootOf 2) 0x10000 3 = false
      ∧ inWindow (s.tenantAt 2).tfwin 0x1001 = true ∧ s.attrDiffers (BitVec.ofNat 64 (pteOf 0x1001 2)) 0x1001 = false
      ∧ pteBad 2 false (BitVec.ofNat 64 (pteOf 0x1001 2)) = false ∧ s.handlerRange 0x10000 1 = false
      ∧ (s.tenRead 2 0 32).isSome = true ∧ (s.tenWrite 2 64 (leBytes 512 7)).isSome = true
      ∧ (s.writeTecr 3 0x40008).isSome = true ∧ (s.writeTecr 3 0x1FFF0001).isNone = true := by decide +kernel
theorem witness_MonitorCalls_frames : mapped.frameMapped 0x1000 = true ∧ mapped.frameMapped 0x1001 = false ∧ mapped.leafAbove 16 0x10000 1 = false := by
  decide +kernel

/-- A command at the head of ring 2. -/
def cmd (s : State) (code ten a0 a1 : Nat) : State := entryOn s 2 (entryOf 0x10 code ten a0 a1 7 8)
/-- Reason of the refusal on ring 0, if there is one. -/
def reason (s : State) : Option Nat := if (s.mboxAt 0 0).tail = 0 then none else some (recNat (Tab.get (s.mboxAt 0 0).ents [] 0) 34 1)
/-- Cluster 3 halted by CTXID 9. -/
def haltedCluster : State := State.reset.setCluster 3 { Cluster.reset with halted := true, haltCtx := 9 }
/-- A kill of tenant 0's CTXID 1, and a pod of two modules. -/
def killing : State :=
  let s := (handler []).injectKill 0 1 1 0x1A false
  s.setFabric { s.fabric with fpod := 2 ^ 8 }
/-- The launch of `thread` suspended by SUSPEND. -/
def suspended : State := { thread with launches := thread.launches.map (fun l => { l with state := .suspended, held := true }) }

theorem test_release : ((run (.release 0) (cmd haltedCluster 1 0 3 0)).clusterAt 3).halted = false ∧ reason (run (.release 0) (cmd haltedCluster 1 0 4 0)) = some 3
    ∧ reason (run (.release 0) (cmd haltedCluster 1 0 0x100 0)) = some 2 ∧ reason (run (.release 0) (cmd haltedCluster 7 0 3 0)) = some 1 := by decide +kernel
theorem test_suspend : (run (.suspend 0) (cmd { thread with prevec := 0x8000 } 2 0 1 0)).launches.all (fun l => l.held) = true
    ∧ reason (run (.suspend 0) (cmd thread 2 0 1 0)) = some 3 := by decide +kernel
theorem test_resume : (run (.resume 0) (cmd suspended 3 0 1 0)).launches.map (fun l => (l.state, l.held)) = [(.queued, false)]
    ∧ reason (run (.resume 0) (cmd thread 3 0 1 0)) = some 3 := by decide +kernel
theorem test_killremote : (run (.killremote 0) (cmd killing 4 0 1 3)).kills.map (fun k => k.mods) = [[1]]
    ∧ reason (run (.killremote 0) (cmd killing 4 0 1 4)) = some 2 ∧ reason (run (.killremote 0) (cmd killing 4 0 2 2)) = some 3
    ∧ (run (.killremote 0) (cmd { thread with fabric := killing.fabric } 4 0 1 3)).kills.map (fun k => (k.mods, k.origin)) = [([1], 4096)] := by decide +kernel
theorem test_ctrreset : ((run (.ctrreset 0) (cmd (run (.ecincWrite 2 1 5) hosted) 16 2 9 0)).counterAt 9).val = 0
    ∧ reason (run (.ctrreset 0) (cmd State.reset 16 2 4096 0)) = some 2 := by decide +kernel
theorem test_fabsend : reason (run (.fabsend 0) (cmd State.reset 32 0 64 0)) = some 2
    ∧ (run (.fabsend 0) (cmd killing 32 0 1 0x77)).fabric.sendq.map (fun p => p.2.map (fun q => (q.pkt.dst, q.pkt.stream, q.pkt.body.bytes.take 9)))
      = [[(1, 5, leBytes 8 0x77 ++ [7])]] := by decide +kernel
theorem witness_ServiceCommands :
    let s := cmd haltedCluster 1 0 3 0
    let p := cmd { thread with prevec := 0x8000 } 2 0 1 0
    let e (s : State) : List Byte := sliceBytes (Tab.get (s.mboxAt 0 2).ents [] 0) 0 64
    (State.reset.mboxAt 0 2).head = (State.reset.mboxAt 0 2).tail ∧ (s.mboxAt 0 2).head ≠ (s.mboxAt 0 2).tail ∧ recNat (e s) 0 1 = 0x10 ∧ recNat (e s) 8 2 = 1
      ∧ recNat (e (cmd s 7 0 0 0)) 8 2 = 7 ∧ (s.mboxAt 0 0).held = [] ∧ (s.clusterAt 3).halted = true ∧ s.kills = []
      ∧ (p.launchBy 0 1).isSome = true ∧ (p.launchBy 0 2) = none ∧ p.prevec ≠ 0 ∧ p.launches.all (fun l => l.state = .placed) = true
      ∧ suspended.launches.all (fun l => decide (l.state = .suspended) && l.held) = true
      ∧ killing.kills.map (fun k => (k.ten, k.ctxid)) = [(0, 1)] ∧ killing.podN = 2 ∧ s.waiters = [] := by decide +kernel

/-! ## The fabric (02 R21 to R46; 03 R52; 08 R157) -/

/-- A pod of 2 ^ k modules, this one number m, locked, 512 clk into its tack. -/
def podOf (k m : Nat) (f : Fabric → Fabric) : State :=
  { State.reset with now := 512, fabric := f { Fabric.reset with fpod := BitVec.ofNat 64 (m + k * 2 ^ 8), lock := true, boot := false } }
def pod : State := podOf 1 0 id
/-- A flit with its first word and CRC-32C, 128 bytes of 0 between. -/
def flitOf (w crc : Nat) : List Byte := leBytes 4 w ++ leBytes 128 0 ++ leBytes 4 crc
/-- The first flit of a packet of two: LEN 2. -/
def flitTwo : List Byte := leBytes 4 0x1000000 ++ leBytes 128 0x200000 ++ leBytes 4 0xB56AF06D
/-- A link whose first flit of the packet has arrived. -/
def halfway : State := podOf 1 0 (fun f => { f with links := [(0, { Link.reset with aseq := 0, part := [leBytes 128 0x200000] })] })
/-- A null packet to module d. -/
def nullTo (d : Nat) : Packet := { src := 0, dst := BitVec.ofNat 6 d, ten := 0, stream := 0, kind := 3, len := 1 }
/-- A null packet from module 1. -/
def nullFrom (seq : Nat) : Packet := { src := 1, dst := 0, ten := 0, stream := 0, kind := 3, len := 1, seq := BitVec.ofNat 32 seq }
def queueOf (d : Nat) : Tab (List Queued) := [(0, [{ pkt := nullTo d, seqd := false, expiries := 0 }])]
def sentTo (e now : Nat) : State := { podOf 1 0 (fun f => { f with unacked := [{ pkt := nullTo 1, deadline := 1000, expiries := e, stopped := false }] }) with now := now }
def rigged (r dark switch now : Nat) : State :=
  { podOf 1 0 (fun f => { f with rig := r, fdarkt := BitVec.ofNat 64 (dark * 4096), fswtime := BitVec.ofNat 64 (switch * 4096), fnext := 2 ^ 8,
                                 relockAt := if r = 5 then some 40000 else none }) with now := now }
def link0 (s : State) : Link := Tab.get s.fabric.links Link.reset 0

set_option maxRecDepth 20000 in
/-- Flit 0 is the first of a link, and the first of two of its packet; 5 is not; a bad CRC, and a reserved bit, leave NAK due. -/
theorem test_flitReceive : (link0 (run (.flitReceive 0 0 flitTwo) pod)).aseq = 0
    ∧ (link0 (run (.flitReceive 0 0 flitTwo) pod)).part.length = 1
    ∧ (link0 (run (.flitReceive 0 0 (flitOf 0x1000005 0x4DFF719D)) pod)).aseq = Link.reset.aseq := by decide +kernel
set_option maxRecDepth 20000 in
theorem test_flitReceive_bad : (link0 (run (.flitReceive 0 0 (flitOf 0x1000001 0xDDCDCE79)) pod)).nak = true
    ∧ (link0 (run (.flitReceive 0 0 (flitOf 0x9000000 0xABA82D27)) pod)).nak = true := by decide +kernel
theorem test_tackBoundary : (link0 (run .tackBoundary (podOf 1 0 (fun f => { f with links := [(0, { Link.reset with replay := [[1]] })] })))).resend = true
    ∧ (run .tackBoundary (rigged 5 0 0 0)).fabric.late = true := by decide
theorem test_lockTimeout : (run .lockTimeout { podOf 1 1 id with now := 524288 }).fabric.lock = false ∧ (run .lockTimeout { podOf 1 1 id with now := 524287 }).fabric.lock = true
    ∧ (run .lockTimeout { pod with now := 524288 }).fabric.lock = true := by decide
theorem test_pll : (run .referencePllLockLoss pod).fabric.lock = false ∧ (run .referencePllLockLoss (podOf 1 1 id)).fabric.lock = true
    ∧ (let l := run .grandmasterRelock (run .referencePllLockLoss pod)
       l.fabric.pllSince = 512 ∧ (run .grandmasterRelock { l with now := 131584 }).fabric.lock = true
         ∧ (run .grandmasterRelock { l with now := 131583 }).fabric.lock = false) := by decide
theorem test_packetAssign :
    let s := podOf 1 0 (fun f => { f with sendq := queueOf 1 })
    let t := run (.packetAssign 0) s
    t.fabric.sent.map (fun p => (p.1, p.2.dst, p.2.seq, p.2.rly)) = [(1, 1, 0, false)] ∧ t.fabric.unacked.map (fun u => u.deadline) = [512 + 16384]
      ∧ Tab.get t.fabric.nextSeq 0 128 = 1 ∧ Tab.get t.fabric.sendq [] 0 = [] := by decide +kernel
/-- In a pod of 64, offset 7 is on in tack 7, and this is tack 1: the packet leaves through a relay, marked, and spends one unit of 9,362. -/
def far64 : State := { podOf 6 0 (fun f => { f with sendq := queueOf 7 }) with now := 8704 }
theorem test_packetAssign_relay : (run (.packetAssign 0) far64).fabric.sent.map (fun p => (p.1, p.2.dst, p.2.rly)) = [(0, 7, true)]
    ∧ (run (.packetAssign 0) far64).fabric.allow.map (fun p => p.2) = [9361] := by decide +kernel
def holding : State := podOf 1 0 (fun f => { f with relayed := [(0, { nullTo 1 with src := 1, rly := true })] })
theorem test_relayForward : (run (.relayForward 0 0) holding).fabric.sent.map (fun p => (p.1, p.2.rly)) = [(1, false)]
    ∧ (run (.relayForward 0 0) holding).fabric.returns.map (fun e => e.2.2) = [(4, 1)] ∧ (run (.relayForward 1 0) holding).fabric.relayed.length = 1 := by decide +kernel
theorem test_timer : (Tab.get (run (.endToEndTimer 0) (sentTo 0 1000)).fabric.sendq [] 0).map (fun q => (q.seqd, q.expiries)) = [(true, 1)]
    ∧ (run (.endToEndTimer 0) (sentTo 0 999)).fabric.unacked.length = 1
    ∧ (Tab.get (run (.endToEndTimer 0) (sentTo 7 1000)).fabric.sendq [] 0).map (fun q => q.pkt.kind) = [4]
    ∧ recNat (Tab.get ((run (.endToEndTimer 0) (sentTo 7 1000)).mboxAt 0 0).ents [] 0) 22 1 = 8 := by decide +kernel
theorem test_rig : (run .beginDrain pod).fabric.rig = 2 ∧ (run .beginDrain (podOf 1 0 (fun f => { f with usedFlows := [128] }))).fabric.rig = 1
    ∧ (run .beginDrain (rigged 2 9 15 0)).fabric.err = true := by decide +kernel
theorem test_arm : (run .arm (rigged 2 9 15 0)).fabric.rig = 3 ∧ (run .arm (rigged 2 9 14 0)).fabric.err = true ∧ (run .arm (rigged 2 9 15 73728)).fabric.err = true := by
  decide +kernel
theorem test_abandon : (run .abandon (rigged 3 9 15 0)).fabric.rig = 0 ∧ (run .abandon (rigged 4 9 15 0)).fabric.err = true := by decide +kernel
theorem test_goDark : (run .goDark (rigged 3 9 15 73728)).fabric.rig = 4 ∧ (run .goDark (rigged 3 9 15 73727)).fabric.rig = 3 := by decide +kernel
theorem test_relockStart : (run .relockStart (rigged 4 9 15 81920)).fabric.relockAt = some 121920 ∧ (run .relockStart (rigged 4 9 15 81919)).fabric.rig = 4 := by
  decide +kernel
theorem test_relockComplete : (run .relockComplete (rigged 5 9 15 40000)).fabric.rig = 6 ∧ (run .relockComplete (rigged 5 9 15 39999)).fabric.rig = 5 := by decide +kernel
theorem test_calendarSwitch : (run .calendarSwitch (rigged 6 9 15 122880)).fabric.rig = 0 ∧ (run .calendarSwitch (rigged 6 9 15 122880)).fabric.fpod = 0x10100
    ∧ (run .calendarSwitch (rigged 6 9 15 122879)).fabric.rig = 6 := by decide +kernel
def meshFlit (id t : Nat) : MeshFlit := { id := BitVec.ofNat 6 id, ten := BitVec.ofNat 4 t, ctxid := 1, bytes := [7] }
theorem test_router : (run (.routerPacketArrive 0 (meshFlit 16 0)) thread).routers.length = 1 ∧ (run (.routerPacketArrive 5 (meshFlit 16 0)) thread).dieLog.length = 1
    ∧ (run (.routerPacketArrive 0 (meshFlit 57 0)) thread).routers = [] := by decide
theorem test_router_sweep : (run (.routerPacketArrive 0 (meshFlit 16 0)) { thread with kills := [{ ten := 0, ctxid := 1, since := 0, origin := 0, reached := [], reported := [], mods := [], started := [(0, 0)], asked := none }] }).routers = [] := by
  decide
def refusedOnce : State := ctxOf (fun x => { x with retryAt := some 0 })
theorem test_versionUnitRetry : ((run (.versionUnitRetry 1 0) { refusedOnce with now := 64 }).ctxAt 1 0).retryAt = none
    ∧ ((run (.versionUnitRetry 1 0) { refusedOnce with now := 63 }).ctxAt 1 0).retryAt = some 0 := by decide
def farWaiter : State := { pod with waiters := [{ kind := .readV 0, key := 0, core := 1, ctx := 0, since := 512, remote := some (nullFrom 0), bytes := [] }] }
theorem test_remoteWaiterRetry : (run (.remoteWaiterRetry 0) { farWaiter with now := 16896 }).waiters = [] ∧ (run (.remoteWaiterRetry 0) { farWaiter with now := 16895 }).waiters.length = 1 := by
  decide +kernel
/-- Sequence 0 completes and is acknowledged; 1 waits above the base; one outside the window is dropped. -/
theorem test_packetReceive : (Tab.get (run (.packetReceive (nullFrom 0)) pod).fabric.rx RxFlow.reset 128).base = 1
    ∧ (Tab.get (run (.packetReceive (nullFrom 1)) pod).fabric.rx RxFlow.reset 128).done = [1]
    ∧ (Tab.get (run (.packetReceive (nullFrom 1)) pod).fabric.sendq [] 0).map (fun q => (q.pkt.kind, q.pkt.seq)) = [(1, 1)]
    ∧ run (.packetReceive (nullFrom 4096)) pod = pod := by decide +kernel
theorem test_packetReceive_relay : (run (.packetReceive { nullFrom 0 with dst := 1, rly := true }) pod).fabric.relayed.length = 1
    ∧ (run (.packetReceive { nullFrom 0 with stream := 6 }) pod).fabric.log.length = 1 := by decide +kernel
theorem witness_FabricAndRouters :
    let s := podOf 1 0 (fun f => { f with sendq := queueOf 1 })
    let q : Queued := { pkt := nullTo 1, seqd := false, expiries := 0 }
    let st := podOf 1 0 (fun f => { f with sendq := queueOf 1, rig := 4 })
    let q7 : Queued := { pkt := nullTo 7, seqd := false, expiries := 0 }
    let far : State := { far64 with fabric := { far64.fabric with firstGrant := 0 } }
    let gone := podOf 1 0 (fun f => { f with sendq := queueOf 2 })
    s.calendar = (2, 0, 1) ∧ far64.calendar = (64, 0, 8) ∧ Tab.get s.fabric.sendq [] 0 = [] ++ q :: [] ∧ s.openTo q = true ∧ s.withinLimits q = true
      ∧ (upTo 0 8).filter (fun x => decide (sparOffset 2 1 x (s.sparTack x) = Nat.xor 0 1)) = [1, 3, 5, 7]
      ∧ (1 : Nat) ≤ s.windowFlits 1 ∧ (1 : Nat) ≤ s.replayRoom 1 ∧ far64.openTo q7 = true ∧ far64.withinLimits q7 = true
      ∧ (upTo 0 8).filter (fun x => decide (sparOffset 64 8 x (far64.sparTack x) = Nat.xor 0 7)) = [] ∧ (far64.relayVia q7.pkt).isSome = true
      ∧ far.relayVia q7.pkt = none ∧ st.openTo q = false ∧ gone.fabric.rig = 0 ∧ gone.calendar.1 ≤ (nullTo 2).dst.toNat
      ∧ holding.fabric.relayed[0]? = some (0, { nullTo 1 with src := 1, rly := true }) ∧ holding.fabric.lock = true ∧ (sentTo 7 1000).fabric.unacked.length = 1
      ∧ pod.fabric.opened ≠ some pod.tack ∧ (podOf 1 0 (fun f => { f with opened := some 0 })).fabric.opened = some pod.tack
      ∧ pod.fabric.fgrant.toNat = pod.fabric.granted ∧ (rigged 3 9 15 73728).tackClk = 0 ∧ (rigged 6 9 15 122881).tackClk ≠ 0
      ∧ (pod.mboxAt 0 0).held = [] ∧ pod.modid = 0 ∧ pod.podN ≠ 0 ∧ thread.inRect 0 0 = true ∧ thread.inRect 0 5 = false ∧ thread.routerRoom 0 0 16 = true
      ∧ thread.flitLeaves (meshFlit 16 0) = some thread ∧ thread.flitLeaves { meshFlit 16 0 with came := some (1, 2) } = none
      ∧ ({ thread with routers := [(flitKey 0 0 16, List.replicate 49 (meshFlit 16 0))] } : State).routerRoom 0 0 16 = false
      ∧ pod.ownNumber = 0 ∧ pod.awake = true ∧ asleep.awake = false ∧ asleep.holdsAsleep (nullFrom 0) = true ∧ pod.holdsAsleep (nullFrom 0) = true
      ∧ pod.parkedRemote = [] ∧ pod.stillWaits (nullFrom 0) = false ∧ (RxFlow.reset).held = [] ∧ (RxFlow.reset).done = []
      ∧ pod.heldFrom 1 = 0 ∧ farWaiter.waiters.length = 1 := by decide +kernel
set_option maxRecDepth 20000 in
theorem witness_FabricAndRouters_parts : Link.reset.nak = false ∧ flitTwo.length = 136 ∧ (crc32c (flitTwo.take 132)).toNat = recNat flitTwo 132 4
    ∧ (packetOf (sliceBytes flitTwo 4 128)).len = 2 ∧ ({ Link.reset with nak := true } : Link).restored flitTwo = true
    ∧ ({ Link.reset with nak := true } : Link).restored (flitOf 0x1000005 0x4DFF719D) = false
    ∧ (packetOf ((link0 halfway).part ++ [sliceBytes (flitOf 0x2000001 0x18E636D9) 4 128]).flatten).len = 2
    ∧ BitVec.ofNat 12 0x2000001 = (link0 halfway).aseq + 1 := by decide +kernel
set_option maxRecDepth 20000 in
theorem witness_FabricAndRouters_flit : (crc32c ((flitOf 0x1000001 0xDDCDCE78).take 132)).toNat = recNat (flitOf 0x1000001 0xDDCDCE78) 132 4
    ∧ (flitOf 0x1000001 0xDDCDCE78).length = 136 ∧ recNat (flitOf 0x1000001 0xDDCDCE78) 0 4 / 2 ^ 27 = 0 := by decide +kernel

/-! ## Kills, launch ends, trap messages, causes (03 R62; 04 R73; 09 R173 to R180, R192) -/

/-- A kill of tenant 0's CTXID 1 that nothing has received, and one that everything has. -/
def kill0 : Kill := { ten := 0, ctxid := 1, since := 0, origin := 0, reached := [], reported := [], mods := [], started := [], asked := none }
def everywhere : List KillUnit := [.cleat 0, .cleat 1, .cleat 2, .cleat 3, .sendQueues 0, .sendQueues 1, .sendQueues 2, .sendQueues 3]
/-- The kill has reached cluster 1, next to the tenant's only cluster. -/
def flooded : State := { thread with kills := [{ kill0 with reached := [.cluster 1] }], routers := [(16, [meshFlit 16 0])] }
def swept : State := { thread with now := 16384, kills := [{ kill0 with started := [(0, 0)] }], routers := [(16, [meshFlit 16 0])] }
def purged : State := { thread with kills := [{ kill0 with reached := everywhere, reported := [0], started := [(0, 0)] }] }
/-- Two packets of the context in the send queue of die 0, the first with its sequence, and one of another. -/
def bodyOf (i : W32) : Body := { ctxid := i }
def sending : State :=
  let p : Packet := { src := 0, dst := 1, ten := 0, stream := 0, body := bodyOf 1 }
  { flooded with fabric := { Fabric.reset with sendq := [(0, [{ pkt := p, seqd := true, expiries := 0 }, { pkt := p, seqd := false, expiries := 0 },
      { pkt := { p with body := bodyOf 2 }, seqd := false, expiries := 0 }])] } }

theorem test_killReceive : ((run (.killReceive 0 (.cluster 0)) flooded).coreAt 1).thread = none ∧ (run (.killReceive 0 (.cluster 0)) flooded).routers = [(16, [])]
    ∧ run (.killReceive 0 (.cluster 0)) { thread with kills := [kill0] } = { thread with kills := [kill0] } ∧ ((run (.killReceive 0 (.cluster 5)) flooded).coreAt 1).thread = some (0, 1, 0)
    ∧ (Tab.get (run (.killReceive 0 (.sendQueues 0)) sending).fabric.sendq [] 0).map (fun q => (q.pkt.kind, q.pkt.body.ctxid)) = [(3, 0), (0, 2)] := by decide +kernel
theorem test_killSweepEnd : (run (.killSweepEnd 0 0) swept).kills.map (fun k => k.reported) = [[0]] ∧ (run (.killSweepEnd 0 0) { swept with now := 16383 }).kills = swept.kills := by
  decide +kernel
theorem test_purgeConfirm : (run (.purgeConfirm 0) purged).kills = [] ∧ recNat (Tab.get ((run (.purgeConfirm 0) purged).mboxAt 0 0).ents [] 0) 8 4 = 1
    ∧ (run (.purgeConfirm 0) swept).kills.length = 1 := by decide +kernel
/-- The thread's control context has halted. -/
def over1 : State := ctxOf (fun x => { x with live := false })
theorem test_launchEnd : (run (.launchEnd 0 1) over1).launches = [] ∧ (run (.launchEnd 0 1) thread).launches.length = 1 ∧ ((run (.launchEnd 0 1) over1).coreAt 1).thread = none := by
  decide +kernel
/-- A trap message of core 2 at core 1, hop 0 of two cores: 1, then 3. -/
def message : TrapMsg := { faddr := 0, fval := 0, tstatus := 0, taddr := 0, tval := 0, fcause := 5, ocause := 0, hop := 0, len := 2, origin := 2, octx := 0, ten := 0,
                           ctxid := 1, time := 0, since := 0, chain := 1 + 2 ^ 12 + 3 * 2 ^ 16 + 2 ^ 28 }
def inboxed (len now : Nat) (st : W64) : State :=
  let s := ctxOf (fun x => { x with status := st })
  { s.setCore 1 { s.coreAt 1 with inbox := [{ message with len := len }] } with now := now }
theorem test_trapMessageForward : ((run (.trapMessageForward 1) (inboxed 2 128000 0)).coreAt 3).inbox.map (fun m => (m.hop, m.since)) = [(1, 128000)]
    ∧ ((run (.trapMessageForward 1) (inboxed 2 127999 0)).coreAt 1).inbox.length = 1
    ∧ ((run (.trapMessageForward 1) (inboxed 1 128000 0)).clusterAt 0).halted = true := by decide +kernel
theorem test_trapMessageTake : ((run (.trapMessageTake 1) (inboxed 2 0 0x10)).ctxAt 1 0).tcause = 0x305 ∧ ((run (.trapMessageTake 1) (inboxed 2 0 0x10)).ctxAt 1 0).pc = 0x200000000
    ∧ ((run (.trapMessageTake 1) (inboxed 2 0 0)).ctxAt 1 0).tcause = 0 := by decide +kernel
/-- Causes 0x08 and 0x18 pending: 0x18 comes first in the order of R173. -/
def pending (st : W64) : State := ctxOf (fun x => { x with status := st, asyncs := [{ cause := 8, val := 3 }, { cause := 0x18, val := 9 }] })
theorem test_asyncCauseTake : ((run (.asyncCauseTake 1 0) (pending 0x10)).ctxAt 1 0).tcause = 0x118 ∧ ((run (.asyncCauseTake 1 0) (pending 0x10)).ctxAt 1 0).tval = 9
    ∧ ((run (.asyncCauseTake 1 0) (pending 0)).ctxAt 1 0).asyncs.length = 2 := by decide +kernel
/-- PREEMPT (0x19) is taken at PL 0 with IE = 0 too, at PVEC. -/
def preempted : State :=
  let s := ctxOf (fun x => { x with asyncs := [{ cause := 0x19, val := 7 }] })
  s.setCore 1 { s.coreAt 1 with pvec := 0x5000 }
theorem test_asyncCauseTake_pvec : ((run (.asyncCauseTake 1 0) preempted).ctxAt 1 0).tcause = 0x119 ∧ ((run (.asyncCauseTake 1 0) preempted).ctxAt 1 0).pc = 0x5000 := by
  decide +kernel
/-- A handler since clk 0, its chain core 3. -/
def stuck (now : Nat) : State :=
  let s := ctxOf (fun x => { x with status := 0x15, tcause := 5 })
  { s.setCore 1 { s.coreAt 1 with hchain := 3 + 2 ^ 12 } with now := now }
theorem test_watchdog : ((run (.watchdog 1 0) (stuck 0x100000)).coreAt 3).inbox.map (fun m => m.fcause) = [0x1B] ∧ ((run (.watchdog 1 0) (stuck 0x100000)).ctxAt 1 0).stopped = true
    ∧ ((run (.watchdog 1 0) (stuck 0xFFFFF)).coreAt 3).inbox = [] := by decide +kernel
def trained : State := { thread with boot := { Boot.reset with frames := [(0, 16)] } }
theorem test_hbm : (run (.hbmUncorrectable 0x1005) trained).poison = [0x200] ∧ ((run (.hbmUncorrectable 0x1005) trained).mboxAt 0 0).tail = 2
    ∧ (run (.hbmUncorrectable 0x100000) trained).poison = [] := by decide +kernel
theorem witness_KillsAndMessages :
    let far := { purged with kills := [{ kill0 with reached := everywhere, reported := [0], started := [(0, 0)], asked := some 1 }] }
    let waits := purged.setTenant 0 { purged.tenantAt 0 with trectNew := some 0 }
    flooded.kills.length = 1 ∧ flooded.floods { kill0 with reached := [.cluster 1] } (.cluster 0) = true ∧ flooded.floods kill0 (.cluster 0) = false
      ∧ (stuck 0 |>.coreAt 1).rests 0 = false ∧ (preempted.ctxAt 1 0).grant = none ∧ ((inboxed 2 0 0x10).ctxAt 1 0).kind = .control ∧ (flooded.coreAt 1).thread = some (0, 1, 0) ∧ (flooded.launchBy 0 1).isSome = true ∧ (flooded.launchBy 0 2) = none
      ∧ purged.inRect 0 0 = true ∧ (upTo 1 255).all (fun c => ! purged.inRect 0 c) = true ∧ (purged.mboxAt 0 0).held = [] ∧ far.kills.length = 1
      ∧ (waits.tenantAt 0).trectNew = some 0 ∧ over1.launchOver (loadedLaunch State.reset) = true ∧ thread.launchOver (loadedLaunch State.reset) = false
      ∧ ((inboxed 2 128000 0).coreAt 1).serving = false ∧ ((inboxed 2 0 0x10).ctxAt 1 0).boundary = true ∧ ((inboxed 2 0 0x10).ctxAt 1 0).ie = true
      ∧ ((inboxed 2 0 0x10).ctxAt 1 0).tr = false ∧ (thread.coreAt 1).tvec ≠ 0 ∧ ((pending 0x10).ctxAt 1 0).boundary = true ∧ (preempted.ctxAt 1 0).pl = 0
      ∧ (preempted.coreAt 1).pvec ≠ 0 ∧ ((stuck 0x100000).ctxAt 1 0).tr = true ∧ bitOn ((stuck 0x100000).ctxAt 1 0).tcause 9 = false
      ∧ bitOn ((stuck 0x100000).coreAt 1).hchain 12 = true ∧ trained.present 0 = true ∧ trained.present 16 = false
      ∧ chainCore message.chain 1 = 3 ∧ ((inboxed 2 128000 0).coreAt 1).ctxs.length = 1 := by decide +kernel
/-- A submission of the launch: it completes with its tag. -/
theorem test_launchEnd_sub :
    let s := over1.setTenant 0 { over1.tenantAt 0 with pages := [(0, { Page.reset with cqcfg := 0x14, out := 1, running := [{ bytes := [], seq := 0 }] })] }
    let t := { s with launches := s.launches.map (fun l => { l with sub := some { page := 0, tag := 5, cpl := true, int := false, seq := 0 } }) }
    (run (.launchEnd 0 1) t).peekLe (hostKey 0) 8 = 5 ∧ (run (.launchEnd 0 1) t).peekLe (hostKey 12) 4 = 1 := by decide +kernel

/-! ## Pod boot (05 R91 to R95) -/

/-- A module in state 3 of BOOT, its port 5. -/
def booting (f : Boot → Boot) : State :=
  { State.reset with boot := f { Boot.reset with boot := 3 }, fabric := { Fabric.reset with fpod := 5 * 2 ^ 32 } }
def toOf (s : State) (m : Nat) : List BodyOp := (Tab.get s.fabric.sendq [] (s.dieTo m)).filterMap (fun q => if q.pkt.dst = BitVec.ofNat 6 m then some q.pkt.body.op else none)
/-- A manifest of one chunk: the container whose segment is its entry. -/
def manifest : List Byte := testContainer ++ chunkEntry
def chunk : List Byte := (upTo 0 64).map (BitVec.ofNat 8)
/-- A follower of module 2, its manifest known, its firmware page 1 mapped to frame 16. -/
def following : State :=
  let s := booting (fun b => { b with follows := some (2, 1), round := 1, manifest := [chunkEntry], frames := [(0, 32)] })
  { s with fwroot := 16 * 65536,
           mem := memPutN (memPutN (memPutN [] (16 * 65536) (leBytes 8 (1 + 17 * 65536))) (17 * 65536) (leBytes 8 (1 + 18 * 65536)))
             (18 * 65536 + 8) (leBytes 8 (1 + 2 + 1024 + 20 * 65536)) }

theorem test_claim : (run .claim (booting id)).boot.follows = some (5, 1) ∧ (run .claim (booting id)).boot.boot = 0
    ∧ toOf (run .claim (booting id)) 9 = [.claim] ∧ (run .claim (booting (fun b => { b with heard := [(4, 0)] }))).boot.follows = none := by decide +kernel
theorem test_heartbeat : toOf (run .heartbeat { booting (fun b => { b with leading := true }) with now := 10000000 }) 9 = [.heartbeat]
    ∧ toOf (run .heartbeat { booting (fun b => { b with leading := true }) with now := 9999999 }) 9 = [] := by decide +kernel
theorem test_leaderWatchdog : (run .leaderWatchdog { following with now := 100000000 }).boot.follows = some (5, 2) ∧ (run .leaderWatchdog { following with now := 99999999 }).boot.round = 1 := by
  decide +kernel
/-- A module below 5 is heard: the round advances without a claim. -/
theorem test_leaderWatchdog_heard : (run .leaderWatchdog { following with now := 100000000, boot := { following.boot with heard := [(2, 1)] } }).boot.round = 2
    ∧ (run .leaderWatchdog { following with now := 100000000, boot := { following.boot with heard := [(2, 1)] } }).boot.follows = some (2, 1) := by decide +kernel
theorem test_chunkReceive : (run (.chunkReceive 2 0 chunk) following).boot.verified = [0] ∧ toOf (run (.chunkReceive 2 0 chunk) following) 2 = [.bitmap]
    ∧ (run (.chunkReceive 2 0 chunk) following).peek (20 * 65536 + 7) = 7 ∧ (run (.chunkReceive 2 0 chunk) following).fwAttest.log.length = 1 := by decide +kernel
theorem test_chunkReceive_refused : (run (.chunkReceive 3 0 chunk) following).boot.verified = [] ∧ (run (.chunkReceive 2 0 (chunk.drop 1)) following).boot.verified = []
    ∧ (run (.chunkReceive 2 1 chunk) following).boot.verified = [] := by decide +kernel
theorem test_manifestReceive : (run (.manifestReceive [1]) (booting id)).boot.manifest = [] := by decide +kernel
theorem manifest_entry : sliceBytes manifest 512 448 = testSegment ++ toBe 384 testSignature := by
  have e : manifest = (leBytes 4 0x4E435244 ++ leBytes 2 1 ++ leBytes 2 1 ++ leBytes 8 1024 ++ leBytes 48 0 ++ toBe 384 testModulus ++ leBytes 64 0)
      ++ ((testSegment ++ toBe 384 testSignature) ++ chunkEntry) := by simp only [manifest, testContainer, List.append_assoc]
  rw [e]
  exact slice_mid _ _ _ _ _ (by simp only [List.length_append, leBytes_len, toBe_len]) (by rw [List.length_append, testSegment_len, toBe_len])
theorem manifest_modulus : sliceBytes manifest 64 384 = toBe 384 testModulus := by
  have e : manifest = (leBytes 4 0x4E435244 ++ leBytes 2 1 ++ leBytes 2 1 ++ leBytes 8 1024 ++ leBytes 48 0)
      ++ (toBe 384 testModulus ++ (leBytes 64 0 ++ testSegment ++ toBe 384 testSignature ++ chunkEntry)) := by
    simp only [manifest, testContainer, List.append_assoc]
  rw [e]
  exact slice_mid _ _ _ _ _ (by simp only [List.length_append, leBytes_len]) (toBe_len _ _)
theorem manifest_signed : rsaVerify (sliceBytes manifest 64 384) ((sliceBytes manifest 512 448).take 64) (sliceBytes (sliceBytes manifest 512 448) 64 384) = true := by
  have e : sliceBytes (testSegment ++ toBe 384 testSignature) 64 384 = toBe 384 testSignature := by
    have h := slice_mid testSegment (toBe 384 testSignature) [] 64 384 testSegment_len (toBe_len _ _)
    rwa [List.append_nil] at h
  rw [manifest_modulus, manifest_entry, e, List.take_left' testSegment_len]
  exact test_rsa
theorem manifest_chunk : sliceBytes manifest 960 64 = chunkEntry := by
  have h := slice_mid testContainer chunkEntry [] 960 64 testContainer_len chunkEntry_len
  rwa [List.append_nil] at h
theorem manifest_meas : sliceBytes manifest 544 32 = toBe 32 testMeas := by
  have e : manifest = testFront ++ (toBe 32 testMeas ++ (toBe 384 testSignature ++ chunkEntry)) := by
    simp only [manifest, testContainer_front, List.append_assoc]
  rw [e]
  exact slice_mid _ _ _ _ _ testFront_len (toBe_len _ _)
theorem manifest_len : manifest.length = 1024 := by rw [manifest, List.length_append, testContainer_len, chunkEntry_len]
/-- What a manifest's other checks ask, but the fused key. -/
theorem test_manifest : containerOk manifest 1024 0 = true ∧ chunkEntryOk chunkEntry 0 = true := by decide +kernel
/-- With the vendor's hash the key's, the manifest lists its chunk (PodBoot's manifest clause). -/
theorem witness_PodBoot_manifest (h : Config.vendorKeyHash = sha256 (sliceBytes manifest 64 384)) : manifestEntries manifest = some [chunkEntry] := by
  have hk := test_key _ h
  have h1 : (upTo 0 (recNat manifest 6 2)).find? (fun i => recNat manifest (512 + 448 * i) 2 == 2) = some 0 := by decide +kernel
  have h2 : recNat (sliceBytes manifest 512 448) 16 8 = 64 ∧ recNat (sliceBytes manifest 512 448) 24 8 = 960 ∧ recNat manifest 8 8 = manifest.length
      ∧ (sliceBytes chunkEntry 0 64) = chunkEntry := by rw [manifest_len]; decide +kernel
  have h3 : sliceBytes (sliceBytes manifest 512 448) 32 32 = sliceBytes manifest 544 32 := by
    rw [manifest_entry, manifest_meas]
    simp only [testSegment, List.append_assoc]
    rw [← List.append_assoc (leBytes 8 64), ← List.append_assoc (leBytes 8 0x400), ← List.append_assoc (leBytes 8 2)]
    exact slice_mid _ _ _ _ _ (by simp only [List.length_append, leBytes_len]) (toBe_len _ _)
  obtain ⟨m2, m5⟩ := test_manifest
  have m1 := manifest_len
  have m3 := manifest_chunk
  have m4 : sha256 chunkEntry = sliceBytes manifest 544 32 := chunk_meas.trans manifest_meas.symm
  have m9 := manifest_signed
  have e : (512 + 448 * 0) = 512 := rfl
  simp only [manifestEntries, h1, e, h2.1, h2.2.1, m3, h2.2.2.1, m1, m2, hk, m9, m4, h3]
  simp only [upTo, List.map, Nat.mul_zero, h2.2.2.2, indexed, List.any, m5]
  decide +kernel
/-- A claim verifies where its certificate's modulus and signed bytes are the test's. -/
def claim2 (round num : Nat) : Claim := { num := BitVec.ofNat 6 num, round := round, mhash := [], time := 0, sig := toBe 384 testSignature, cert := [1] }
theorem witness_PodBoot_claim (h : Config.certModulus [1] = some testModulus) (hb : Config.claimBytes 2 1 [] 0 = testSegment) : claimVerifies (claim2 1 2) = true := by
  simp only [claimVerifies, claim2, h]
  rw [show (BitVec.ofNat 6 2).toNat = 2 from rfl, show (0 : W64).toNat = 0 from rfl, hb]
  exact test_rsa
theorem witness_PodBoot :
    let s := booting id
    (s.boot.boot = 3 ∧ s.fabric.boot = true ∧ s.boot.heard = [] ∧ s.boot.follows = none ∧ s.ownNumber = 5 ∧ s.calendar.1 = 64)
      ∧ following.boot.leading = false ∧ following.boot.follows ≠ none ∧ following.boot.manifest[0]? = some chunkEntry ∧ chunk.length = recNat chunkEntry 16 8
      ∧ sha256 chunk = sliceBytes chunkEntry 24 32 ∧ following.fwAttest.log.length < 1024 ∧ (following.tenWrite 16 0x10000 chunk).isSome = true := by decide +kernel

/-! ## Placement, pre-emption, continuations, samples, walks (06 R101 to R118; 07 R137 to R148; 09 R183) -/

/-- CTXID 5 of tenant 0 waits: one thread, ENTRY 0x5000, its record at 0x40, ARG0 7. -/
def waiting5 : Launch :=
  { loadedLaunch State.reset with ctxid := 5, record := goodRecord.take 128 ++ leBytes 8 7 ++ leBytes 56 0, recVa := 0x40, state := .queued, placedAt := none }
def placing : State :=
  let s := State.reset.setTenant 0 { Tenant.reset with trect := 2 ^ 16 }
  { s with launches := [waiting5] }
/-- CTXID 1 runs on the tenant's only cluster since clk 0, CTXID 5 waits since clk 0; `n` ageing intervals have passed. -/
def crowded (n : Nat) : State := { thread with prevec := 0x8000, launches := thread.launches ++ [waiting5], now := n * thread.age }
/-- A thread on its core, to be resumed by its control context. -/
def resuming : State :=
  let s := ctxOf (fun x => { x with live := false, x := [(4, 9)] })
  s.setCore 1 { s.coreAt 1 with saving := some (1, 0), pvec := 0x8000 }
def record64 : List Byte := leBytes 8 0x6000 ++ leBytes 8 1 ++ leBytes 8 2 ++ leBytes 40 0
def contOn (q o : List ContEnt) : State :=
  { thread with clusters := [(0, { Cluster.reset with contq := q, contovf := o })],
                contFlight := [{ bytes := record64, ctxid := 1, ten := 0, key := 0, home := 0, core := 1, ctx := 0, remote := none }] }
def cont1 : ContEnt := { bytes := record64, ctxid := 1, ten := 0 }
/-- Samples of period 2^10 clk into a buffer of 2^16 bytes that is not mapped. -/
def sampled (now : Nat) : State := { thread.setTenant 0 { thread.tenantAt 0 with smpcfg := 10 + 16 * 32, smpbase := 0x40000 } with now := now }
def threeCores (now : Nat) : State :=
  let k := thread.coreAt 1
  { (thread.setCore 2 k).setCore 3 k with now := now }
/-- A walk of core 1's context for tenant 2's VA, and what it asks: bit 1 a write. -/
def walking (va : W64) (bits : Byte) : State :=
  { mapped with cores := thread.cores, clusters := [(0, { Cluster.reset with walks := [{ core := 1, ctx := 0, ten := 2, va := va, bits := bits }] })] }

theorem test_launchPlace : (run (.launchPlace none) placing).launches.map (fun l => (l.state, l.origin)) = [(.placed, 0)]
    ∧ ((run (.launchPlace none) placing).coreAt 0).thread = some (0, 5, 0) ∧ ((run (.launchPlace none) placing).ctxAt 0 0).pc = 0x5000
    ∧ ((run (.launchPlace none) placing).ctxAt 0 0).rd 9 = 0x40 ∧ ((run (.launchPlace none) placing).ctxAt 0 0).rd 10 = 7 := by decide +kernel
theorem test_launchPlace_none : run (.launchPlace none) (crowded 1) = crowded 1 := by decide +kernel
theorem test_preemptVictim : ((run .preemptVictim (crowded 8)).coreAt 1).saving = some (0, 0) ∧ ((run .preemptVictim (crowded 8)).ctxAt 1 0).asyncs.map (fun a => a.cause) = [0x19]
    ∧ ((run .preemptVictim (crowded 7)).coreAt 1).saving = none := by decide +kernel
theorem test_threadResume : ((run (.threadResume 1) resuming).ctxAt 1 0).pc = 0x8000 ∧ ((run (.threadResume 1) resuming).ctxAt 1 0).tcause = 0x119
    ∧ ((run (.threadResume 1) resuming).ctxAt 1 0).rd 4 = 9 ∧ run (.threadResume 1) thread = thread := by decide +kernel
theorem test_contRecordArrive : ((run (.contRecordArrive 0) (contOn [] [])).clusterAt 0).contq = [cont1]
    ∧ ((run (.contRecordArrive 0) (contOn [] [cont1])).clusterAt 0).contovf = [cont1, cont1]
    ∧ ((run (.contRecordArrive 0) (contOn [] [])).ctxAt 1 0).grant = some 0 := by decide +kernel
theorem test_continuationStart : ((run (.continuationStart 0) (contOn [cont1] [])).ctxAt 1 1).pc = 0x6000 ∧ ((run (.continuationStart 0) (contOn [cont1] [])).ctxAt 1 1).rd 10 = 2
    ∧ ((run (.continuationStart 0) (contOn [cont1] [])).clusterAt 0).contq = [] := by decide +kernel
/-- Core 1's samples come one clk in 4,096 of a period after core 0's: at its clk 2^10 · n; the buffer is not mapped. -/
theorem test_pcSample : ((run (.pcSample 1) (sampled 1024)).tenantAt 0).drops = 1 ∧ ((run (.pcSample 1) (sampled 1023)).tenantAt 0).drops = 0 := by decide +kernel
theorem test_counterRotate : ((run (.counterRotate 0) (threeCores 128000)).clusterAt 0).rot = 3 ∧ ((run (.counterRotate 0) (threeCores 127999)).clusterAt 0).rotAt = 0 := by
  decide +kernel
theorem test_tableWalkComplete : ((run (.tableWalkComplete 0 0) (walking 0x40 0)).coreAt 1).tlb.length = 2
    ∧ ((run (.tableWalkComplete 0 0) (walking 0x40 4)).ctxAt 1 0).due = [(5, 0x40, 0x100000000)] := by decide +kernel
theorem test_tableWalkComplete_park : ((run (.tableWalkComplete 0 0) (walking 0x10040 0)).ctxAt 1 0).stall = 10
    ∧ ((run (.tableWalkComplete 0 0) (walking 0x10040 0)).ctxAt 1 0).parked.map (fun p => (p.ten, p.page)) = some (2, 1) := by decide +kernel
theorem witness_PlacementAndWalks :
    let back : State := { placing with launches := [{ waiting5 with placedAt := some 0,
                                                                    saved := [(0, { handler := 2, core := 0, tiles := [], masks := [(2, [])], messages := [], bm := 0, arr := 0, stopped := [] })] }] }
    placing.awake = true ∧ (placing.choose placing.ranked []).map (fun p => p.2) = some 0 ∧ (placing.layout waiting5 0) = some [(0, 0, 0)]
      ∧ ((crowded 1).choose (crowded 1).ranked []) = none ∧ asleep.awake = false ∧ (back.choose back.ranked []).map (fun p => p.2) = some 0
      ∧ (crowded 8).overdue waiting5 = true ∧ ((crowded 8).victims waiting5).length = 1 ∧ (crowded 7).overdue waiting5 = false ∧ (crowded 8).prevec ≠ 0
      ∧ (thread.coreAt 1).saver = some 0 ∧ (resuming.coreAt 1).anyLive = false ∧ resuming.enginesBusy (0, 1, 0) = false
      ∧ (contOn [] []).contFlight.length = 1 ∧ (contOn [cont1] []).contCore 0 0 1 = some 1 ∧ ((contOn [cont1] []).coreAt 1).freeHelper = some 1
      ∧ (sampled 1024).samples 1 10 = true ∧ ((threeCores 0).liveCores 0).length = 3 ∧ (holders ((threeCores 0).liveCores 0) 0) = [1, 2]
      ∧ ((walking 0x40 0).clusterAt 0).walks.length = 1
      ∧ (match (walking 0x40 0).walk 2 0x40 0 false false with
        | .leaf _ => true
        | _ => false) = true
      ∧ (match (walking 0x10040 0).walk 2 0x10040 0 false false with
        | .park _ => true
        | _ => false) = true := by decide +kernel
/-- A resumed thread's masks are in its launch. -/
theorem witness_PlacementAndWalks_resumed :
    let z : SavedThread := { handler := 2, core := 0, tiles := [], masks := [(2, [])], messages := [], bm := 0, arr := 0, stopped := [] }
    let l : Launch := { waiting5 with placedAt := some 0, saved := [(0, z)] }
    let t := run (.launchPlace none) { placing with launches := [l] }
    (t.coreAt 0).saving = some (1, 2) ∧ (t.coreAt 0).thread = some (0, 5, 0) ∧ (t.coreAt 0).anyLive = false := by decide +kernel
/-- Two threads, one on each of modules 0 and 1 (20_program_graph_send): 8 × 8 clusters, ENTRY 0x5000, MODMASK 3. -/
def shared : LaunchShare :=
  { src := 0, ten := 0, ctxid := 9, recVa := 0x40, origin := 0,
    record := leBytes 8 0x08080102 ++ leBytes 8 0x5000 ++ leBytes 16 0 ++ leBytes 8 3 ++ leBytes 24 0 ++ leBytes 8 0x1E000002 ++ leBytes 8 1
      ++ leBytes 112 0 }
/-- Module 1 of a pod of two, tenant 0 owning clusters 0 to 63 of die 0. -/
def second : State :=
  let s := State.reset.setTenant 0 { Tenant.reset with trect := 2 ^ 16 + 0x7700 }
  s.setFabric { s.fabric with fpod := 1 + 2 ^ 8, boot := false }
/-- Of the two threads LCORE 1 falls to module 1; a share that does not name this module, or comes twice, is not placed. -/
theorem test_launchPlace_share :
    let t := run (.launchPlace (some shared)) second
    (t.coreAt 0).thread = some (0, 9, 1) ∧ (t.ctxAt 0 0).pc = 0x5000 ∧ t.launches.length = 1
      ∧ (run (.launchPlace (some shared)) t).launches = t.launches
      ∧ (run (.launchPlace (some { shared with src := 1 })) second).launches = [] := by decide +kernel

/-! ## viash (12 R240 to R250): the words of the chapters' own examples -/

/-- The word of one line at an address of a code segment whose instruction words are listed. -/
def viash (loc : Nat) (code : List Nat) (l : String) : Option Nat :=
  match Viash.lexLine 60 l.toList with
  | some (.word m :: r) => Viash.instruction { syms := [("loop", 0x1000), ("base", 16)], loc := loc, code := code } m r
  | _ => none

/-- R243: `addi x5, x6, -3` is 0x08A6_FFFD. -/
theorem test_viash_addi : viash 0 [] "addi x5, x6, -3 ; a comment" = some 0x08A6FFFD := by decide
/-- R243: `st.8 [x4+16], x7` is 0x30E4_6010, with 16 as a symbol. -/
theorem test_viash_store : viash 0 [] "st.8 [x4+base], x7" = some 0x30E46010 := by decide
/-- R243: `bne x3, x0, loop` 12 bytes after loop is 0x3C60_FFFD. -/
theorem test_viash_branch : viash 0x100C [0x1000] "bne x3, x0, loop" = some 0x3C60FFFD := by decide
/-- R242: a target that is no instruction word of the segment is an error. -/
theorem test_viash_target : viash 0x100C [] "bne x3, x0, loop" = none := by decide
/-- R253: the suffix chooses the major of VADD. -/
theorem test_viash_vadd : viash 0 [] "vadd.f32 v3, v1, v2, x4" = some 0x8000C222 := by decide
/-- R243: the suffixes of MMA stand in either order. -/
theorem test_viash_mma : viash 0 [] "mma.e4m3.adv.z h2, 1, 5" = some 0x78084578 := by decide
/-- R242: −16 >> 2 is −4. -/
theorem test_viash_shift : Viash.value { syms := [], loc := 0, code := [] }
    [.mark "-", .word "16", .mark ">>", .word "2"] = some (-4) := by decide
/-- R254: a listing writes the width coding as an integer type. -/
theorem test_viash_listing : Viash.listing 0 0x9089C003 = some "vlds.i16 v7, x6" := by decide
/-- R245: 1.5 as FP32; 0.1 is rounded to nearest even. -/
theorem test_viash_float : Viash.dataFloat fp32 4 [.word "1.5"] = some [0x00, 0x00, 0xC0, 0x3F]
    ∧ Viash.dataFloat fp32 4 [.mark "-", .word "1e-1"] = some [0xCD, 0xCC, 0xCC, 0xBD] := by decide
/-- R248: the entry of the example type, "sds" with elements "sd". -/
theorem test_viash_type : (Viash.OType.entry { name := "tnode", id := 18, fixed := [1, 0, 1], elem := [1, 0] } 0).take 9
    = [0x03, 0x00, 0x00, 0x02, 0x00, 0x02, 0x00, 0x00, 0x51] := by decide
/-! ## Witnesses of further conditions -/

/-- A handler returns: TR = 1, TSTATUS legal, TADDR aligned. -/
theorem witness_TrapReturn_completes :
    let h := run (.trap 0) thread
    (h.me.status.getLsbD 0 = true ∧ badStatus h.me.tstatus h.me.status = false ∧ h.me.taddr.toNat % 4 = 0)
      ∧ (run .tret h).me.pc = h.me.taddr ∧ (run .tret h).me.status = h.me.tstatus := by decide
/-- A store bound for tile 0 of core 2, an E tile, and one bound for a die whose Cleat the context's kill has reached. -/
theorem witness_StoreQueueDrains_refused :
    let e : StoreEnt := { key := poolKey 2 0, bytes := [9], hbm := false, va := 64, pc := 8 }
    let s := (ctxOf (fun x => { x with storeq := [e] })).setCore 2 { Core.reset with eTiles := [0] }
    let f : StoreEnt := { key := verKey, bytes := [9], hbm := false }
    let killed := { ctxOf (fun x => { x with storeq := [f] }) with kills := [{ kill0 with reached := [.cleat 0] }] }
    s.bankRefuses 1 e = true ∧ ((run (.storeQueueDrain 1 0) s).ctxAt 1 0).due = [(0x0B, 64, 8)] ∧ killed.bankRefuses 1 f = false
      ∧ killed.cleatRefuses 1 f = true ∧ (run (.storeQueueDrain 1 0) killed).mem = killed.mem := by decide
/-- A Cleat that the context's kill has reached hears nothing more of it. -/
theorem witness_deaf :
    let s := { thread with kills := [{ kill0 with reached := [.cleat 0] }] }
    s.unheard verKey true = true ∧ thread.unheard verKey true = false ∧ s.deaf (keyDie verKey) 0 (s.ctxidOf 1) = true
      ∧ thread.deaf (keyDie verKey) 0 (thread.ctxidOf 1) = false := by decide
/-- A CTXID that is killed here names the launch of this module alone. -/
theorem witness_spans : thread.spans 0 (thread.ctxidOf 1) 0 = true ∧ thread.spans 0 (thread.ctxidOf 1) 5 = false := by decide
/-- HALT of the last context waits for the reply store of another one's AMOD. -/
theorem witness_ContextControl_awaits :
    let s := thread.setCtx 1 3 { Ctx.reset with amodReply := [(0, 0)] }
    s.lastAlive = true ∧ (run .halt s).me.stall = 15 ∧ (run .halt thread).me.live = false := by decide
/-- A message for a core that the sender's kill has reached goes; RECV moves a message up from the overflow. -/
theorem witness_Messages_more :
    let s := { sent with kills := [{ kill0 with reached := [.cluster 0] }] }
    let m : Msg := { bytes := [], srcCore := 1, srcMod := 0, remote := false }
    let more := thread.setCore 1 { thread.coreAt 1 with recvq := [m], overflow := [m] }
    s.barred 0 1 1 = true ∧ sent.barred 0 1 1 = false ∧ (run (.messageDeliver 1) s).myCore.recvq = []
      ∧ (run (.recv 4 1 0) more).myCore.recvq.length = 1 ∧ (run (.recv 4 1 0) more).myCore.overflow = [] := by decide
/-- A tile held by a suspended thread is claimed first, which takes stall reason 14. -/
theorem witness_Rings_claim :
    let s := thread.setCore 1 { thread.coreAt 1 with holders := [(5, .slot 0)] }
    s.slotHeld 1 (5 * 1024) 1024 = true ∧ thread.slotHeld 1 (5 * 1024) 1024 = false := by decide
/-- TENCFG's neighbours: the first of two rings' entries by arrival, and a leaf whose versions differ from its frame's. -/
theorem witness_MonitorCalls_first : (call 1 2 0x10000 (pteOf 0x1001 2) 3).monFirst 0 = true
    ∧ mapped.kindDiffers (BitVec.ofNat 64 (pteOf 0x1001 0x20)) 0x1001 = true
    ∧ mapped.kindDiffers (BitVec.ofNat 64 (pteOf 0x1001 0x200)) 0x1001 = false := by decide +kernel
/-- A launch that is being killed is not suspended. -/
theorem witness_ServiceCommands_dying : ({ thread with kills := [kill0] } : State).dying (loadedLaunch State.reset) = true
    ∧ thread.dying (loadedLaunch State.reset) = false := by decide
/-- A host read, an SRAM error and a checker's mismatch each take the coming turn. -/
def turned (t : Turn) : State :=
  let s := State.reset.withFetchWord 32 0x04642DC6
  { s.setCore 1 { s.coreAt 1 with tvec := 0x200000000 } with turns := [t] }
def stepped (s : State) : State := match step s with
  | .next t => t
  | _ => State.reset
theorem witness_StepRunsDecoded_outside :
    let r := turned { read := some { space := .pf, off := 0x1000, size := 4 } }
    let e := turned { upset := some (.sram (poolKey 1 8) false) }
    r.nextTurn.1.read ≠ none ∧ r.power.off = false ∧ (stepped r).hostAnswers.length = 1 ∧ (stepped r).me.pc = 0x100000000
      ∧ e.nextTurn.1.upset = some (.sram (poolKey 1 8) false) ∧ (stepped e).dieLog.length = 1 := by decide
/-- The first mismatch leaves the instruction with stall reason 12, the second is CHECKER_MISMATCH (09 R189). -/
theorem test_checker :
    let t : Turn := { dt := 1, core := 1, ctx := 0, upset := some .checker }
    let a := stepped (turned t)
    let b := stepped { a with turns := [t] }
    a.me.stall = 12 ∧ a.me.pc = 0x100000000 ∧ b.me.tcause = 0x17 ∧ b.me.tval = 0x04642DC6
      ∧ (stepped { a with turns := [{ t with upset := none }] }).me.pc = 0x100000004 := by decide
/-- A leader with a follower whose bitmap is full leaves BOOT 3 at its heartbeat. -/
theorem witness_PodBoot_leads :
    let s := booting (fun b => { b with leading := true, heard := [(9, 0)], bits := [(9, [1])], container := [1] })
    let t := { s with now := 10000000 }
    t.reached = [9] ∧ t.boot.leading = true ∧ (∀ m ∈ t.reached, Tab.find t.boot.bits m ≠ none) ∧ (run .heartbeat t).boot.boot = 0
      ∧ toOf (run .heartbeat t) 9 = [.manifest, .heartbeat] := by decide +kernel
/-- A walk of an engine that ends in no leaf is over; the misaligned one of a versioned page traps. -/
theorem witness_PlacementAndWalks_walks :
    let w (va : W64) (eng fin : Bool) : WalkReq := { core := 1, ctx := 0, ten := 2, va := va, bits := 0, eng := eng, finished := fin }
    let s (l : List WalkReq) : State := { mapped with cores := thread.cores, clusters := [(0, { Cluster.reset with walks := l })] }
    ((run (.tableWalkComplete 0 0) (s [w 0x10040 true false])).clusterAt 0).walks.map (fun v => v.finished) = [true]
      ∧ ((run (.tableWalkComplete 0 0) (s [w 0x40 true false])).clusterAt 0).tlb.length = 1
      ∧ run (.tableWalkComplete 0 0) (s [w 0x40 true true]) = s [w 0x40 true true]
      ∧ (s [w 0x40 true false]).strictLeaf 2 0x40 = false := by decide +kernel
/-- A launch of this module placed at the origin that the modules agree on, and a cluster whose thread another module holds. -/
theorem witness_PlacementAndWalks_own :
    let h : LaunchShare := { shared with src := 0, ctxid := 5, origin := 0 }
    placing.chooseAt h placing.ranked [] = some (waiting5, 0) ∧ (run (.launchPlace (some h)) placing).launches.map (fun l => l.state) = [.placed]
      ∧ placing.chooseAt { h with ctxid := 6 } placing.ranked [] = none := by decide +kernel
end Sys2Proof.Tests
end

section
/-! SUPPORT. The parts of the module at reset, each at its own reset value. -/
namespace Sys2Proof.Machine
open Sys2Proof

theorem State.reset_tenantAt (n : Nat) : State.reset.tenantAt n = Tenant.reset := rfl
theorem State.reset_counterAt (i : Nat) : State.reset.counterAt i = Counter.reset := rfl
theorem State.reset_coreAt (c : Nat) : State.reset.coreAt c = Core.reset := rfl
theorem State.reset_ctxAt (c x : Nat) : State.reset.ctxAt c x = Ctx.reset := rfl
theorem State.reset_clusterAt (c : Nat) : State.reset.clusterAt c = Cluster.reset := rfl
theorem Tenant.reset_pageAt (g : Nat) : Tenant.reset.pageAt g = Page.reset := rfl

/-- Settles O60: every part of the reset state is a default entry, whose fields are the spec's reset values. -/
theorem resetState : Obligations.ResetState := by
  refine ⟨rfl, rfl, rfl, rfl, rfl, rfl, rfl, rfl, rfl, rfl, rfl, ?_, ?_, ?_, ?_⟩
  · intro n g
    rw [State.reset_tenantAt, Tenant.reset_pageAt]
    decide
  · intro i
    rw [State.reset_counterAt]
    exact ⟨rfl, rfl⟩
  · intro c x
    have ring (h : Nat) : Tab.get (State.reset.coreAt c).rings Ring.reset h = Ring.reset := rfl
    simp only [ring]
    rw [State.reset_ctxAt, State.reset_coreAt]
    exact ⟨rfl, rfl, rfl, fun _ => by decide⟩
  · intro c r _
    exact ⟨rfl, rfl, fun _ => rfl⟩
end Sys2Proof.Machine
end

section
/-! SUPPORT. Power: the depth of sleep, wake events, the selection of a state, idle clusters and the conditions of sleep. -/
namespace Sys2Proof.Machine
open Sys2Proof

theorem mem_upTo {i a n : Nat} : i ∈ upTo a n ↔ a ≤ i ∧ i < a + n := by
  induction n generalizing a with
  | zero => simp only [upTo, List.not_mem_nil, false_iff]; omega
  | succ n ih => simp only [upTo, List.mem_cons, ih]; omega

/-! ## Wake events and the dwell (01 R14, R16, R17) -/

/-- The state that the module is entering, else the one that it is in. -/
def Power.depth (p : Power) : Nat := p.entering.getD p.cur

/-- Exit latency of a state in clk (01 R13). -/
def exitClk (a : Nat) : Nat := if a = 2 then 40000 else if a = 3 then 400000 else if a = 4 then 10000000 else 0

theorem exitUs_clk (a : Nat) : exitUs a * 2000 = exitClk a := by
  unfold exitUs exitClk
  split
  · rfl
  · rfl
  · rfl
  · rw [if_neg ‹_›, if_neg ‹_›, if_neg ‹_›]

/-- The power registers after a wake event at a clk. -/
def Power.woken (p : Power) (now : Nat) : Power :=
  if 2 ≤ p.depth ∧ p.waking = none then { p with entering := none, waking := some (now + exitClk p.depth) } else p

theorem Power.depth_of_entering {p : Power} {a : Nat} (h : p.entering = some a) : p.depth = a := by simp [Power.depth, h]

theorem Power.depth_of_cur {p : Power} (h : p.entering = none) : p.depth = p.cur := by simp [Power.depth, h]

/-- While the module wakes, a further wake event changes nothing. -/
theorem State.wake_of_waking (s : State) (h : s.power.waking.isSome = true) : s.wake = s := if_pos h

theorem State.wake_eq (s : State) : s.wake = { s with power := s.power.woken s.now } := by
  by_cases hw : s.power.waking = none
  · unfold State.wake Power.woken
    cases he : s.power.entering with
    | some a =>
      rw [Power.depth_of_entering he]
      by_cases ha : a < 2
      · simp [hw, he, ha, show ¬ 2 ≤ a by omega]
      · simp [hw, he, ha, exitUs_clk, show 2 ≤ a by omega]
    | none =>
      rw [Power.depth_of_cur he]
      by_cases ha : s.power.cur < 2
      · simp [hw, he, ha, show ¬ 2 ≤ s.power.cur by omega]
      · simp [hw, he, ha, exitUs_clk, show 2 ≤ s.power.cur by omega]
  · rw [s.wake_of_waking (Option.isSome_iff_ne_none.mpr hw), Power.woken, if_neg fun hc => hw hc.2]

/-- After a wake event a module that is still asleep is on its way to A0. -/
theorem Power.woken_waking (p : Power) (now : Nat) (h : 2 ≤ (p.woken now).depth) : (p.woken now).waking.isSome = true := by
  unfold Power.woken at *
  split at h
  · rw [if_pos ‹_›]; rfl
  · rename_i hc
    rw [if_neg hc]
    exact Option.isSome_iff_ne_none.mpr fun hn => hc ⟨h, hn⟩

/-- A new tolerance of a module that is awake or waking restarts the dwell and nothing else. -/
theorem State.reselect_of_waking (s : State) (h : 2 ≤ s.power.depth → s.power.waking.isSome = true) :
    s.reselect = { s with power := { s.power with dwell := s.now } } := by
  have noop (h : s.power.waking.isSome = true) :=
    State.wake_of_waking { s with power := { s.power with dwell := s.now } } h
  unfold State.reselect
  cases he : s.power.entering with
  | some a =>
    rw [Power.depth_of_entering he] at h
    exact ite_eq_right_iff.mpr fun hc => noop (h hc.1)
  | none =>
    rw [Power.depth_of_cur he] at h
    exact ite_eq_right_iff.mpr fun hc => noop (h hc.1)

theorem exec_dltolWrite (v : BitVec 32) (s : State) :
    exec (.dltolWrite v) s
      = .next { s with power := { s.power.woken s.now with dltol := v.setWidth 24, dwell := s.now } } := by
  show Host.Outcome.next _ = _
  rw [State.reselect_of_waking, State.wake_eq]
  rw [State.wake_eq]
  exact s.power.woken_waking s.now

theorem exec_tltolWrite (n : BitVec 4) (v : BitVec 32) (s : State) :
    exec (.tltolWrite n v) s
      = .next { s.setTenant n.toNat { s.tenantAt n.toNat with tltol := v.setWidth 24 } with
          power := { s.power.woken s.now with dwell := s.now } } := by
  show Host.Outcome.next _ = _
  rw [State.reselect_of_waking, State.wake_eq]
  · rfl
  · rw [State.wake_eq]
    exact s.power.woken_waking s.now

/-! ## Selection (01 R14, R16) -/

theorem foldl_min_lt {α : Type} (f : α → Nat) (l : List α) (e x : Nat) :
    l.foldl (fun e a => min e (f a)) e < x ↔ e < x ∨ ∃ a ∈ l, f a < x := by
  induction l generalizing e with
  | nil => simp
  | cons a r ih =>
    have head : min e (f a) < x ↔ e < x ∨ f a < x := by omega
    simp only [List.foldl_cons, ih, head, List.mem_cons, exists_eq_or_imp, or_assoc]

/-- DLTOL or the tolerance of an enabled tenant is below a latency. -/
def State.Below (s : State) (x : Nat) : Prop :=
  s.power.dltol.toNat < x ∨ ∃ t, t < 16 ∧ (s.tenantAt t).vf = true ∧ (s.tenantAt t).tltol.toNat < x

theorem State.tolerance_lt (s : State) (x : Nat) : s.tolerance < x ↔ s.Below x := by
  unfold State.tolerance
  rw [foldl_min_lt (fun t => (s.tenantAt t).tltol.toNat)]
  simp [State.Below, mem_upTo, and_assoc]

theorem State.podN_eq_zero (s : State) : s.podN = 0 ↔ bitsAt s.fabric.fpod 8 3 = 0 := by
  unfold State.podN
  split
  · simp [*]
  · simp [*]

/-- A sleep state is the deepest that the tolerance allows, A4 outside a pod. -/
def State.Targets (s : State) (b : Nat) : Prop :=
  (b = 4 ∧ ¬ s.Below 5000 ∧ ¬ bitsAt s.fabric.fpod 8 3 ≠ 0)
  ∨ (b = 3 ∧ ¬ s.Below 200 ∧ (s.Below 5000 ∨ bitsAt s.fabric.fpod 8 3 ≠ 0))
  ∨ (b = 2 ∧ ¬ s.Below 20 ∧ s.Below 200)

theorem State.targets_iff (s : State) (b : Nat) : s.Targets b ↔ 0 < b ∧ s.powerTarget = b := by
  simp only [State.Targets, State.powerTarget, ← State.tolerance_lt, ← State.podN_eq_zero, ge_iff_le, ne_eq]
  split
  · omega
  · split
    · omega
    · split <;> omega

/-! ## Idle clusters (01 R13) -/

/-- The cluster has no live context and no engine command in flight. -/
def State.Idle (s : State) (c : Nat) : Prop :=
  (∀ i, i / 16 = c → (∀ q ∈ (s.coreAt i).ctxs, q.2.live = false) ∧ (s.coreAt i).vq = [] ∧ (s.coreAt i).mqueue = []
    ∧ ∀ m ∈ (s.coreAt i).copies, m.state ≠ 1)
  ∧ (s.clusterAt c).run = none ∧ (s.clusterAt c).wbload = none

theorem State.clusterIdle_iff (s : State) (c : Nat) : s.clusterIdle c = true ↔ s.Idle c := by
  have cores (i : Nat) : c * 16 ≤ i ∧ i < c * 16 + 16 ↔ i / 16 = c := by omega
  simp [State.clusterIdle, State.Idle, Core.anyLive, mem_upTo, cores, and_assoc]

theorem exec_clusterClockGate_gates (cl : BitVec 8) (s : State) (hi : s.Idle cl.toNat)
    (hg : (s.clusterAt cl.toNat).gatedAt = none) (ht : (s.clusterAt cl.toNat).busyAt + 64 ≤ s.now) :
    exec (.clusterClockGate cl) s
      = .next (s.setCluster cl.toNat { s.clusterAt cl.toNat with gatedAt := some s.now }) := by
  show execClusterClockGate cl s = _
  simp [execClusterClockGate, (s.clusterIdle_iff _).mpr hi, hg, ht]

theorem exec_clusterClockGate_stays (cl : BitVec 8) (s : State)
    (h : ¬ s.Idle cl.toNat ∨ (s.clusterAt cl.toNat).gatedAt ≠ none ∨ s.now < (s.clusterAt cl.toNat).busyAt + 64) :
    exec (.clusterClockGate cl) s = .next s := by
  show execClusterClockGate cl s = _
  unfold execClusterClockGate
  refine if_neg fun hc => ?_
  simp only [Bool.and_eq_true, decide_eq_true_eq, Option.isNone_iff_eq_none, State.clusterIdle_iff] at hc
  obtain ⟨⟨hi, hg⟩, ht⟩ := hc
  rcases h with h | h | h
  · exact h hi
  · exact h hg
  · omega

theorem exec_a1Exit_leaves (cl : BitVec 8) (s : State) (hi : ¬ s.Idle cl.toNat)
    (hg : (s.clusterAt cl.toNat).gatedAt ≠ none) :
    exec (.a1Exit cl) s = .next (s.setCluster cl.toNat { s.clusterAt cl.toNat with gatedAt := none }) := by
  show execA1Exit cl s = _
  rw [← State.clusterIdle_iff] at hi
  simp [execA1Exit, hi, Option.isSome_iff_ne_none.mpr hg]

theorem exec_a1Exit_stays (cl : BitVec 8) (s : State)
    (h : s.Idle cl.toNat ∨ (s.clusterAt cl.toNat).gatedAt = none) : exec (.a1Exit cl) s = .next s := by
  show execA1Exit cl s = _
  rw [← State.clusterIdle_iff] at h
  rcases h with h | h <;> simp [execA1Exit, h]

/-! ## Sleep (01 R13, R16, R17) -/

/-- Every cluster has been idle and gated for a dwell of a state's exit latency, and nothing is pending in the module. -/
def State.Quiet (s : State) (a : Nat) : Prop :=
  (∀ i, i < 256 → s.Idle i ∧ ∃ t, (s.clusterAt i).gatedAt = some t ∧ max t s.power.dwell + exitClk a ≤ s.now)
  ∧ (∀ t, t < 16 → ∀ q ∈ (s.tenantAt t).pages, q.2.queue = []) ∧ (∀ l ∈ s.launches, l.state = .suspended)
  ∧ s.fabric.unacked = [] ∧ (∀ q ∈ s.fabric.sendq, q.2 = []) ∧ s.fabric.staged = [] ∧ (∀ r ∈ s.fabric.rx, r.2.held = [])
  ∧ s.parkedRemote = [] ∧ ∀ w ∈ s.waiters, w.remote = none

theorem State.maySleep_iff (s : State) (a : Nat) : s.maySleep a = true ↔ s.Quiet a := by
  simp only [State.maySleep, State.Quiet, ← exitUs_clk, Bool.and_eq_true, List.all_eq_true, List.isEmpty_iff, State.clusterIdle_iff,
    mem_upTo, Nat.zero_le, true_and, Nat.zero_add, decide_eq_true_eq, Option.isNone_iff_eq_none, and_assoc]
  refine and_congr_left fun _ => forall₂_congr fun i _ => and_congr_right fun _ => ?_
  cases (s.clusterAt i).gatedAt with
  | none => simp
  | some t => simp

theorem exec_sleepEntry_completes (s : State) (b : Nat) (h : s.power.entering = some b) :
    exec .sleepEntry s = .next { s with power := { s.power with entering := none, cur := b, dwell := s.now } } := by
  show execSleepEntry s = _
  simp [execSleepEntry, h]

theorem exec_sleepEntry_begins (s : State) (he : s.power.entering = none) (hw : s.power.waking = none)
    (hc : s.power.cur < s.powerTarget) (hq : s.Quiet s.powerTarget) :
    exec .sleepEntry s = .next { s with power := { s.power with entering := some s.powerTarget } } := by
  show execSleepEntry s = _
  simp [execSleepEntry, he, hw, hc, (s.maySleep_iff _).mpr hq]

theorem exec_sleepEntry_stays (s : State) (he : s.power.entering = none)
    (h : s.power.waking ≠ none ∨ ¬ (s.power.cur < s.powerTarget ∧ s.Quiet s.powerTarget)) : exec .sleepEntry s = .next s := by
  show execSleepEntry s = _
  unfold execSleepEntry
  simp only [he]
  refine if_neg fun hc => ?_
  simp only [Bool.and_eq_true, decide_eq_true_eq, Option.isNone_iff_eq_none, State.maySleep_iff] at hc
  obtain ⟨⟨hw, hcur⟩, hq⟩ := hc
  exact h.elim (· hw) (· ⟨hcur, hq⟩)

theorem exec_wakeExitComplete_wakes (s : State) (h : s.power.waking ≠ none) :
    exec .wakeExitComplete s
      = .next { s with power := { s.power with cur := 0, waking := none, entering := none, dwell := s.now } } := by
  show execWakeExitComplete s = _
  obtain ⟨w, hw⟩ := Option.ne_none_iff_exists'.mp h
  simp [execWakeExitComplete, hw]

theorem exec_wakeExitComplete_stays (s : State) (h : s.power.waking = none) : exec .wakeExitComplete s = .next s := by
  show execWakeExitComplete s = _
  simp [execWakeExitComplete, h]

end Sys2Proof.Machine
end

section
/-! SUPPORT. Reset and boot: pod time after a reset, and what the boot ROM can do. -/
namespace Sys2Proof.Machine
open Sys2Proof

/-! ## Tables -/

/-- Setting consecutive keys of a table, each to a value of its own. -/
theorem Tab.get_foldl_set_upTo {α : Type} (f : Nat → α) (b a n : Nat) (t : Tab α) (d : α) (k : Nat) :
    Tab.get ((upTo a n).foldl (fun t i => Tab.set t (b + i) (f i)) t) d k
      = if b + a ≤ k ∧ k < b + a + n then f (k - b) else Tab.get t d k := by
  induction n generalizing a t with
  | zero => rw [if_neg (by omega)]; rfl
  | succ n ih =>
    rw [upTo, List.foldl_cons, ih, Tab.get_set]
    by_cases h : k = b + a
    · rw [if_neg (by omega), if_pos h, if_pos (by omega), show k - b = a by omega]
    · rw [if_neg h]
      exact ite_congr (propext (by omega)) (fun _ => rfl) (fun _ => rfl)

/-- Looking a number up in the table of a function over consecutive numbers. -/
theorem Tab.get_map_upTo {α : Type} (f : Nat → α) (a n : Nat) (d : α) (k : Nat) :
    Tab.get ((upTo a n).map (fun i => (i, f i))) d k = if a ≤ k ∧ k < a + n then f k else d := by
  induction n generalizing a with
  | zero => rw [if_neg (by omega)]; rfl
  | succ n ih =>
    rw [upTo, List.map_cons, Tab.get, ih]
    by_cases h : k = a
    · rw [if_pos h, if_pos (by omega), h]
    · rw [if_neg h]
      exact ite_congr (propext (by omega)) (fun _ => rfl) (fun _ => rfl)

/-! ## Memory -/

/-- Keeping the bytes of some keys: the others read 0. -/
theorem memGet_filter (m : List Host.Cell) (p : Nat → Bool) (k : Nat) :
    memGet (m.filter (fun c => p c.1)) k = if p k then memGet m k else 0 := by
  induction m with
  | nil => simp [memGet]
  | cons c r ih =>
    obtain ⟨j, b⟩ := c
    rw [List.filter_cons]
    by_cases h : k = j
    · subst h
      by_cases hp : p k = true
      · simp [hp, memGet]
      · simpa [hp] using ih
    · by_cases hp : p j = true
      · simp [hp, memGet, h, ih]
      · simp [hp, memGet, h, ih]

/-! ## What the boot ROM changes -/

/-- A state that differs from another only in what booting and the page tables write: memory, tables and their caches, the
firmware's attestation record, DINFO and the fabric's measurements; cores and clusters keep all but cached translations. -/
structure OnlyBoot (s t : State) : Prop where
  rest : t = { s with
    mem := t.mem, poison := t.poison, cores := t.cores, clusters := t.clusters, attr := t.attr, pool := t.pool,
    fwAttest := t.fwAttest, fwroot := t.fwroot, boot := t.boot, fabric := t.fabric, free := t.free }
  cores : s.cores = [] → t.cores = []
  clusters : s.clusters = [] → t.clusters = []

namespace OnlyBoot

theorem refl (s : State) : OnlyBoot s s := ⟨rfl, id, id⟩

theorem trans {s t u : State} (h : OnlyBoot s t) (g : OnlyBoot t u) : OnlyBoot s u :=
  ⟨by rw [g.rest, h.rest], g.cores ∘ h.cores, g.clusters ∘ h.clusters⟩

theorem tenants {s t : State} (h : OnlyBoot s t) : t.tenants = s.tenants := by rw [h.rest]

theorem tenantAt {s t : State} (h : OnlyBoot s t) (n : Nat) : t.tenantAt n = s.tenantAt n :=
  congrArg (Tab.get · Tenant.reset n) h.tenants

theorem pokeN (s : State) (k : Nat) (l : List Byte) : OnlyBoot s (s.pokeN k l) := ⟨rfl, id, id⟩

theorem tlbInvalidate (s : State) (ten page n : Nat) : OnlyBoot s (s.tlbInvalidate ten page n) :=
  ⟨rfl, fun h => by simp [State.tlbInvalidate, h, Tab.mapV], fun h => by simp [State.tlbInvalidate, h, Tab.mapV]⟩

theorem writeLeaf (s : State) (ten k va level : Nat) (e : W64) : OnlyBoot s (s.writeLeaf ten k va level e) := by
  unfold State.writeLeaf
  dsimp only
  split
  · exact (tlbInvalidate s ten _ _).trans (pokeN _ _ _)
  · exact pokeN s _ _

/-- A table that is created takes a frame of the pool. -/
theorem takeFrame (s : State) (r : List Nat) (k f : Nat) :
    OnlyBoot s ((({ s with pool := r } : State).zero (f * 65536) 65536).pokeLe k 8 (f * 65536 + 1)) := ⟨rfl, id, id⟩

theorem tableEntry {s t : State} {root va level k : Nat} (h : s.tableEntry root va level = some (t, k)) : OnlyBoot s t := by
  have down {u v : State} {j f : Nat} (hd : (if pteV (w64 (u.peekLe j 8)) then some (u, pteFrame (w64 (u.peekLe j 8)))
      else match u.pool with
        | [] => none
        | f :: r => some ((({ u with pool := r } : State).zero (f * 65536) 65536).pokeLe j 8 (f * 65536 + 1), f)) = some (v, f)) :
      OnlyBoot u v := by
    split at hd
    · cases hd; exact refl u
    · split at hd
      · cases hd
      · cases hd; exact takeFrame u _ _ _
  unfold State.tableEntry at h
  dsimp only at h
  split at h
  · cases h
  · rename_i s1 f1 h1
    split at h
    · cases h; exact down h1
    · split at h
      · cases h
      · rename_i s2 f2 h2
        cases h
        exact (down h1).trans (down h2)

theorem setAttr (s : State) (a : Tab W16) : OnlyBoot s { s with attr := a } := ⟨rfl, id, id⟩

theorem markCode (s : State) (ten va n : Nat) : OnlyBoot s (s.markCode ten va n) := by
  induction n generalizing va with
  | zero => exact refl s
  | succ n ih =>
    have ih := ih (va + 65536)
    unfold State.markCode
    dsimp only
    split
    · rename_i e u key _ hu
      have hu := ih.trans (tableEntry hu)
      split
      · exact hu.trans ((setAttr u _).trans (writeLeaf _ _ _ _ _ _))
      · split
        · rename_i u1 key1 h1
          exact (hu.trans (tableEntry h1)).trans ((setAttr u1 _).trans (writeLeaf _ _ _ _ _ _))
        · exact hu
    · exact ih

theorem setAttest (s : State) (a : Attest) : OnlyBoot s (s.setAttest 16 a) := ⟨rfl, id, id⟩

/-- The monitor verifies a segment of firmware (05 R89). -/
theorem verifySegment (s : State) (c : List Byte) (i : Nat) : OnlyBoot s (s.verifySegment 16 c i).2 := by
  unfold State.verifySegment
  dsimp only
  split
  · exact refl s
  split
  · exact refl s
  split
  · exact refl s
  split
  · exact refl s
  split
  · exact refl s
  split
  · exact refl s
  dsimp only
  split
  · exact (setAttest s _).trans (markCode _ _ _ _)
  · exact setAttest s _

theorem tenWrite {s t : State} {ten : Nat} {va : W64} {l : List Byte} (h : s.tenWrite ten va l = some t) : OnlyBoot s t := by
  have writes (runs : List (Nat × Nat)) : ∀ acc : State × List Byte, OnlyBoot acc.1 (runs.foldl
      (fun acc p => (acc.1.pokeN p.1 (acc.2.take p.2), acc.2.drop p.2)) acc).1 := by
    induction runs with
    | nil => exact fun acc => refl acc.1
    | cons p r ih => exact fun acc => (pokeN acc.1 _ _).trans (ih (acc.1.pokeN p.1 (acc.2.take p.2), acc.2.drop p.2))
  unfold State.tenWrite at h
  split at h
  · cases h
  · cases h; exact writes _ (s, l)

theorem loadSegment (s : State) (c : List Byte) (i : Nat) : OnlyBoot s (s.loadSegment c i).2 := by
  unfold State.loadSegment
  dsimp only
  refine trans ?_ (verifySegment _ c i)
  cases h : s.tenWrite 16 _ _ with
  | none => exact refl s
  | some t => exact tenWrite h

theorem loadSegments {s t : State} {c : List Byte} {i n : Nat} (h : s.loadSegments c i n = .ok t) : OnlyBoot s t := by
  induction n generalizing s i with
  | zero => cases h; exact refl _
  | succ n ih =>
    have hs := loadSegment s c i
    unfold State.loadSegments at h
    split at h
    · rename_i u hu
      rw [hu] at hs
      exact hs.trans (ih h)
    · cases h

theorem setFabric (s : State) (f : Fabric) : OnlyBoot s (s.setFabric f) := ⟨rfl, id, id⟩

theorem litUp (s : State) : OnlyBoot s s.litUp := setFabric s _

theorem bootMemory (s : State) : OnlyBoot s s.bootMemory := ⟨rfl, id, id⟩

theorem bootFailed (s : State) (step : Nat) (code seg : Byte) : OnlyBoot s (s.bootFailed step code seg) := ⟨rfl, id, id⟩

end OnlyBoot

/-- Loading a container stops where the flash cannot be read or a segment fails, and else goes on. -/
theorem State.loadContainer_cases (s : State) (n which readStep step : Nat) (go : State → State) :
    (Config.flash n which = none ∧ s.loadContainer n which readStep step go = s.bootFailed readStep 0x80 0)
    ∨ (∃ code seg, s.loadContainer n which readStep step go = s.bootFailed step code seg)
    ∨ ∃ t, OnlyBoot s t ∧ s.loadContainer n which readStep step go = go t := by
  unfold State.loadContainer
  split
  · exact .inl ⟨‹_›, rfl⟩
  · split
    · exact .inr (.inl ⟨_, _, rfl⟩)
    · rename_i t ht
      exact .inr (.inr ⟨t, .loadSegments ht, rfl⟩)

/-! ## The boot ROM (05 R90) -/

/-- The state in which the boot ROM of `s` has found the PLLs locked and the memory trained or not. -/
def State.afterTraining (s : State) : State := ({ s with free := s.free + 1 } : State).trained s.free

theorem OnlyBoot.afterTraining (s : State) : OnlyBoot s s.afterTraining := ⟨rfl, id, id⟩

theorem State.bootRom_noPll (s : State) (h : Config.pllLocks s.free = false) :
    s.bootRom = ({ s with free := s.free + 1 } : State).bootFailed 0 0x81 0 := by
  simp [State.bootRom, h]

theorem State.bootRom_noFlash (s : State) (h : Config.pllLocks s.free = true) (hf : Config.flash s.free 0 = none) :
    s.bootRom = ({ s with free := s.free + 1 } : State).bootFailed 1 0x80 0 := by
  simp [State.bootRom, h, hf]

theorem State.bootRom_noStack (s : State) (h : Config.pllLocks s.free = true) (hf : Config.flash s.free 0 ≠ none)
    (hs : ∃ i, i < 8 ∧ Config.stackTrains s.free i = false) : s.bootRom = s.afterTraining.bootFailed 0 0x82 0 := by
  have hall : (upTo 0 8).all (Config.stackTrains s.free) = false := by
    obtain ⟨i, hi, hs⟩ := hs
    exact List.all_eq_false.mpr ⟨i, mem_upTo.mpr (by omega), by simp [hs]⟩
  simp [State.bootRom, State.afterTraining, h, hf, hall]

theorem State.bootRom_noOptics (s : State) (h : Config.pllLocks s.free = true) (hf : Config.flash s.free 0 ≠ none)
    (hs : ∀ i, i < 8 → Config.stackTrains s.free i = true) (ho : Config.opticsLock s.free = false) :
    s.bootRom = s.afterTraining.bootFailed 0 0x83 0 := by
  have hall : (upTo 0 8).all (Config.stackTrains s.free) = true :=
    List.all_eq_true.mpr fun i hi => hs i (by have := mem_upTo.mp hi; omega)
  simp [State.bootRom, State.afterTraining, h, hf, hall, ho]

/-- With clock, flash, memory and optics in order the boot ROM stops at a container, at step 2 or 4, or starts the firmware. -/
theorem State.bootRom_loads (s : State) (h : Config.pllLocks s.free = true) (hf : Config.flash s.free 0 ≠ none)
    (hs : ∀ i, i < 8 → Config.stackTrains s.free i = true) (ho : Config.opticsLock s.free = true) :
    ∃ u, OnlyBoot s u ∧ ((∃ step code seg, (step = 2 ∨ step = 4) ∧ s.bootRom = u.bootFailed step code seg) ∨ s.bootRom = u.booted) := by
  have hall : (upTo 0 8).all (Config.stackTrains s.free) = true :=
    List.all_eq_true.mpr fun i hi => hs i (by have := mem_upTo.mp hi; omega)
  have hr : s.bootRom = s.afterTraining.litUp.bootMemory.loadContainer s.free 0 1 2
      (fun t => t.loadContainer s.free 1 4 4 State.booted) := by
    simp [State.bootRom, State.afterTraining, h, hf, hall, ho]
  have hm : OnlyBoot s s.afterTraining.litUp.bootMemory := (OnlyBoot.afterTraining s).trans ((OnlyBoot.litUp _).trans (OnlyBoot.bootMemory _))
  rw [hr]
  rcases s.afterTraining.litUp.bootMemory.loadContainer_cases s.free 0 1 2 (fun t => t.loadContainer s.free 1 4 4 State.booted)
    with ⟨h0, _⟩ | ⟨code, seg, h2⟩ | ⟨t, ht, hgo⟩
  · exact absurd h0 hf
  · exact ⟨_, hm, .inl ⟨2, code, seg, .inl rfl, h2⟩⟩
  · have ht := hm.trans ht
    rw [hgo]
    rcases t.loadContainer_cases s.free 1 4 4 State.booted with ⟨_, h4⟩ | ⟨code, seg, h4⟩ | ⟨u, hu, hb⟩
    · exact ⟨t, ht, .inl ⟨4, _, _, .inr rfl, h4⟩⟩
    · exact ⟨t, ht, .inl ⟨4, code, seg, .inr rfl, h4⟩⟩
    · exact ⟨u, ht.trans hu, .inr hb⟩

/-! ## The module after a reset (01 R19) -/

/-- The offset that a restart of pod time sets, in its two parts, brings the scaled count to a multiple of 2^80. -/
theorem restart_offset (x : Nat) :
    (x + (2 ^ 80 - x % 2 ^ 80) / 65536 % 2 ^ 64 * 65536 + (2 ^ 80 - x % 2 ^ 80) % 2 ^ 16) / 65536 % 2 ^ 64 = 0 := by
  have parts (z : Nat) : z / 65536 % 2 ^ 64 * 65536 + z % 2 ^ 16 = z % 2 ^ 80 := by omega
  have sum : ∃ k, x + (2 ^ 80 - x % 2 ^ 80) % 2 ^ 80 = 2 ^ 64 * k * 65536 := ⟨(x + (2 ^ 80 - x % 2 ^ 80) % 2 ^ 80) / 2 ^ 80, by omega⟩
  obtain ⟨k, hk⟩ := sum
  rw [Nat.add_assoc, parts, hk, Nat.mul_div_cancel _ (by decide), Nat.mul_mod_right]

/-- Pod time whose offsets were set anew at this clk reads 0. -/
theorem State.podTime_restarted {s t : State} (hn : t.now = s.now) (ho : t.podOff = s.restartTime.podOff)
    (hf : t.podFrac = s.restartTime.podFrac) {d : Nat} (hd : d < 4) : t.podTime d = 0 := by
  have hin : 0 ≤ d ∧ d < 0 + 4 := by omega
  apply BitVec.eq_of_toNat_eq
  simp only [State.podTime, State.podScaled, hn, ho, hf, State.restartTime, Tab.get_map_upTo, if_pos hin, BitVec.toNat_ofNat]
  exact restart_offset (s.now * 32768)

/-- A module after a reset of `s`, before its firmware runs or after: the turns and clk go on, pod time is 0, and every part is
at its reset value but memory, DINFO, the fabric and the cores of firmware. -/
structure Restarted (s t : State) : Prop where
  now : t.now = s.now
  turns : t.turns = s.turns
  podTime : ∀ d, d < 4 → t.podTime d = 0
  tenants : t.tenants = []
  clusters : t.clusters = []
  octets : t.octets = []
  counters : t.counters = []
  launches : t.launches = []
  kills : t.kills = []
  estates : t.estates = []
  mbox : t.mbox = []
  waiters : t.waiters = []
  power : t.power = Power.reset
  arrayCores : ∀ i, i < 4096 → t.coreAt i = Core.reset

theorem Restarted.moduleReset (s : State) : Restarted s s.moduleReset :=
  ⟨rfl, rfl, fun _ hd => State.podTime_restarted rfl rfl rfl hd, rfl, rfl, rfl, rfl, rfl, rfl, rfl, rfl, rfl, rfl, fun _ _ => rfl⟩

theorem State.coreAt_of_noCores {s : State} (h : s.cores = []) (c : Nat) : s.coreAt c = Core.reset := by
  rw [State.coreAt, h]
  rfl

/-- What boot writes leaves the module as the reset left it. -/
theorem Restarted.onlyBoot {s t u : State} (h : Restarted s t) (hc : t.cores = []) (k : OnlyBoot t u) : Restarted s u := by
  obtain ⟨rest, cores, clusters⟩ := k
  have time (d : Nat) : u.podTime d = t.podTime d := by rw [rest]; rfl
  exact {
    now := by rw [rest]; exact h.now
    turns := by rw [rest]; exact h.turns
    podTime := fun d hd => (time d).trans (h.podTime d hd)
    tenants := by rw [rest]; exact h.tenants
    clusters := clusters h.clusters
    octets := by rw [rest]; exact h.octets
    counters := by rw [rest]; exact h.counters
    launches := by rw [rest]; exact h.launches
    kills := by rw [rest]; exact h.kills
    estates := by rw [rest]; exact h.estates
    mbox := by rw [rest]; exact h.mbox
    waiters := by rw [rest]; exact h.waiters
    power := by rw [rest]; exact h.power
    arrayCores := fun i _ => State.coreAt_of_noCores (cores hc) i }

/-- A core of firmware as boot starts it. -/
def firmwareCore (kind : CtxKind) (pl : Nat) (pc : W64) : Core := { Core.reset with ctxs := [(0, firmwareCtx kind pl pc)] }

/-- The cores that run once the firmware has started: the service cores and the monitor core, each its context 0. -/
theorem State.booted_coreAt {s : State} (hc : s.cores = []) (c : Nat) :
    s.booted.coreAt c
      = if c = monitorCore then firmwareCore .monitor 2 (Config.firmwareEntry 16)
        else if 4096 ≤ c ∧ c < 4112 then firmwareCore .service 1 (Config.firmwareEntry (c - 4096))
        else Core.reset := by
  have services := Tab.get_foldl_set_upTo (fun v => firmwareCore .service 1 (Config.firmwareEntry v)) 4096 0 16 [] Core.reset c
  unfold State.coreAt State.booted
  dsimp only
  rw [hc, List.foldl_append, List.foldl_map, List.foldl_cons, List.foldl_nil, Tab.get_set]
  exact ite_congr rfl (fun _ => rfl) (fun _ => services)

/-- Starting the firmware changes the offset of pod time, the cores and DINFO. -/
theorem State.booted_rest (s : State) : s.booted = { s with
    podOff := s.restartTime.podOff, podFrac := s.restartTime.podFrac, cores := s.booted.cores, boot := s.booted.boot } := by
  unfold State.booted State.restartTime
  dsimp only

/-- Pod time starts anew, with cores that leave the array cores at reset. -/
theorem Restarted.setTime {s t : State} (h : Restarted s t) (off : Tab W64) (frac : Tab (BitVec 16)) (cores : Tab Core) (boot : Boot)
    (ho : off = t.restartTime.podOff) (hf : frac = t.restartTime.podFrac)
    (hc : ∀ i, i < 4096 → Tab.get cores Core.reset i = Core.reset) :
    Restarted s { t with podOff := off, podFrac := frac, cores := cores, boot := boot } :=
  have time (d : Nat) (hd : d < 4) : ({ t with podOff := off, podFrac := frac, cores := cores, boot := boot } : State).podTime d = 0 := by
    refine State.podTime_restarted (s := t) ?_ ?_ ?_ hd
    · rfl
    · exact ho
    · exact hf
  { h with podTime := time, arrayCores := hc }

theorem Restarted.booted {s t : State} (h : Restarted s t) (hc : t.cores = []) : Restarted s t.booted := by
  have array (i : Nat) (hi : i < 4096) : t.booted.coreAt i = Core.reset := by
    rw [State.booted_coreAt hc, if_neg (by unfold monitorCore; omega), if_neg (by omega)]
  rw [State.booted_rest]
  exact h.setTime _ _ _ _ rfl rfl array

end Sys2Proof.Machine
end

section
/-! The statement about power and resets (O46). -/
namespace Sys2Proof.Machine
open Sys2Proof

/-- Boot has stopped in a step with a code: no core runs and memory is as it was. -/
def BootFails (t : State) (old : Nat → Byte) (step : Nat) (code : Byte) : Prop :=
  t.boot.boot = 2 ∧ t.boot.fstep = step ∧ t.boot.fcode = code ∧ t.cores = [] ∧ ∀ k, t.peek k = old k

/-- How the boot ROM ends, by what the part answers at the `n`-th boot: memory was `old` before. -/
def BootEnds (n : Nat) (old : Nat → Byte) (t : State) : Prop :=
  (Config.pllLocks n = false → BootFails t old 0 0x81)
  ∧ (Config.pllLocks n = true → Config.flash n 0 = none → BootFails t old 1 0x80)
  ∧ (Config.pllLocks n = true → Config.flash n 0 ≠ none → (∃ i, i < 8 ∧ Config.stackTrains n i = false) → BootFails t old 0 0x82)
  ∧ (Config.pllLocks n = true → Config.flash n 0 ≠ none → (∀ i, i < 8 → Config.stackTrains n i = true) →
      (Config.opticsLock n = false → BootFails t old 0 0x83)
      ∧ (Config.opticsLock n = true →
          (t.boot.boot = 2 ∧ t.cores = [] ∧ (t.boot.fstep = 2 ∨ t.boot.fstep = 4))
          ∨ (t.boot.boot = 3
            ∧ (∀ i, i < 16 → t.ctxAt (4096 + i) 0
                = { Ctx.reset with live := true, kind := .service, pc := Config.firmwareEntry i, status := 20 })
            ∧ t.ctxAt 0x1010 0
                = { Ctx.reset with live := true, kind := .monitor, pc := Config.firmwareEntry 16, status := 24 })))

theorem BootFails.bootFailed {t : State} {old : Nat → Byte} (hc : t.cores = []) (hm : ∀ k, t.peek k = old k)
    (step : Nat) (code seg : Byte) : BootFails (t.bootFailed step code seg) old step code := ⟨rfl, rfl, rfl, hc, hm⟩

theorem State.booted_service {u : State} (hc : u.cores = []) {i : Nat} (hi : i < 16) :
    u.booted.ctxAt (4096 + i) 0 = firmwareCtx .service 1 (Config.firmwareEntry i) := by
  rw [State.ctxAt, State.booted_coreAt hc, if_neg (by unfold monitorCore; omega), if_pos (by omega), Nat.add_sub_cancel_left]
  rfl

theorem State.booted_monitor {u : State} (hc : u.cores = []) :
    u.booted.ctxAt 0x1010 0 = firmwareCtx .monitor 2 (Config.firmwareEntry 16) := by
  rw [State.ctxAt, State.booted_coreAt hc]
  rfl

theorem BootEnds.bootRom {t : State} {old : Nat → Byte} (hc : t.cores = []) (hm : ∀ k, t.peek k = old k) :
    BootEnds t.free old t.bootRom := by
  refine ⟨fun h => ?_, fun h hf => ?_, fun h hf hs => ?_, fun h hf hs => ⟨fun ho => ?_, fun ho => ?_⟩⟩
  · rw [t.bootRom_noPll h]
    exact .bootFailed hc hm _ _ _
  · rw [t.bootRom_noFlash h hf]
    exact .bootFailed hc hm _ _ _
  · rw [t.bootRom_noStack h hf hs]
    exact .bootFailed (t := t.afterTraining) hc hm _ _ _
  · rw [t.bootRom_noOptics h hf hs ho]
    exact .bootFailed (t := t.afterTraining) hc hm _ _ _
  · obtain ⟨u, hu, ⟨step, code, seg, hstep, hr⟩ | hr⟩ := t.bootRom_loads h hf hs ho
    · rw [hr]
      exact .inl ⟨rfl, hu.cores hc, hstep⟩
    · rw [hr]
      exact .inr ⟨rfl, fun i hi => State.booted_service (hu.cores hc) hi, State.booted_monitor (hu.cores hc)⟩

/-- However the boot ROM ends, the rest of the module is as the reset left it. -/
theorem Restarted.bootRom {s t : State} (h : Restarted s t) (hc : t.cores = []) : Restarted s t.bootRom := by
  have failed (u : State) (hu : OnlyBoot t u) (step : Nat) (code seg : Byte) : Restarted s (u.bootFailed step code seg) :=
    h.onlyBoot hc (hu.trans (.bootFailed u step code seg))
  have counted : OnlyBoot t { t with free := t.free + 1 } := ⟨rfl, id, id⟩
  cases hp : Config.pllLocks t.free with
  | false => rw [t.bootRom_noPll hp]; exact failed _ counted _ _ _
  | true =>
    by_cases hf : Config.flash t.free 0 = none
    · rw [t.bootRom_noFlash hp hf]; exact failed _ counted _ _ _
    · by_cases hs : ∃ i, i < 8 ∧ Config.stackTrains t.free i = false
      · rw [t.bootRom_noStack hp hf hs]; exact failed _ (.afterTraining t) _ _ _
      · have hs : ∀ i, i < 8 → Config.stackTrains t.free i = true := by simpa using hs
        cases ho : Config.opticsLock t.free with
        | false => rw [t.bootRom_noOptics hp hf hs ho]; exact failed _ (.afterTraining t) _ _ _
        | true =>
          obtain ⟨u, hu, ⟨step, code, seg, _, hr⟩ | hr⟩ := t.bootRom_loads hp hf hs ho
          · rw [hr]; exact failed u hu _ _ _
          · rw [hr]; exact (h.onlyBoot hc hu).booted (hu.cores hc)

/-- The module before its boot ROM runs at a cold reset: what it held is gone, the host's memory is not. -/
def State.coldModule (s : State) : State :=
  { s.moduleReset with
    mem := s.mem.filter (fun c => decide (2 ^ 64 ≤ c.1)), poison := s.poison.filter (fun u => decide (2 ^ 61 ≤ u)),
    msixOut := [], hostAnswers := [], aer := 0 }

theorem exec_coldReset_powered (s : State) (h : s.power.off = false) : exec .coldReset s = .next s := by
  show execColdReset s = _
  simp [execColdReset, h]

theorem exec_coldReset_off (s : State) (h : s.power.off = true) : exec .coldReset s = .next s.coldModule.bootRom := by
  show execColdReset s = _
  simp only [execColdReset, h, Bool.not_true, Bool.false_eq_true, if_false]
  rfl

theorem exec_moduleReset (s : State) : exec .moduleReset s = .next s.moduleReset.bootRom := rfl

theorem State.coldModule_peek (s : State) (k : Nat) : s.coldModule.peek k = if k < 2 ^ 64 then 0 else s.peek k := by
  show memGet (s.mem.filter (fun c => decide (2 ^ 64 ≤ c.1))) k = _
  rw [memGet_filter s.mem (fun k => decide (2 ^ 64 ≤ k))]
  by_cases h : k < 2 ^ 64
  · rw [if_pos h, if_neg (by simpa using h)]
  · rw [if_neg h, if_pos (by simpa using h)]
    rfl

theorem Restarted.coldModule (s : State) : Restarted s s.coldModule := { Restarted.moduleReset s with }

/-- Settles O46: each event by the lemmas about its arm, the two resets by the ways the boot ROM can end. -/
theorem powerAndResets : Obligations.PowerAndResets := by
  intro s v n cl watts p exitTime a below tolerated c k idle pod target quiet n0 fails fresh
  have woken : s.power.woken s.now = if 2 ≤ a ∧ p.waking = none then
      { p with entering := none, waking := some (s.now + exitTime a) } else p := rfl
  have boots {t : State} {old : Nat → Byte} (h : Restarted s t) (hc : t.cores = []) (hn : t.free = s.free)
      (hm : ∀ k, t.peek k = old k) : fresh t.bootRom old := by
    have r := h.bootRom hc
    have ends := BootEnds.bootRom hc hm
    rw [hn] at ends
    exact ⟨r.now, r.turns, r.podTime, r.tenants, r.clusters, r.octets, r.counters, r.launches, r.kills, r.estates, r.mbox,
      r.waiters, r.power, r.arrayCores, ends⟩
  refine ⟨⟨fun h => ?_, fun h => ?_⟩, ⟨fun h => ?_, fun h => ?_⟩, exec_clusterClockGate_gates cl s, exec_clusterClockGate_stays cl s,
    exec_a1Exit_leaves cl s, exec_a1Exit_stays cl s, fun b => exec_sleepEntry_completes s b, ?_, ?_, exec_wakeExitComplete_wakes s,
    exec_wakeExitComplete_stays s, rfl, rfl, exec_coldReset_powered s, fun _ hoff => ?_, fun _ => ?_⟩
  · rw [exec_dltolWrite, woken, if_pos h]
  · rw [exec_dltolWrite, woken, if_neg h]
  · rw [exec_tltolWrite, woken, if_pos h]
    rfl
  · rw [exec_tltolWrite, woken, if_neg h]
    rfl
  · intro b he hw ht hcur hq
    obtain ⟨_, rfl⟩ := (s.targets_iff b).mp ht
    exact exec_sleepEntry_begins s he hw hcur hq
  · intro he h
    refine exec_sleepEntry_stays s he (h.imp_right fun h => ?_)
    rintro ⟨hcur, hq⟩
    exact h _ ((s.targets_iff _).mpr ⟨by omega, rfl⟩) ⟨hcur, hq⟩
  · exact ⟨_, exec_coldReset_off s hoff, boots (.coldModule s) rfl rfl s.coldModule_peek⟩
  · exact ⟨_, exec_moduleReset s, boots (.moduleReset s) rfl rfl fun _ => rfl⟩

end Sys2Proof.Machine
end

section
/-! SUPPORT. What wake events, MSI-X messages, error bits, kills and counter increments can change. -/
namespace Sys2Proof.Machine
open Sys2Proof

/-! ## Wake events and the selection of a state change the power registers alone -/

theorem State.wake_rest (s : State) : s.wake = { s with power := s.wake.power } := by rw [State.wake_eq]

theorem State.reselect_rest (s : State) : s.reselect = { s with power := s.reselect.power } := by
  unfold State.reselect
  cases s.power.entering with
  | some a =>
    dsimp only
    split
    · rw [State.wake_rest]
    · rfl
  | none =>
    dsimp only
    split
    · rw [State.wake_rest]
    · rfl

@[simp] theorem State.wake_tenantAt (s : State) (t : Nat) : s.wake.tenantAt t = s.tenantAt t := by rw [State.wake_rest]; rfl

@[simp] theorem State.wake_msixOut (s : State) : s.wake.msixOut = s.msixOut := by rw [State.wake_rest]

@[simp] theorem State.wake_mem (s : State) : s.wake.mem = s.mem := by rw [State.wake_rest]

@[simp] theorem State.wake_counterAt (s : State) (i : Nat) : s.wake.counterAt i = s.counterAt i := by rw [State.wake_rest]; rfl

@[simp] theorem State.wake_waiters (s : State) : s.wake.waiters = s.waiters := by rw [State.wake_rest]

@[simp] theorem State.reselect_tenantAt (s : State) (t : Nat) : s.reselect.tenantAt t = s.tenantAt t := by
  rw [State.reselect_rest]; rfl

@[simp] theorem State.reselect_mem (s : State) : s.reselect.mem = s.mem := by rw [State.reselect_rest]

/-! ## MSI-X and TERR (04 R68) -/

/-- A message changes the function's MSI-X table and what has been sent, and nothing else. -/
theorem State.msix_rest (s : State) (t v : Nat) : ∃ m out, s.msix t v
    = { s.setTenant t { s.tenantAt t with msix := m } with msixOut := out } := by
  unfold State.msix
  dsimp only
  split
  · exact ⟨_, _, rfl⟩
  · exact ⟨_, _, rfl⟩

/-- A vector that is not masked is sent. -/
theorem State.msix_unmasked (s : State) (t v : Nat) (h : ((s.tenantAt t).msixAt v).masked = false) :
    s.msix t v = { s.setTenant t { s.tenantAt t with
        msix := Tab.set (s.tenantAt t).msix v { (s.tenantAt t).msixAt v with pending := false } } with
      msixOut := s.msixOut ++ [(t, v, ((s.tenantAt t).msixAt v).addr, ((s.tenantAt t).msixAt v).data)] } := by
  unfold State.msix
  simp only [h, Bool.false_eq_true, if_false]
  rfl

/-- A TERR bit of a tenant is set: its other bits, its pages, the counters and memory stay. -/
def SetsErr (t bit : Nat) (s w : State) : Prop :=
  (w.tenantAt t).terr.getLsbD bit = true ∧ (∀ b, b ≠ bit → (w.tenantAt t).terr.getLsbD b = (s.tenantAt t).terr.getLsbD b)
  ∧ (w.tenantAt t).pages = (s.tenantAt t).pages ∧ w.counters = s.counters ∧ w.mem = s.mem

theorem putBits_terr : ∀ (v : BitVec 4) (i : Fin 4), putBits v i 1 1 = v ||| BitVec.twoPow 4 i := by decide

theorem State.setTerr_sets (s : State) (t : Nat) {i : Nat} (hi : i < 4) : SetsErr t i s (s.setTerr t i) := by
  unfold State.setTerr
  dsimp only
  split
  · exact ⟨‹_›, fun _ _ => rfl, rfl, rfl, rfl⟩
  · obtain ⟨m, out, h⟩ := (s.setTenant t { s.tenantAt t with terr := putBits (s.tenantAt t).terr i 1 1 }).msix_rest t 0
    have terr : putBits (s.tenantAt t).terr i 1 1 = (s.tenantAt t).terr ||| BitVec.twoPow 4 i := putBits_terr _ ⟨i, hi⟩
    have ten : ((s.setTenant t { s.tenantAt t with terr := putBits (s.tenantAt t).terr i 1 1 }).msix t 0).tenantAt t
        = { s.tenantAt t with terr := (s.tenantAt t).terr ||| BitVec.twoPow 4 i, msix := m } := by
      rw [h, ← terr]
      simp [State.setTenant, State.tenantAt]
    unfold SetsErr
    rw [ten, h]
    refine ⟨?_, fun b hb => ?_, rfl, rfl, rfl⟩
    · simp [hi]
    · simp [Ne.symm hb]

/-! ## Submission pages (04 R72) -/

/-- A submission page of a tenant becomes `q`: its other pages, TERR and memory stay. -/
def SetsPage (t g : Nat) (s w : State) (q : Page) : Prop :=
  (w.tenantAt t).pageAt g = q ∧ (∀ h, h ≠ g → (w.tenantAt t).pageAt h = (s.tenantAt t).pageAt h)
  ∧ (w.tenantAt t).terr = (s.tenantAt t).terr ∧ w.mem = s.mem

theorem State.setPageOf_sets (s : State) (t g : Nat) (q : Page) : SetsPage t g s (s.setPageOf t g q) q := by
  unfold SetsPage State.setPageOf
  rw [State.tenantAt_setTenant, if_pos rfl]
  exact ⟨Tab.get_set_same _ _ _ _, fun h hh => Tab.get_set_other _ _ _ _ _ hh, rfl, rfl⟩

/-- A head is past a tail: later, modulo 2^32. -/
theorem ahead_iff (a b : W32) : ahead a b = true ↔ 1 ≤ (a - b).toNat ∧ (a - b).toNat < 2 ^ 31 := by
  rw [ahead, decide_eq_true_eq]
  omega

section
variable {s : State} {t g : Nat} {p : Page} (hp : (s.tenantAt t).pageAt g = p)
include hp

theorem State.writeCqhead_past (v : W64)
    (h : 1 ≤ ((v.setWidth 32 : W32) - p.cqtail).toNat ∧ ((v.setWidth 32 : W32) - p.cqtail).toNat < 2 ^ 31) :
    s.writeCqhead t g v = s.setTerr t 1 := by
  subst hp
  exact if_pos ((ahead_iff _ _).mpr h)

theorem State.writeCqhead_moves (v : W64)
    (h : ¬ (1 ≤ ((v.setWidth 32 : W32) - p.cqtail).toNat ∧ ((v.setWidth 32 : W32) - p.cqtail).toNat < 2 ^ 31)) :
    s.writeCqhead t g v = s.setPageOf t g { p with
      cqhead := v.setWidth 32,
      out := if 1 ≤ ((v.setWidth 32 : W32) - p.cqhead).toNat ∧ ((v.setWidth 32 : W32) - p.cqhead).toNat < 2 ^ 31
        then p.out - min ((v.setWidth 32 : W32) - p.cqhead).toNat p.out else p.out } := by
  subst hp
  simp only [← ahead_iff] at h ⊢
  exact if_neg h

theorem State.writeCqcfg_busy (base : Bool) (v : W64) (h : p.out ≠ 0) : s.writeCqcfg t g base v = s.setTerr t 1 := by
  subst hp
  cases base with
  | true => exact if_pos h
  | false => exact if_pos (.inr (.inr h))

theorem State.writeCqcfg_base (v : W64) (h : p.out = 0) :
    s.writeCqcfg t g true v = s.setPageOf t g { p with cqbase := BitVec.ofNat 64 (v.toNat / 4096 * 4096) } := by
  subst hp
  have low : putBits v 0 12 0 = BitVec.ofNat 64 (v.toNat / 4096 * 4096) := by
    unfold putBits bitsAt
    congr 1
    omega
  rw [← low]
  exact if_neg fun hn => hn h

omit hp in
theorem State.writeCqcfg_badSize (s : State) (t g : Nat) (v : W64) (h : v.toNat % 16 < 4 ∨ 12 < v.toNat % 16) :
    s.writeCqcfg t g false v = s.setTerr t 1 := by
  have size : bitsAt v 0 4 = v.toNat % 16 := by simp [bitsAt]
  rw [← size] at h
  exact if_pos (h.imp_right .inl)

theorem State.writeCqcfg_size (v : W64) (h : p.out = 0) (h4 : 4 ≤ v.toNat % 16) (h12 : v.toNat % 16 ≤ 12) :
    s.writeCqcfg t g false v = s.setPageOf t g { p with cqcfg := BitVec.ofNat 64 (v.toNat % 32) } := by
  subst hp
  have size : bitsAt v 0 4 = v.toNat % 16 := by simp [bitsAt]
  have kept : w64 (bitsAt v 0 5) = BitVec.ofNat 64 (v.toNat % 32) := by simp [bitsAt, w64]
  rw [← kept]
  exact if_neg (by omega)

end

/-! ## Counters (04 R75) -/

theorem State.counterOf_owned (s : State) {t j : Nat} (ht : t < 16) (h : j < bitsAt (s.tenantAt t).tecr 16 13) :
    s.counterOf t j = some (bitsAt (s.tenantAt t).tecr 0 12 + j) := if_pos ⟨ht, h⟩

theorem State.counterOf_foreign (s : State) {t j : Nat} (h : bitsAt (s.tenantAt t).tecr 16 13 ≤ j) : s.counterOf t j = none :=
  if_neg fun hc => absurd hc.2 (Nat.not_lt.mpr h)

/-- Without triggers a counter fires nothing. -/
theorem State.fireMet_of_noTrigs (s : State) (i n : Nat) (h : (s.counterAt i).trigs = []) : s.fireMet i n = s := by
  cases n with
  | zero => rfl
  | succ n => simp [State.fireMet, h]

/-- Without a wait on the counter none is answered. -/
theorem State.counterWaits_of_noWaiter (s : State) (i : Nat) (h : ∀ w ∈ s.waiters, w.key ≠ counterKey i) : s.counterWaits i = s := by
  have met (f : Waiter → Bool) : s.waiters.filter (fun w => decide (w.key = counterKey i) && f w) = [] :=
    List.filter_eq_nil_iff.mpr fun w hw => by simp [h w hw]
  have kept (f : Waiter → Bool) : s.waiters.filter (fun w => ! (decide (w.key = counterKey i) && f w)) = s.waiters :=
    List.filter_eq_self.mpr fun w hw => by simp [h w hw]
  unfold State.counterWaits
  dsimp only
  rw [kept, met]
  rfl

/-- An add to a counter without triggers and without waits on it changes its value; other counters and memory stay. -/
theorem State.counterAdd_quiet (s : State) (i : Nat) (v : W64) (ht : (s.counterAt i).trigs = [])
    (hw : ∀ w ∈ s.waiters, w.key ≠ counterKey i) :
    ((s.counterAdd i v).counterAt i).val = (s.counterAt i).val + v
    ∧ (∀ k, k ≠ i → (s.counterAdd i v).counterAt k = s.counterAt k) ∧ (s.counterAdd i v).mem = s.mem := by
  have added : ∃ tenants, s.counterAdd i v
      = { s.setCounter i { s.counterAt i with val := (s.counterAt i).val + v } with tenants := tenants } := by
    unfold State.counterAdd
    dsimp only
    rw [State.fireMet_of_noTrigs _ _ _ (by simp [ht])]
    split
    · exact ⟨_, State.counterWaits_of_noWaiter _ _ hw⟩
    · exact ⟨_, State.counterWaits_of_noWaiter _ _ hw⟩
  obtain ⟨tenants, added⟩ := added
  have counters (k : Nat) : (s.counterAdd i v).counterAt k
      = if k = i then { s.counterAt i with val := (s.counterAt i).val + v } else s.counterAt k := by
    rw [added]
    exact State.counterAt_setCounter s i k _
  refine ⟨?_, fun k hk => ?_, by rw [added]; rfl⟩
  · rw [counters, if_pos rfl]
  · rw [counters, if_neg hk]

/-- Consecutive counters are reset. -/
theorem State.counterAt_foldl_counterReset (s : State) (a n i : Nat) :
    ((upTo a n).foldl (fun u i => u.counterReset i) s).counterAt i
      = if a ≤ i ∧ i < a + n then Counter.reset else s.counterAt i := by
  induction n generalizing s a with
  | zero => rw [if_neg (by omega)]; rfl
  | succ n ih =>
    rw [upTo, List.foldl_cons, ih, State.counterReset, State.counterAt_setCounter]
    by_cases h : i = a
    · rw [if_neg (by omega), if_pos h, if_pos (by omega)]
    · rw [if_neg h]
      exact ite_congr (propext (by omega)) (fun _ => rfl) (fun _ => rfl)

theorem State.foldl_counterReset_rest (s : State) (l : List Nat) :
    l.foldl (fun u i => u.counterReset i) s = { s with counters := (l.foldl (fun u i => u.counterReset i) s).counters } := by
  induction l generalizing s with
  | nil => rfl
  | cons a r ih => rw [List.foldl_cons, ih]; rfl

/-! ## Kills of a tenant's launches (03 R62) -/

/-- What kills of a tenant's launches change, of what a reset of the tenant is concerned with: of the tenants only this one's
registered estate handler; no launch leaves its state, and those of other tenants stay as they are; kills are only added. -/
structure KillsOf (t : Nat) (s w : State) : Prop where
  mem : w.mem = s.mem
  counters : w.counters = s.counters
  others : ∀ u, u ≠ t → w.tenantAt u = s.tenantAt u
  tenant : ∃ e r, w.tenantAt t = { s.tenantAt t with esth := e, reporting := r }
  launches : ∀ l ∈ s.launches, l.ten ≠ t → l ∈ w.launches
  states : ∀ l ∈ w.launches, ∃ k ∈ s.launches, k.ten = l.ten ∧ k.state = l.state ∧ k.placedAt = l.placedAt
  kills : ∀ k ∈ s.kills, k ∈ w.kills

namespace KillsOf

variable {t : Nat} {s u w : State}

theorem refl (t : Nat) (s : State) : KillsOf t s s :=
  ⟨rfl, rfl, fun _ _ => rfl, ⟨_, _, rfl⟩, fun _ h _ => h, fun l h => ⟨l, h, rfl, rfl, rfl⟩, fun _ h => h⟩

theorem trans (h : KillsOf t s u) (g : KillsOf t u w) : KillsOf t s w where
  mem := g.mem.trans h.mem
  counters := g.counters.trans h.counters
  others := fun n hn => (g.others n hn).trans (h.others n hn)
  tenant := by
    obtain ⟨e, r, hu⟩ := h.tenant
    obtain ⟨e', r', hw⟩ := g.tenant
    exact ⟨e', r', by rw [hw, hu]⟩
  launches := fun l hl hn => g.launches l (h.launches l hl hn) hn
  states := fun l hl => by
    obtain ⟨k, hk, ht, hs, hp⟩ := g.states l hl
    obtain ⟨j, hj, ht', hs', hp'⟩ := h.states k hk
    exact ⟨j, hj, ht'.trans ht, hs'.trans hs, hp'.trans hp⟩
  kills := fun k hk => g.kills k (h.kills k hk)

/-- A change of parts that a tenant's reset is not concerned with. -/
theorem of_eq (hm : w.mem = s.mem) (hc : w.counters = s.counters) (ht : ∀ n, w.tenantAt n = s.tenantAt n) (hl : w.launches = s.launches)
    (hk : w.kills = s.kills) : KillsOf t s w :=
  ⟨hm, hc, fun n _ => ht n, ⟨_, _, ht t⟩, fun _ h _ => hl ▸ h, fun l h => ⟨l, hl ▸ h, rfl, rfl, rfl⟩, fun _ h => hk ▸ h⟩

/-- Launches are marked. -/
theorem updLaunch (s : State) (t : Nat) (i : W32) (f : Launch → Launch)
    (hf : ∀ l, (f l).ten = l.ten ∧ (f l).state = l.state ∧ (f l).placedAt = l.placedAt) : KillsOf t s (s.updLaunch t i f) where
  mem := rfl
  counters := rfl
  others := fun _ _ => rfl
  tenant := ⟨_, _, rfl⟩
  launches := fun l hl hn => List.mem_map.mpr ⟨l, hl, if_neg fun h => hn h.1⟩
  states := fun l hl => by
    obtain ⟨k, hk, rfl⟩ := List.mem_map.mp hl
    refine ⟨k, hk, ?_⟩
    split
    · exact ⟨(hf k).1.symm, (hf k).2.1.symm, (hf k).2.2.symm⟩
    · exact ⟨rfl, rfl, rfl⟩
  kills := fun _ h => h

/-- The estate handler of the tenant is no longer registered. -/
theorem unregister (s : State) (t : Nat) (i : W32) (here : Bool) (tenants : Tab Tenant)
    (h : tenants = Tab.set s.tenants t ((s.tenantAt t).unregister i here)) : KillsOf t s { s with tenants := tenants } where
  mem := rfl
  counters := rfl
  others := fun n hn => by subst h; exact Tab.get_set_other _ _ _ _ _ hn
  tenant := by
    have ten : ({ s with tenants := tenants } : State).tenantAt t = (s.tenantAt t).unregister i here := by
      subst h
      exact Tab.get_set_same _ _ _ _
    rw [ten, Tenant.unregister]
    split
    · exact ⟨_, _, rfl⟩
    · exact ⟨_, _, rfl⟩
  launches := fun _ h _ => h
  states := fun l h => ⟨l, h, rfl, rfl, rfl⟩
  kills := fun _ h => h

/-- Reports that have no handler go to a mailbox ring. -/
theorem flushReports (s : State) (t n : Nat) : KillsOf t s (s.flushReports n) := by
  have check (u : State) (d : Death) : KillsOf t u (u.reportCheck d) := by
    unfold State.reportCheck
    split
    · exact refl t u
    · unfold State.machineCheck State.mbPut
      dsimp only
      split
      · exact of_eq rfl rfl (fun _ => rfl) rfl rfl
      · exact of_eq rfl rfl (fun _ => rfl) rfl rfl
  have checks (l : List (Nat × Death)) : ∀ u : State, KillsOf t u (l.foldl (fun u r => u.reportCheck r.2) u) := by
    induction l with
    | nil => exact fun u => refl t u
    | cons r q ih => exact fun u => (check u r.2).trans (ih _)
  unfold State.flushReports
  dsimp only
  split
  · exact refl t s
  · exact trans (u := { s with reports := s.reports.filter (fun r => r.1 != n) })
      (of_eq rfl rfl (fun _ => rfl) rfl rfl) (checks _ _)

theorem killCores (s : State) (t : Nat) (i : W32) (cl : Nat) : KillsOf t s (s.killCores t i cl) := by
  have rest (tenants : Tab Tenant) (h : tenants = (s.killCores t i cl).tenants) :
      KillsOf t { s with tenants := tenants } (s.killCores t i cl) :=
    of_eq rfl rfl (fun _ => by subst h; rfl) rfl rfl
  refine trans ?_ (rest _ rfl)
  unfold State.killCores
  dsimp only
  cases hf : Tab.find s.tenants t with
  | none => exact refl t s
  | some n =>
    have hn : s.tenantAt t = n := Tab.get_of_find _ _ _ _ hf
    exact unregister s t i _ _ (by rw [hn])

theorem killCluster (s : State) (t : Nat) (i : W32) (cl : Nat) : KillsOf t s (s.killCluster t i cl) :=
  (killCores s t i cl).trans (flushReports _ t t)

/-- A kill is recorded, with which the tenant's estate handler may leave its register. -/
theorem recordKill (s : State) (t : Nat) (i : W32) (here away : Bool) (k : Kill) : KillsOf t s { s with
    kills := s.kills ++ [k],
    tenants := if away = true then Tab.set s.tenants t ((s.tenantAt t).unregister i here) else s.tenants } := by
  have recorded (u : State) : KillsOf t u { u with kills := u.kills ++ [k] } :=
    { refl t u with kills := fun _ h => List.mem_append_left _ h }
  split
  · exact (unregister s t i here _ rfl).trans (recorded _)
  · exact recorded s

/-- A kill is injected, or the launch is being killed already. -/
theorem injectKill (s : State) (t : Nat) (i : W32) (origin : Nat) (cause : Byte) (f : Bool) :
    KillsOf t s (s.injectKill t i origin cause f) := by
  unfold State.injectKill
  dsimp only
  split
  · exact refl t s
  · refine trans ?_ (killCluster _ t i _)
    refine trans ?_ (recordKill (s.updLaunch t i _) t i _ _ _)
    exact updLaunch s t i _ fun l => ⟨rfl, rfl, rfl⟩

/-- After its kill is injected, a launch has a kill in progress. -/
theorem injectKill_kills (s : State) (t : Nat) (i : W32) (origin : Nat) (cause : Byte) (f : Bool) :
    ∃ k ∈ (s.injectKill t i origin cause f).kills, k.ten = t ∧ k.ctxid = i := by
  unfold State.injectKill
  dsimp only
  split
  · rename_i h
    simpa using h
  · exact ⟨_, (killCluster _ t i _).kills _ (List.mem_append_right _ (List.mem_singleton_self _)), rfl, rfl⟩

theorem foldl (g : State → Launch → State) (hg : ∀ u l, KillsOf t u (g u l)) (q : List Launch) :
    ∀ s, KillsOf t s (q.foldl g s) := by
  induction q with
  | nil => exact fun s => refl t s
  | cons l r ih => exact fun s => (hg s l).trans (ih (g s l))

/-- Where each step of a fold has its launch killed, every launch has a kill in progress at the end. -/
theorem foldl_kills (g : State → Launch → State) (hg : ∀ u l, KillsOf t u (g u l))
    (hk : ∀ u l, ∃ k ∈ (g u l).kills, k.ten = t ∧ k.ctxid = l.ctxid) (q : List Launch) :
    ∀ s, ∀ l ∈ q, ∃ k ∈ (q.foldl g s).kills, k.ten = t ∧ k.ctxid = l.ctxid := by
  induction q with
  | nil => exact fun s l h => absurd h List.not_mem_nil
  | cons m r ih =>
    intro s l h
    rcases List.mem_cons.mp h with rfl | h
    · obtain ⟨k, hm, h⟩ := hk s l
      exact ⟨k, (foldl g hg r (g s l)).kills k hm, h⟩
    · exact ih (g s m) l h

/-- Every launch of a tenant that has threads is killed. -/
theorem killTenant (s : State) (t : Nat) : KillsOf t s (s.killTenant t)
    ∧ ∀ l ∈ s.launches, l.ten = t → ¬ (l.state = .queued ∧ l.placedAt = none) →
      ∃ k ∈ (s.killTenant t).kills, k.ten = t ∧ k.ctxid = l.ctxid := by
  refine ⟨foldl _ (fun u l => ?_) _ s, fun l hl ht hq => foldl_kills _ (fun u l => ?_) (fun u l => ?_) _ s l ?_⟩
  · split
    · exact injectKill _ _ _ _ _ _
    · exact injectKill _ _ _ _ _ _
  · split
    · exact injectKill _ _ _ _ _ _
    · exact injectKill _ _ _ _ _ _
  · split
    · exact injectKill_kills _ _ _ _ _ _
    · exact injectKill_kills _ _ _ _ _ _
  · rw [List.mem_filter, decide_eq_true_eq, Option.isSome_iff_ne_none]
    exact ⟨hl, ht, Classical.not_and_iff_not_or_not.mp hq⟩

end KillsOf

/-! ## The reset of a tenant (01 R19) -/

/-- A tenant has been reset, its function enabled or not: its host registers are at their reset values, its counters are zeroed,
its queued launches are gone and the others have kills in progress; other tenants, counters and memory stay. -/
def TenantIsReset (t : Nat) (vf : Bool) (s w : State) : Prop :=
  (w.tenantAt t).tltol = 0xFFFFFF ∧ (w.tenantAt t).terr = 0 ∧ (w.tenantAt t).pages = [] ∧ (w.tenantAt t).msix = []
  ∧ (w.tenantAt t).attest = .reset ∧ (w.tenantAt t).vf = vf ∧ (∀ u, u ≠ t → w.tenantAt u = s.tenantAt u)
  ∧ (∀ i, bitsAt (s.tenantAt t).tecr 0 12 ≤ i → i < bitsAt (s.tenantAt t).tecr 0 12 + bitsAt (s.tenantAt t).tecr 16 13 →
      w.counterAt i = Counter.reset)
  ∧ (∀ i, ¬ (bitsAt (s.tenantAt t).tecr 0 12 ≤ i ∧ i < bitsAt (s.tenantAt t).tecr 0 12 + bitsAt (s.tenantAt t).tecr 16 13) →
      w.counterAt i = s.counterAt i)
  ∧ (∀ l ∈ s.launches, l.ten ≠ t → l ∈ w.launches)
  ∧ (∀ l ∈ w.launches, l.ten = t → ¬ (l.state = .queued ∧ l.placedAt = none))
  ∧ (∀ l ∈ s.launches, l.ten = t → ¬ (l.state = .queued ∧ l.placedAt = none) → ∃ k ∈ w.kills, k.ten = t ∧ k.ctxid = l.ctxid)
  ∧ w.mem = s.mem

/-- The registers of a tenant that its reset returns to their reset values. -/
def Tenant.cleared (n : Tenant) : Tenant :=
  { n with tltol := 0xFFFFFF, terr := 0, pages := [], msix := [], attest := .reset }

/-- What a tenant's reset leaves of a launch. -/
def Launch.afterReset (t : Nat) (l : Launch) : Option Launch :=
  if l.ten ≠ t then some l else if l.state = LaunchState.queued ∧ l.placedAt = none then none else some { l with sub := none }

/-- The state in which a tenant's reset kills the launches that are left. -/
def State.beforeKills (s : State) (t : Nat) : State :=
  { (upTo (bitsAt (s.tenantAt t).tecr 0 12) (bitsAt (s.tenantAt t).tecr 16 13)).foldl (fun u i => u.counterReset i)
      (s.setTenant t (s.tenantAt t).cleared) with launches := s.launches.filterMap (Launch.afterReset t) }

theorem State.tenantReset_eq (s : State) (t : Nat) : s.tenantReset t = (s.beforeKills t).killTenant t := by
  have launches (l : List Nat) (u : State) : (l.foldl (fun u i => u.counterReset i) u).launches = u.launches := by
    rw [State.foldl_counterReset_rest]
  have kills (u : State) (h : u.launches = s.launches) :
      ({ u with launches := u.launches.filterMap (Launch.afterReset t) } : State).killTenant t
        = ({ u with launches := s.launches.filterMap (Launch.afterReset t) } : State).killTenant t := by rw [h]
  exact kills _ (launches _ _)

theorem State.beforeKills_tenantAt (s : State) (t u : Nat) :
    (s.beforeKills t).tenantAt u = if u = t then (s.tenantAt t).cleared else s.tenantAt u := by
  unfold State.beforeKills
  rw [State.foldl_counterReset_rest]
  exact State.tenantAt_setTenant s t u _

theorem State.beforeKills_counterAt (s : State) (t i : Nat) : (s.beforeKills t).counterAt i
    = if bitsAt (s.tenantAt t).tecr 0 12 ≤ i ∧ i < bitsAt (s.tenantAt t).tecr 0 12 + bitsAt (s.tenantAt t).tecr 16 13
      then Counter.reset else s.counterAt i :=
  State.counterAt_foldl_counterReset (s.setTenant t (s.tenantAt t).cleared) _ _ i

theorem State.beforeKills_mem (s : State) (t : Nat) : (s.beforeKills t).mem = s.mem := by
  unfold State.beforeKills
  rw [State.foldl_counterReset_rest]
  rfl

theorem Launch.afterReset_other {t : Nat} {l : Launch} (h : l.ten ≠ t) : l.afterReset t = some l := if_pos h

theorem Launch.afterReset_kept {t : Nat} {l : Launch} (h : l.ten = t) (hq : ¬ (l.state = .queued ∧ l.placedAt = none)) :
    l.afterReset t = some { l with sub := none } := by
  rw [Launch.afterReset, if_neg fun hn => hn h, if_neg hq]

/-- No launch of the tenant that a reset leaves is queued. -/
theorem Launch.afterReset_some {t : Nat} {l m : Launch} (h : l.afterReset t = some m) (hm : m.ten = t) :
    ¬ (m.state = .queued ∧ m.placedAt = none) := by
  unfold Launch.afterReset at h
  split at h
  · cases h; contradiction
  · split at h
    · cases h
    · cases h; assumption

theorem State.tenantReset_isReset (s : State) (t : Nat) : TenantIsReset t (s.tenantAt t).vf s (s.tenantReset t) := by
  obtain ⟨keeps, killed⟩ := KillsOf.killTenant (s.beforeKills t) t
  rw [← State.tenantReset_eq] at keeps killed
  obtain ⟨e, r, ten⟩ := keeps.tenant
  rw [State.beforeKills_tenantAt, if_pos rfl] at ten
  have counters (i : Nat) : (s.tenantReset t).counterAt i = (s.beforeKills t).counterAt i := by
    rw [State.counterAt, keeps.counters]; rfl
  have mem_beforeKills {l m : Launch} (hl : l ∈ s.launches) (h : l.afterReset t = some m) : m ∈ (s.beforeKills t).launches :=
    List.mem_filterMap.mpr ⟨l, hl, h⟩
  unfold TenantIsReset
  rw [ten]
  refine ⟨rfl, rfl, rfl, rfl, rfl, rfl, fun u hu => ?_, fun i h1 h2 => ?_, fun i h => ?_, fun l hl hn => ?_, fun l hl ht => ?_,
    fun l hl ht hq => ?_, keeps.mem.trans (s.beforeKills_mem t)⟩
  · rw [keeps.others u hu, State.beforeKills_tenantAt, if_neg hu]
  · rw [counters, State.beforeKills_counterAt, if_pos ⟨h1, h2⟩]
  · rw [counters, State.beforeKills_counterAt, if_neg h]
  · exact keeps.launches l (mem_beforeKills hl (Launch.afterReset_other hn)) hn
  · obtain ⟨k, hk, hten, hstate, hplaced⟩ := keeps.states l hl
    obtain ⟨j, _, hj⟩ := List.mem_filterMap.mp hk
    rw [← hstate, ← hplaced]
    exact Launch.afterReset_some hj (hten.trans ht)
  · exact killed { l with sub := none } (mem_beforeKills hl (Launch.afterReset_kept ht hq)) ht hq

/-- Power registers are none of a tenant's. -/
theorem TenantIsReset.reselect {t : Nat} {vf : Bool} {s w : State} (h : TenantIsReset t vf s w) : TenantIsReset t vf s w.reselect := by
  rw [State.reselect_rest]
  exact h

/-- The function of a tenant that has been reset is disabled. -/
theorem TenantIsReset.disable {t : Nat} {vf : Bool} {s w : State} (h : TenantIsReset t vf s w) :
    TenantIsReset t false s (w.setTenant t { w.tenantAt t with vf := false }) := by
  obtain ⟨tltol, terr, pages, msix, attest, _, others, rest⟩ := h
  unfold TenantIsReset
  rw [State.tenantAt_setTenant, if_pos rfl]
  refine ⟨tltol, terr, pages, msix, attest, rfl, fun u hu => ?_, rest⟩
  rw [State.tenantAt_setTenant, if_neg hu]
  exact others u hu

/-! ## The resident handler (09 R185) -/

theorem OnlyBoot.mapHandler (s : State) (ten va f n : Nat) : OnlyBoot s (s.mapHandler ten va f n) := by
  induction n generalizing va f with
  | zero => exact refl s
  | succ n ih =>
    have ih := ih (va + 65536) (f + 1)
    unfold State.mapHandler
    dsimp only
    split
    · exact ih
    · split
      · exact ih
      · exact (ih.trans (tableEntry ‹_›)).trans (writeLeaf _ _ _ _ _ _)

theorem State.installHandler_none (s : State) (t : Nat) (h : s.prevec = 0) : s.installHandler t = s := if_pos (.inl h)

/-- Where PREVEC is set, the handler of an enabled tenant is mapped and its attestation record extended; other tenants stay. -/
theorem State.installHandler_some (s : State) {t : Nat} (ht : t < 16) (hp : s.prevec ≠ 0) (hv : (s.tenantAt t).vf = true) :
    ∃ b, (s.installHandler t).tenantAt t = { s.tenantAt t with attest := (s.tenantAt t).attest.extend b }
      ∧ ∀ u, u ≠ t → (s.installHandler t).tenantAt u = s.tenantAt u := by
  have array : ¬ 16 ≤ t := by omega
  unfold State.installHandler
  rw [if_neg fun h => h.elim hp (· hv)]
  simp only [State.setAttest, State.attestOf, if_neg array, State.tenantAt_setTenant, (OnlyBoot.mapHandler _ _ _ _ _).tenantAt,
    if_true]
  exact ⟨_, rfl, fun u hu => if_neg hu⟩

/-- A tenant's function is enabled with a fresh attestation record. -/
def State.enable (s : State) (t : Nat) : State := s.setTenant t { s.tenantAt t with vf := true, attest := .reset }

theorem State.enable_tenantAt (s : State) (t u : Nat) :
    (s.enable t).tenantAt u = if u = t then { s.tenantAt t with vf := true, attest := .reset } else s.tenantAt u :=
  State.tenantAt_setTenant _ _ _ _

/-- Enabling a function: the tenant's, and nothing of another tenant; the handler extends the fresh record where PREVEC is set. -/
theorem State.enable_effect (s : State) {t : Nat} (ht : t < 16) :
    let w := ((s.enable t).installHandler t).reselect
    (w.tenantAt t).vf = true ∧ (∀ u, u ≠ t → w.tenantAt u = s.tenantAt u)
    ∧ (s.prevec = 0 → w.tenantAt t = { s.tenantAt t with vf := true, attest := .reset } ∧ w.mem = s.mem)
    ∧ (s.prevec ≠ 0 → ∃ b, (w.tenantAt t).attest = Attest.reset.extend b) := by
  have own := (s.enable_tenantAt t t).trans (if_pos rfl)
  have others (u : Nat) (hu : u ≠ t) := (s.enable_tenantAt t u).trans (if_neg hu)
  simp only [State.reselect_tenantAt, State.reselect_mem]
  by_cases hp : s.prevec = 0
  · rw [(s.enable t).installHandler_none t hp]
    exact ⟨by rw [own], others, fun _ => ⟨own, rfl⟩, fun h => absurd hp h⟩
  · obtain ⟨b, hb, rest⟩ := (s.enable t).installHandler_some ht hp (by rw [own])
    rw [own] at hb
    exact ⟨by rw [hb], fun u hu => (rest u hu).trans (others u hu), fun h => absurd h hp, fun _ => ⟨b, by rw [hb]⟩⟩

end Sys2Proof.Machine
end
section
/-! The statement about virtual functions (O47). -/
namespace Sys2Proof.Machine
open Sys2Proof

section
variable {s : State} {n : BitVec 4}

theorem exec_vfEnable_enabled (h : (s.tenantAt n.toNat).vf = true) : exec (.vfEnable n) s = .next s := if_pos h

theorem exec_tenantReset_enabled (h : (s.tenantAt n.toNat).vf = true) :
    exec (.tenantReset n) s = .next (s.tenantReset n.toNat).reselect := if_pos h

theorem exec_vfDisable_enabled (h : (s.tenantAt n.toNat).vf = true) :
    exec (.vfDisable n) s = .next ((s.tenantReset n.toNat).setTenant n.toNat
      { (s.tenantReset n.toNat).tenantAt n.toNat with vf := false }).reselect := if_pos h

theorem exec_cqheadWrite_enabled (h : (s.tenantAt n.toNat).vf = true) (g : BitVec 4) (v : BitVec 64) :
    exec (.cqheadWrite n g v) s = .next (s.wake.writeCqhead n.toNat g.toNat v) := if_pos h

theorem exec_cqcfgWrite_enabled (h : (s.tenantAt n.toNat).vf = true) (g : BitVec 4) (b : Bool) (v : BitVec 64) :
    exec (.cqcfgWrite n g b v) s = .next (s.wake.writeCqcfg n.toNat g.toNat b v) := if_pos h

theorem exec_submissionPageWrite_enabled (h : (s.tenantAt n.toNat).vf = true) (g : BitVec 4) :
    exec (.submissionPageWrite n g) s = .next (s.wake.setTerr n.toNat 0) :=
  if_pos (by simp [h, g.isLt])

theorem exec_ecincWrite_foreign (h : (s.tenantAt n.toNat).vf = true) (j : BitVec 12) (v : BitVec 64)
    (hj : bitsAt (s.tenantAt n.toNat).tecr 16 13 ≤ j.toNat) : exec (.ecincWrite n j v) s = .next (s.wake.setTerr n.toNat 2) := by
  show execEcincWrite n j v s = _
  simp [execEcincWrite, h, s.counterOf_foreign hj]

theorem exec_ecincWrite_owned (h : (s.tenantAt n.toNat).vf = true) (j : BitVec 12) (v : BitVec 64)
    (hj : j.toNat < bitsAt (s.tenantAt n.toNat).tecr 16 13) :
    exec (.ecincWrite n j v) s = .next (s.wake.counterAdd (bitsAt (s.tenantAt n.toNat).tecr 0 12 + j.toNat) v) := by
  show execEcincWrite n j v s = _
  simp [execEcincWrite, h, s.counterOf_owned n.isLt hj]

/-- The state after a vector's mask is cleared. -/
def State.unmask (s : State) (t v : Nat) : State :=
  s.setTenant t { s.tenantAt t with msix := Tab.set (s.tenantAt t).msix v { (s.tenantAt t).msixAt v with masked := false } }

theorem exec_msixVectorUnmask_enabled (h : (s.tenantAt n.toNat).vf = true) {vec : BitVec 5} (hv : vec.toNat < 17) :
    exec (.msixVectorUnmask n vec) s = .next (if ((s.tenantAt n.toNat).msixAt vec.toNat).pending
      then ((s.unmask n.toNat vec.toNat).msix n.toNat vec.toNat).wake else (s.unmask n.toNat vec.toNat).wake) := by
  show execMsixVectorUnmask n vec s = _
  unfold execMsixVectorUnmask
  dsimp only
  rw [if_neg (by simp [h, hv])]
  split
  · rfl
  · rfl

theorem exec_msixVectorUnmask_beyond {vec : BitVec 5} (hv : 17 ≤ vec.toNat) : exec (.msixVectorUnmask n vec) s = .next s :=
  if_pos (by simp [hv])

theorem exec_vfEnable_disabled (h : (s.tenantAt n.toNat).vf = false) :
    exec (.vfEnable n) s = .next ((s.enable n.toNat).installHandler n.toNat).reselect :=
  if_neg (by simp [h])

/-- The host's writes to a function that is not enabled, and the resets of one, change nothing. -/
theorem exec_of_disabled (h : (s.tenantAt n.toNat).vf = false) (g : BitVec 4) (vec : BitVec 5) (j : BitVec 12) (v : BitVec 64) :
    exec (.tenantReset n) s = .next s ∧ exec (.vfDisable n) s = .next s ∧ exec (.ecincWrite n j v) s = .next s
    ∧ exec (.cqheadWrite n g v) s = .next s ∧ (∀ b, exec (.cqcfgWrite n g b v) s = .next s)
    ∧ exec (.submissionPageWrite n g) s = .next s ∧ exec (.msixVectorUnmask n vec) s = .next s :=
  have off : ¬ (s.tenantAt n.toNat).vf = true := by simp [h]
  ⟨if_neg off, if_neg off, if_pos (by simp [h]), if_neg off, fun _ => if_neg off, if_neg (by simp [h]), if_pos (by simp [h])⟩

end

/-- A TERR bit that is set in a module that a wake event has reached. -/
theorem SetsErr.wake {t bit : Nat} {s w : State} (h : SetsErr t bit s.wake w) : SetsErr t bit s w := by
  rw [State.wake_rest] at h
  exact h

/-- A page that is changed in a module that a wake event has reached. -/
theorem SetsPage.wake {t g : Nat} {s w : State} {q : Page} (h : SetsPage t g s.wake w q) : SetsPage t g s w q := by
  rw [State.wake_rest] at h
  exact h

/-- Clearing a vector's mask: it is unmasked and not pending, and a message that was pending has been sent. -/
theorem State.unmask_sends (s : State) (t v : Nat) :
    ∃ w, (if ((s.tenantAt t).msixAt v).pending then ((s.unmask t v).msix t v).wake else (s.unmask t v).wake) = w
      ∧ ((w.tenantAt t).msixAt v).masked = false ∧ ((w.tenantAt t).msixAt v).pending = false ∧ w.mem = s.mem
      ∧ w.msixOut = s.msixOut ++ (if ((s.tenantAt t).msixAt v).pending
          then [(t, v, ((s.tenantAt t).msixAt v).addr, ((s.tenantAt t).msixAt v).data)] else []) := by
  have entry : ((s.unmask t v).tenantAt t).msixAt v = { (s.tenantAt t).msixAt v with masked := false } := by
    simp [State.unmask, Tenant.msixAt]
  cases hp : ((s.tenantAt t).msixAt v).pending with
  | true =>
    refine ⟨_, if_pos rfl, ?_⟩
    rw [State.msix_unmasked _ _ _ (by rw [entry]), State.wake_tenantAt, State.wake_mem, State.wake_msixOut, entry]
    have ten (u : State) (m : Tab Msix) (out : List (Nat × Nat × W64 × W32)) :
        (({ u.setTenant t { u.tenantAt t with msix := m } with msixOut := out } : State).tenantAt t).msixAt v
          = Tab.get m Msix.reset v :=
      congrArg (fun n : Tenant => n.msixAt v) ((u.tenantAt_setTenant t t _).trans (if_pos rfl))
    rw [ten, Tab.get_set_same]
    exact ⟨rfl, rfl, rfl, rfl⟩
  | false =>
    refine ⟨_, if_neg Bool.false_ne_true, ?_⟩
    rw [State.wake_tenantAt, State.wake_mem, State.wake_msixOut, entry]
    exact ⟨rfl, hp, rfl, (List.append_nil _).symm⟩

/-- Settles O47: each event by the lemmas about its arm, and by what a set TERR bit, a changed page, an increment, and the reset
of a tenant leave as they were. -/
theorem virtualFunctions : Obligations.VirtualFunctions := by
  intro s n g vec j v t ten p base count reset errs page low past size e
  have err {i : Instr} {bit : Nat} (hb : bit < 4) (hi : exec i s = .next (s.wake.setTerr t bit)) : errs i bit :=
    ⟨_, hi, (s.wake.setTerr_sets t hb).wake⟩
  have paged {i : Instr} {q : Page} (hi : exec i s = .next (s.wake.setPageOf t g.toNat q)) : page i q :=
    ⟨_, hi, (s.wake.setPageOf_sets t g.toNat q).wake⟩
  have p_wake : (s.wake.tenantAt t).pageAt g.toNat = p := by rw [State.wake_tenantAt]
  refine ⟨fun hv => ?_, fun hv => ?_, fun hv => ⟨fun hj => ?_, fun hj ht hw => ?_, fun h => ?_, fun h => ?_, fun b h => ?_,
    fun h => ?_, fun h hz => ?_, fun h h4 h12 => ?_, ?_, exec_msixVectorUnmask_beyond, fun hvec => ?_⟩⟩
  · have isReset : TenantIsReset t true s (s.tenantReset t) := hv ▸ s.tenantReset_isReset t
    exact ⟨exec_vfEnable_enabled hv, ⟨_, exec_tenantReset_enabled hv, isReset.reselect⟩,
      ⟨_, exec_vfDisable_enabled hv, isReset.disable.reselect⟩⟩
  · obtain ⟨h1, h2, h3, h4, h5, h6, h7⟩ := exec_of_disabled hv g vec j v
    exact ⟨h1, h2, h3, h4, h5, h6, h7, _, exec_vfEnable_disabled hv, s.enable_effect n.isLt⟩
  · exact err (by decide) (exec_ecincWrite_foreign hv j v hj)
  · refine ⟨_, exec_ecincWrite_owned hv j v hj, ?_⟩
    obtain ⟨val, others, mem⟩ := s.wake.counterAdd_quiet (base + j.toNat) v (by rwa [State.wake_counterAt]) (by rwa [State.wake_waiters])
    simp only [State.wake_counterAt, State.wake_mem] at val others mem
    exact ⟨val, others, mem⟩
  · exact err (by decide) ((exec_cqheadWrite_enabled hv g v).trans (congrArg _ (State.writeCqhead_past p_wake v h)))
  · exact paged ((exec_cqheadWrite_enabled hv g v).trans (congrArg _ (State.writeCqhead_moves p_wake v h)))
  · exact err (by decide) ((exec_cqcfgWrite_enabled hv g b v).trans (congrArg _ (State.writeCqcfg_busy p_wake b v h)))
  · exact paged ((exec_cqcfgWrite_enabled hv g true v).trans (congrArg _ (State.writeCqcfg_base p_wake v h)))
  · exact err (by decide) ((exec_cqcfgWrite_enabled hv g false v).trans (congrArg _ (s.wake.writeCqcfg_badSize t _ v hz)))
  · exact paged ((exec_cqcfgWrite_enabled hv g false v).trans (congrArg _ (State.writeCqcfg_size p_wake v h h4 h12)))
  · exact err (by decide) (exec_submissionPageWrite_enabled hv g)
  · obtain ⟨w, hw, h⟩ := s.unmask_sends t vec.toNat
    exact ⟨w, (exec_msixVectorUnmask_enabled hv hvec).trans (congrArg _ hw), h⟩

end Sys2Proof.Machine
end
